-- ==== Sys2Proof/Word.lean ====
section
/-! DEFINITION. The words of the part: bytes on the wires and voice samples (8 bits), the 16-bit
quantities of Keystream Arithmetic and the call tag, the 32-bit frame counter (00 section 5.5,
R74, R106, R176). -/

namespace Sys2Proof

/-- A byte on a wire, or a voice sample code (00 section 5.5: 0 to 255). -/
abbrev Byte := BitVec 8

/-- A 16-bit quantity: generator state, seed, increment, secret, challenge, response, call tag. -/
abbrev Word16 := BitVec 16

/-- The frame counter and frame numbers (R106). -/
abbrev Word32 := BitVec 32

/-- The byte that carries a small number on a wire (R176). -/
def byteOf (n : Nat) : Byte := BitVec.ofNat 8 n

end Sys2Proof
end

