-- ==== Sys2Proof/Config.lean ====
section
/-! DEFINITION. What an implementation fixes and the rules leave open: the free bytes. The fixed
sizes of the part (R1, R30, R47, R53, R88, R110, R113, R127, R133, R160). -/

namespace Sys2Proof.Config

/-- DESIGN CHOICE (log entry 9). The bytes that carry an absent field for which R176 states no
absent value: the count of valid hunt entries outside HUNT (R145), the call tag and the frame number
of a watch without a trace record (R167). Nothing is known of them. -/
opaque freeByte : Nat → Byte

/-- An order queue holds up to 8 order records (R1). -/
def orderQueueSize : Nat := 8

/-- An out queue holds up to 32 entries (R1). -/
def outQueueSize : Nat := 32

/-- An order queue entry keeps at most 32 parameter bytes (R3). -/
def keptParameters : Nat := 32

/-- The directory holds up to 256 entries (R30). -/
def directorySize : Nat := 256

/-- The connection table holds up to 160 records, with ids 0 to 159 (R88). -/
def tableSize : Nat := 160

/-- A deliver queue holds up to 4 messages (R56). -/
def deliverQueueSize : Nat := 4

/-- DESIGN CHOICE (log entry 1). How far the time base moves, in microseconds, when the part
idles for one step. -/
def idleMicroseconds : Nat := 125

/-- The longest RESTARTING period, 4 ms (R174), in microseconds. -/
def longestRestart : Nat := 4000

end Sys2Proof.Config
end

