-- ==== Sys2Proof/Syntax.lean ====
section
/-! DEFINITION. The commands of the part, one constructor per row of the table of operations and
events. A row of an order has no operand: the order, with its tag and parameters, stands at the head
of the granted port's order queue (R6, R8), and the row is its take. -/

namespace Sys2Proof

/-- The three order ports (R1). -/
inductive Port where
  | a | b | m
  deriving DecidableEq, Repr

/-- How much of a transfer a command covers (R2 to R5; log entry 5). -/
inductive TransferPart where
  /-- The transfer starts: the status byte is formed and sent, and nothing more has been received. -/
  | opening
  /-- The rest of the transfer comes, and the status byte too when no transfer was open. -/
  | completing
  deriving DecidableEq, Repr

/-- The commands: what a processor, a handset, the line interface, a timer, the frame clock, the
supply or the arbiter makes happen in the part. -/
inductive Instr where
  /-- R3: an ORDER transfer; the bytes received after the transfer-kind byte. -/
  | orderTransfer (port : Port) (part : TransferPart) (record : List Byte)
  /-- R4. -/
  | fetchTransfer (port : Port) (part : TransferPart)
  /-- R5. -/
  | statusTransfer (port : Port) (part : TransferPart)
  /-- R2: the transfer-kind byte received, or none when the transfer ended before it. -/
  | unknownTransferKind (port : Port) (kind : Option Byte)
  | unknownOrder
  | claim
  | pulse
  | yield
  | assign
  | setLapse
  | lookMastership
  | enter
  | remove
  | setSecret
  | amend
  | suspend
  | resume
  | lookEntry
  | lookNextEntry
  | setPrecedenceMap
  | lookPrecedenceMap
  | setPort
  | lookPort
  | withdraw
  | deliver
  | releaseLockout
  | lookStation
  | setAdmissionTimes
  | lookAdmissionTimes
  | seedChallenge
  | connect
  | releaseById
  | releaseByTag
  | setMuteCode
  | lookConnection
  | lookNextConnection
  | lookEndpoint
  | lookNetwork
  | setTrunk
  | setGroup
  | lookTrunk
  | lookGroup
  | loadKey
  | eraseKey
  | lookKey
  | resync
  | lookLeg
  | armWatch
  | disarmWatch
  | clearTrace
  | releaseHold
  | lookWatch
  | restartCold
  | restartKeep
  | readCauses
  | setPortMode
  | lapseTimerExpiry
  | answerDeadlineExpiry (position : Fin 96)
  | holdOffExpiry (position : Fin 96)
  /-- R58: REGISTER from a station position, with the identity it offers. -/
  | register (position : Fin 96) (identity : Word16)
  /-- R61: ANSWER from a station position, with its response. -/
  | answer (position : Fin 96) (response : Word16)
  | leave (position : Fin 96)
  /-- R66: SIGNAL from a station position, with its bytes. -/
  | signal (position : Fin 96) (bytes : List Byte)
  /-- R54, R179: a message on a line port's channel that is no fit message. -/
  | unfitStationMessage (line : Fin 48) (message : List Byte)
  | babble (line : Fin 48)
  | linkUp (line : Fin 48)
  | linkDown (line : Fin 48)
  | beginSend (line : Fin 48)
  | sendCompletion (line : Fin 48)
  /-- R86: the end of a frame; what arrives at each endpoint, in order of endpoint number. -/
  | sampleArrival (samples : List Byte)
  | frameStart
  | powerOn
  | resetPin
  | resetPinRelease
  /-- R174: the restart completes; the links the line interface reports (true is UP), in order of
  line port number. -/
  | restartComplete (links : List Bool)
  deriving DecidableEq, Repr

end Sys2Proof
end

