-- ==== Sys2Proof/Machine/State.lean ====
section
/-! DEFINITION. The state of the part as plain data, block by block, and its value at the start of
the cold restart that power-on begins (R1, R16, R31, R47, R53, R71, R72, R109, R113, R127, R160,
R173). The marks of log entries stand where a field or a reset value is the model's. -/

namespace Sys2Proof.Machine

/-- Why the part would stop with a fault. The spec names no such stop. -/
inductive Fault where
  /-- Raised by nobody: it stands only so that the type has a value. Safe. -/
  | unraised
  deriving DecidableEq, Repr

/-- Why a command has no meaning. -/
inductive Refusal where
  /-- Raised by exec for a row not modelled yet; no row is. Safe: nothing can be proved of it. -/
  | notModelled (mnemonic : String)
  deriving DecidableEq, Repr

/-! ### Order ports (R1) -/

/-- The duplicated call-control processors (00 section 6). -/
inductive Controller where
  | a | b
  deriving DecidableEq, Repr

/-- The attention mode of a port (R12). -/
inductive PortMode where
  | ungated | gated
  deriving DecidableEq, Repr

/-- The mode of a restart (R170). -/
inductive RestartMode where
  | cold | keep
  deriving DecidableEq, Repr

/-- The causes recorded since the port's processor last read them (R175). -/
structure CauseSet where
  powerOn : Bool
  pin : Bool
  orderCold : Bool
  orderKeep : Bool
  deriving DecidableEq, Repr

/-- A queued order: code, tag, the parameter bytes kept, and the over-length mark (R3). -/
structure OrderRecord where
  code : Byte
  tag : Byte
  params : List Byte
  overLength : Bool
  deriving DecidableEq, Repr

/-- The 23 outcome codes (R14). -/
inductive OutcomeCode where
  | done | badOrder | notAllowed | notHolder | lapsed | held | range | alreadyExists | noEntry | full
  | inUse | destBusy | notAdmitted | trunkOut | barred | privacy | keyState | noLeg | groupFull
  | groupReserved | congested | traceHold | lineBusy
  deriving DecidableEq, Repr

/-- The state of the mastership record, without its holder (R16). -/
inductive MasteryState where
  | none | held | lapsed
  deriving DecidableEq, Repr

/-- The causes of a MASTERSHIP event (R25). -/
inductive MasteryCause where
  | claimed | takeover | recovered | yielded | assigned | lapsed
  deriving DecidableEq, Repr

/-- The reasons of RELEASED and WITHDRAWN (R67, section 9.2). -/
inductive ReleaseReason where
  | left | linkLost | reregister | relocated | withdrawn | removed | suspended | classChange
  | portDisabled | babble | preempted
  deriving DecidableEq, Repr

/-- The reasons REFUSE carries to a station (R55). -/
inductive RefusalReason where
  | unknown | notHere | suspended | badAnswer | noAnswer
  deriving DecidableEq, Repr

/-- Why a line port is DISABLED (R47). -/
inductive DisableCause where
  | order | babble
  deriving DecidableEq, Repr

/-- The end of a record at which the watched position stands (R160). -/
inductive TraceRole where
  | source | destination
  deriving DecidableEq, Repr

/-- What a watch captured at its trip (R160). -/
structure TraceRecord where
  connectionId : Nat
  callTag : Word16
  watchedPosition : Nat
  role : TraceRole
  otherEndpoint : Nat
  otherIdentity : Option Nat
  frameNumber : Word32
  releasedSince : Bool
  deriving DecidableEq, Repr

/-- The events the part posts, with the fields of R178. -/
inductive Event where
  | mastership (state : MasteryState) (holder : Option Controller) (cause : MasteryCause)
      (former : Option Controller)
  | restarted (mode : RestartMode)
  | portDisabled (line : Nat) (cause : DisableCause)
  | released (connectionId : Nat) (callTag : Word16) (reason : ReleaseReason)
  | congestion (group : Nat) (congested : Bool) (busy : Nat)
  | syncLocked (connectionId : Nat) (callTag : Word16) (leg key : Nat) (period : Byte)
  | syncLost (connectionId : Nat) (callTag : Word16) (leg key : Nat) (expected received : Byte)
  | admitted (position identity : Nat) (former : Option Nat)
  | withdrawn (position identity : Nat) (reason : ReleaseReason)
  | refused (position identity : Nat) (reason : RefusalReason) (counted : Bool) (failures : Nat)
  | lockedOut (position failures : Nat)
  | stationSignal (position identity : Nat) (bytes : List Byte)
  | link (line : Nat) (up : Bool)
  | traceTripped (watch identity : Nat) (hold : Bool) (trace : TraceRecord)
  deriving DecidableEq, Repr

/-- An out queue entry: a reply with its order code, order tag, outcome and result fields, or an
event (R178). -/
inductive Entry where
  | reply (code tag : Byte) (outcome : OutcomeCode) (fields : List Byte)
  | event (e : Event)
  deriving DecidableEq, Repr

/-- A transfer whose status byte has been sent and whose rest has not come yet: what the status byte
showed, and what has happened since (R3, R5). -/
structure OpenTransfer where
  /-- the status byte showed at least one free order entry and RESTARTING clear (R3) -/
  admits : Bool
  /-- an event bound for this port has been discarded since (R5) -/
  lostSince : Bool
  /-- a restart has begun since (R3) -/
  restartSince : Bool
  /-- the status byte as sent -/
  statusByte : Byte
  deriving DecidableEq, Repr

/-- The state of one order port (R1). `sent` is the model's own: the bytes the part has sent in the
port's last transfer (log entry 5). -/
structure PortState where
  orders : List OrderRecord
  out : List Entry
  mode : PortMode
  missed : Bool
  causes : CauseSet
  transfer : Option OpenTransfer
  sent : List Byte
  deriving DecidableEq, Repr

/-! ### Mastership (R16) -/

/-- The mastership record with the lapse timer, which runs in HELD alone (R17): its time of expiry is
an instant of the time base. -/
inductive Mastership where
  | vacant
  | held (holder : Controller) (expiry : Nat)
  | lapsed (holder : Controller)
  deriving DecidableEq, Repr

/-! ### Extension directory (R30) -/

inductive PrivacyClass where
  | openClass | tieOnly | required
  deriving DecidableEq, Repr

/-- One directory entry (R30). The mask is a byte: group g is the bit of weight 2 to the power g. -/
structure DirectoryEntry where
  identity : Nat
  secret : Word16
  precedence : Option Nat
  privacy : PrivacyClass
  mask : Byte
  homePorts : Option (List Nat)
  suspended : Bool
  deriving DecidableEq, Repr

/-! ### Station admission (R47, R53) -/

inductive LineCondition where
  | enabled
  | disabled (cause : DisableCause)
  deriving DecidableEq, Repr

/-- One line-port record (R47), and the message its channel is sending, as the bytes on the wire
(R57, R179). `lastSecond` is set when the last-served position is 2p + 1. -/
structure LinePort where
  condition : LineCondition
  pairing : Bool
  defaultPrecedence : Nat
  tolerance : Nat
  babbleCount : Nat
  linkUp : Bool
  lastSecond : Bool
  sending : Option (List Byte)
  deriving DecidableEq, Repr

/-- The messages the part sends to a station (R55). -/
inductive StationMessage where
  | challenge (value : Word16)
  | welcome (identity : Nat)
  | refuse (reason : RefusalReason)
  | deliver (bytes : List Byte)
  deriving DecidableEq, Repr

/-- The five states of a station record with their fields (R53). Deadlines are instants of the time
base. -/
inductive StationState where
  | vacant
  | challenged (identity : Nat) (challenge expected : Word16) (deadline : Nat)
  | admitted (identity : Nat)
  | holdOff (deadline : Nat)
  | locked
  deriving DecidableEq, Repr

/-- One station record with its admission-message slot and deliver queue (R53, R55, R56). -/
structure Station where
  state : StationState
  failures : Nat
  slot : Option StationMessage
  deliver : List (List Byte)
  deriving DecidableEq, Repr

/-! ### Switching network (R88) -/

inductive Direction where
  | scramble | descramble
  deriving DecidableEq, Repr

/-- The privacy part of a record (R91). -/
structure PrivacyPart where
  direction : Direction
  key : Nat
  leg : Nat
  deriving DecidableEq, Repr

/-- One connection record (R88). -/
structure Connection where
  id : Nat
  live : Bool
  source : Nat
  destination : Nat
  callTag : Word16
  cls : Nat
  privacy : Option PrivacyPart
  traceHeld : Bool
  deriving DecidableEq, Repr

/-! ### Trunk groups (R110, R113) -/

inductive TrunkMode where
  | outOfService | publicTrunk | tie
  deriving DecidableEq, Repr

structure TrunkSlot where
  mode : TrunkMode
  group : Nat
  deriving DecidableEq, Repr

structure Group where
  quota : Nat
  reserve : Nat
  reserveClass : Nat
  onset : Nat
  abatement : Nat
  busy : Nat
  congested : Bool
  deriving DecidableEq, Repr

/-! ### Call privacy (R127, R133) -/

/-- The seed and the increment of a LOADED key context (R127). -/
structure KeyMaterial where
  seed : Word16
  increment : Word16
  deriving DecidableEq, Repr

/-- One key context: EMPTY when it holds no material, else LOADED (R127). -/
structure KeyContext where
  material : Option KeyMaterial
  confirmCount : Nat
  lossLimit : Nat
  useCount : Nat
  deriving DecidableEq, Repr

/-- One entry of a hunt table (R133): no sample while it is invalid. -/
structure HuntEntry where
  sample : Option Byte
  matchCount : Nat
  deriving DecidableEq, Repr

/-- The state of a held leg with the fields of that state (R133). The direction is SCRAMBLE in
`waitingScramble` and `running`, DESCRAMBLE in the others. -/
inductive LegState where
  | waitingScramble (start : Byte)
  | waitingDescramble
  | running (q j : Byte) (s : Word16)
  | hunt (h : Byte) (table : List HuntEntry)
  | synced (q j : Byte) (s : Word16) (misses : Nat) (last : Byte)
  deriving DecidableEq, Repr

/-- A held leg context (R133); a free one is none. -/
structure Leg where
  key : Nat
  state : LegState
  deriving DecidableEq, Repr

/-! ### Call trace (R160) -/

/-- One watch (R160). -/
inductive Watch where
  | idle
  | armed (identity : Nat) (holdRequest : Bool)
  | tripped (identity : Nat) (holdRequest holdFlag : Bool) (trace : TraceRecord)
  deriving DecidableEq, Repr

/-! ### The whole part -/

/-- The state of the part (R1, R16, R30, R42, R47, R53, R71, R72, R86, R88, R104, R106, R110, R113,
R127, R133, R160, R170), with the model's own fields at the end. -/
structure State where
  portA : PortState
  portB : PortState
  portM : PortState
  lastServed : Port
  mastership : Mastership
  /-- L, in milliseconds (R16) -/
  lapseInterval : Nat
  directory : List DirectoryEntry
  precedenceMap : Vector Nat 8
  lines : Vector LinePort 48
  stations : Vector Station 96
  /-- in milliseconds (R71) -/
  answerWindow : Nat
  /-- in milliseconds (R71) -/
  holdOffTime : Nat
  lockoutCount : Nat
  challengeSequence : Word16
  connections : List Connection
  frameCounter : Word32
  muteCode : Byte
  received : Vector Byte 176
  outgoing : Vector Byte 160
  slots : Vector TrunkSlot 64
  groups : Vector Group 8
  keys : Vector KeyContext 32
  legs : Vector (Option Leg) 64
  watches : Vector Watch 4
  /-- the mode of the restart in progress, none when no restart is in progress (R170) -/
  restart : Option RestartMode
  /-- the instant from which the RESTARTING period is measured (R174) -/
  restartSince : Nat
  /-- the reset pin is asserted (R170) -/
  resetPin : Bool
  /-- MODEL's own: the part's time base, in microseconds (log entry 1) -/
  clock : Nat
  /-- MODEL's own: how many free bytes have been drawn (log entry 9) -/
  freeIndex : Nat
  /-- MODEL's own: the commands that are waiting, first in, first out -/
  pending : List Instr
  deriving DecidableEq, Repr

/-! ### Reset values -/

/-- A port at the start of the cold restart that power-on begins (R1, R175). -/
def PortState.reset : PortState where
  orders := []
  out := []
  mode := .ungated
  missed := false
  causes := { powerOn := true, pin := false, orderCold := false, orderKeep := false }
  transfer := none
  sent := []

/-- R47; the free channel is DESIGN CHOICE (log entry 13). -/
def LinePort.reset : LinePort where
  condition := .disabled .order
  pairing := false
  defaultPrecedence := 0
  tolerance := 0
  babbleCount := 0
  linkUp := false
  lastSecond := true
  sending := none

/-- R53. -/
def Station.reset : Station where
  state := .vacant
  failures := 0
  slot := none
  deliver := []

/-- R110. -/
def TrunkSlot.reset : TrunkSlot where
  mode := .outOfService
  group := 0

/-- R113. -/
def Group.reset : Group where
  quota := 64
  reserve := 0
  reserveClass := 3
  onset := 64
  abatement := 63
  busy := 0
  congested := false

/-- R127. -/
def KeyContext.reset : KeyContext where
  material := none
  confirmCount := 2
  lossLimit := 3
  useCount := 0

/-- The part at the start of the cold restart that power-on begins: every block at its cold values,
RESTARTING, every cause set POWER_ON alone (R170, R173, R175; log entry 4). The values of `outgoing`,
`resetPin`, `clock` and `freeIndex` are DESIGN CHOICE (log entry 13). -/
def State.reset : State where
  portA := PortState.reset
  portB := PortState.reset
  portM := PortState.reset
  lastServed := .m
  mastership := .vacant
  lapseInterval := 512
  directory := []
  precedenceMap := #v[0, 0, 1, 1, 2, 2, 3, 3]
  lines := Vector.replicate 48 LinePort.reset
  stations := Vector.replicate 96 Station.reset
  answerWindow := 256
  holdOffTime := 2048
  lockoutCount := 3
  challengeSequence := 1
  connections := []
  frameCounter := 0
  muteCode := 255
  received := Vector.replicate 176 255
  outgoing := Vector.replicate 160 255
  slots := Vector.replicate 64 TrunkSlot.reset
  groups := Vector.replicate 8 Group.reset
  keys := Vector.replicate 32 KeyContext.reset
  legs := Vector.replicate 64 none
  watches := Vector.replicate 4 .idle
  restart := some .cold
  restartSince := 0
  resetPin := false
  clock := 0
  freeIndex := 0
  pending := []

end Sys2Proof.Machine
end

