-- ==== Sys2Proof/Machine/Flags.lean ====
section
/-! DEFINITION. What the part derives from its state and stores nowhere: the status byte (R2, R177),
the holder field (R29), the attention line (R12), port eligibility (R7), and the hysteresis of a
group's congestion state (R122). -/

namespace Sys2Proof.Machine

/-- The controller of a port; Port M has none (R16). -/
def controllerOf : Port → Option Controller
  | .a => some .a
  | .b => some .b
  | .m => none

/-- The controller a mastership record names (R16). -/
def Mastership.holder : Mastership → Option Controller
  | .vacant => none
  | .held x _ => some x
  | .lapsed x => some x

/-- The state of a mastership record (R16). -/
def Mastership.state : Mastership → MasteryState
  | .vacant => .none
  | .held _ _ => .held
  | .lapsed _ => .lapsed

/-- R2, R29: set for Port X in HELD(X) alone. -/
def holderField (p : Port) (m : Mastership) : Bool :=
  match m with
  | .held x _ => controllerOf p == some x
  | _ => false

/-- The free entries of an order queue (R2). -/
def freeOrderEntries (port : PortState) : Nat := Config.orderQueueSize - port.orders.length

/-- The status byte (R2), packed as R177 gives. -/
def statusByte (p : Port) (port : PortState) (mastership : Mastership) (restarting : Bool) : Byte :=
  byteOf (16 * freeOrderEntries port + (if port.out = [] then 0 else 8)
    + (if port.missed then 4 else 0) + (if restarting then 2 else 0)
    + (if holderField p mastership then 1 else 0))

/-- The attention line of a port (R12). -/
def attentionLine (port : PortState) : Bool :=
  match port.mode with
  | .ungated => !port.out.isEmpty
  | .gated => !port.out.isEmpty && port.orders.isEmpty

/-- A port is eligible while an order is queued and an out-queue entry is free (R7). -/
def eligible (port : PortState) : Bool :=
  !port.orders.isEmpty && decide (port.out.length < Config.outQueueSize)

/-- The order in which the arbiter considers the ports: cyclic, from the port after the last-served
one (R7). -/
def arbiterOrder : Port → List Port
  | .a => [.b, .m, .a]
  | .b => [.m, .a, .b]
  | .m => [.a, .b, .m]

/-- The congestion state after a re-evaluation (R122). -/
def congestionAfter (g : Group) : Bool :=
  if g.congested then decide (g.abatement < g.busy) else decide (g.onset ≤ g.busy)

end Sys2Proof.Machine
end

