-- ==== Sys2Proof/Decode.lean ====
section
/-! DEFINITION. Reading commands from bits. The table of operations and events gives no row any
bits, so no table word spells a command. On two kinds of wire a command is itself a string of bytes,
and these are read and written here: the bytes a processor sends in a transfer (R2, R177), and the
frames of a line port's message channel (R54, R179). -/

namespace Sys2Proof

/-- The command a table word spells: none, since no row of the table gives bits. -/
def decodeTableWord (_nbits _w : Nat) : Option Instr := none

/-! ### Transfers (R2, R177) -/

/-- The transfer that the bytes a processor sends on a port stand for: the transfer-kind byte is 0x01
for ORDER, 0x02 for FETCH and 0x03 for STATUS, and an order record follows the first (R177). Any other
kind, or the end of the transfer before the kind, is a transfer of unknown kind (R2). The part takes
nothing from the bytes after another kind. -/
def decodeTransfer (port : Port) (received : List Byte) : Instr :=
  match received with
  | [] => .unknownTransferKind port none
  | kind :: record =>
    if kind = 0x01 then .orderTransfer port .completing record
    else if kind = 0x02 then .fetchTransfer port .completing
    else if kind = 0x03 then .statusTransfer port .completing
    else .unknownTransferKind port (some kind)

/-- The port and the bytes that bring a transfer (R177); none for the other commands, and none for the
opening of a transfer, which has received nothing yet. -/
def encodeTransfer (i : Instr) : Option (Port × List Byte) :=
  match i with
  | .orderTransfer port .completing record => some (port, 0x01 :: record)
  | .fetchTransfer port .completing => some (port, [0x02])
  | .statusTransfer port .completing => some (port, [0x03])
  | .unknownTransferKind port kind => some (port, kind.toList)
  | _ => none

/-! ### The frames of a line port's channel (R54, R179) -/

/-- Two bytes, most significant first (00 section 5.2). -/
def word16OfBytes (hi lo : Byte) : Word16 := hi ++ lo

/-- The two bytes of a 16-bit quantity, most significant first (00 section 5.2). -/
def bytesOfWord16 (w : Word16) : List Byte := [w.extractLsb' 8 8, w.extractLsb' 0 8]

/-- The position a message comes from: 2p for set byte 0, 2p + 1 for set byte 1 (R179). -/
def positionOf (line : Fin 48) (second : Bool) : Fin 96 :=
  if second then ⟨2 * line.val + 1, by omega⟩ else ⟨2 * line.val, by omega⟩

/-- The line port that carries a position (00 section 5.4). -/
def lineOf (position : Fin 96) : Fin 48 := ⟨position.val / 2, by omega⟩

/-- The set byte of a position (R179). -/
def setByteOf (position : Fin 96) : Byte := byteOf (position.val % 2)

/-- Which of the two sets a set byte names, none for a bad set byte (R179). -/
def secondOfSetByte (b : Byte) : Option Bool :=
  if b = 0 then some false else if b = 1 then some true else none

/-- The fit message of a type with its parameters, none when the type is none of the four or the
length does not fit the type (R54 step 4). -/
def fitMessage (position : Fin 96) (type : Byte) (params : List Byte) : Option Instr :=
  if type = 0x01 then
    match params with
    | [hi, lo] => some (.register position (word16OfBytes hi lo))
    | _ => none
  else if type = 0x02 then
    match params with
    | [hi, lo] => some (.answer position (word16OfBytes hi lo))
    | _ => none
  else if type = 0x03 then
    if params = [] then some (.leave position) else none
  else if type = 0x04 then
    if 1 ≤ params.length ∧ params.length ≤ 8 then some (.signal position params) else none
  else none

/-- The command a frame on a line port's message channel stands for: set byte, type byte, length
byte, parameters (R179). A frame that is no fit message is an unfit station message (R54). -/
def decodeStationFrame (line : Fin 48) (frame : List Byte) : Instr :=
  match frame with
  | setByte :: type :: length :: params =>
    match secondOfSetByte setByte with
    | some second =>
      if length.toNat = params.length then
        (fitMessage (positionOf line second) type params).getD (.unfitStationMessage line frame)
      else .unfitStationMessage line frame
    | none => .unfitStationMessage line frame
  | _ => .unfitStationMessage line frame

/-- The line port and the frame that bring a station message (R179); none for the other commands. -/
def encodeStationFrame (i : Instr) : Option (Fin 48 × List Byte) :=
  match i with
  | .register position identity =>
    some (lineOf position, setByteOf position :: 0x01 :: 0x02 :: bytesOfWord16 identity)
  | .answer position response =>
    some (lineOf position, setByteOf position :: 0x02 :: 0x02 :: bytesOfWord16 response)
  | .leave position => some (lineOf position, [setByteOf position, 0x03, 0x00])
  | .signal position bytes =>
    some (lineOf position, setByteOf position :: 0x04 :: byteOf bytes.length :: bytes)
  | .unfitStationMessage line message => some (line, message)
  | _ => none

end Sys2Proof
end

