-- ==== Sys2Proof/Machine/Formats.lean ====
section
/-! DEFINITION. Record Formats: the codes of R176, the out-queue entries of R178 and the messages to
stations of R179, as bytes. The status byte of R177 is in Flags. -/

namespace Sys2Proof.Machine

/-! ### Fields (R176) -/

/-- A two-byte number, most significant byte first. -/
def bytes2 (n : Nat) : List Byte := [byteOf (n / 256), byteOf n]

/-- A four-byte number, most significant byte first. -/
def bytes4 (w : Word32) : List Byte :=
  [w.extractLsb' 24 8, w.extractLsb' 16 8, w.extractLsb' 8 8, w.extractLsb' 0 8]

/-- A yes-or-no field: 0 for no, 1 for yes. -/
def yesNo (b : Bool) : Byte := if b then 1 else 0

/-- An optional one-byte field, 0xFF when absent. -/
def optionalByte (n : Option Nat) : Byte :=
  match n with
  | some v => byteOf v
  | none => 0xFF

/-- An optional identity, 0 when absent. -/
def optionalIdentity (n : Option Nat) : List Byte := bytes2 (n.getD 0)

def portModeCode : PortMode → Byte
  | .ungated => 0
  | .gated => 1

def masteryStateCode : MasteryState → Byte
  | .none => 0
  | .held => 1
  | .lapsed => 2

/-- The controller code; 0 for no controller. -/
def controllerCode : Option Controller → Byte
  | none => 0
  | some .a => 1
  | some .b => 2

def masteryCauseCode : MasteryCause → Byte
  | .claimed => 1
  | .takeover => 2
  | .recovered => 3
  | .yielded => 4
  | .assigned => 5
  | .lapsed => 6

def privacyClassCode : PrivacyClass → Byte
  | .openClass => 0
  | .tieOnly => 1
  | .required => 2

def entryStatusCode (suspended : Bool) : Byte := if suspended then 1 else 0

def lineStateCode : LineCondition → Byte
  | .disabled _ => 0
  | .enabled => 1

def disableCauseCode : DisableCause → Byte
  | .order => 0
  | .babble => 1

/-- The cause of a DISABLED port, absent for an ENABLED one. -/
def lineCauseCode : LineCondition → Byte
  | .disabled cause => disableCauseCode cause
  | .enabled => 0xFF

def trunkModeCode : TrunkMode → Byte
  | .outOfService => 0
  | .publicTrunk => 1
  | .tie => 2

def releaseReasonCode : ReleaseReason → Byte
  | .left => 1
  | .linkLost => 2
  | .reregister => 3
  | .relocated => 4
  | .withdrawn => 5
  | .removed => 6
  | .suspended => 7
  | .classChange => 8
  | .portDisabled => 9
  | .babble => 10
  | .preempted => 11

def refusalReasonCode : RefusalReason → Byte
  | .unknown => 1
  | .notHere => 2
  | .suspended => 3
  | .badAnswer => 4
  | .noAnswer => 5

def restartModeCode : RestartMode → Byte
  | .cold => 0
  | .keep => 1

def traceRoleCode : TraceRole → Byte
  | .source => 0
  | .destination => 1

def stationStateCode : StationState → Byte
  | .vacant => 0
  | .challenged .. => 1
  | .admitted _ => 2
  | .holdOff _ => 3
  | .locked => 4

/-- PENDING or LIVE. -/
def connectionStateCode (live : Bool) : Byte := if live then 1 else 0

def legStateCode : LegState → Byte
  | .waitingScramble _ => 0
  | .waitingDescramble => 0
  | .running .. => 1
  | .hunt .. => 2
  | .synced .. => 3

def directionCode : Direction → Byte
  | .scramble => 0
  | .descramble => 1

/-- EMPTY or LOADED. -/
def keyStateCode (material : Option KeyMaterial) : Byte := if material.isSome then 1 else 0

def watchStateCode : Watch → Byte
  | .idle => 0
  | .armed .. => 1
  | .tripped .. => 2

/-- The restart cause set byte: POWER_ON weighs 1, PIN 2, ORDER_COLD 4, ORDER_KEEP 8. -/
def causeSetByte (c : CauseSet) : Byte :=
  yesNo c.powerOn + 2 * yesNo c.pin + 4 * yesNo c.orderCold + 8 * yesNo c.orderKeep

/-- The outcome codes, numbered in the order of R14. -/
def outcomeByte : OutcomeCode → Byte
  | .done => 0x00
  | .badOrder => 0x01
  | .notAllowed => 0x02
  | .notHolder => 0x03
  | .lapsed => 0x04
  | .held => 0x05
  | .range => 0x06
  | .alreadyExists => 0x07
  | .noEntry => 0x08
  | .full => 0x09
  | .inUse => 0x0A
  | .destBusy => 0x0B
  | .notAdmitted => 0x0C
  | .trunkOut => 0x0D
  | .barred => 0x0E
  | .privacy => 0x0F
  | .keyState => 0x10
  | .noLeg => 0x11
  | .groupFull => 0x12
  | .groupReserved => 0x13
  | .congested => 0x14
  | .traceHold => 0x15
  | .lineBusy => 0x16

/-! ### Out-queue entries (R178) -/

/-- The event code of an entry. -/
def eventCode : Event → Byte
  | .mastership .. => 0x80
  | .restarted _ => 0x81
  | .portDisabled .. => 0x82
  | .released .. => 0x88
  | .congestion .. => 0x89
  | .syncLocked .. => 0x8A
  | .syncLost .. => 0x8B
  | .admitted .. => 0x90
  | .withdrawn .. => 0x91
  | .refused .. => 0x92
  | .lockedOut .. => 0x93
  | .stationSignal .. => 0x94
  | .link .. => 0x95
  | .traceTripped .. => 0x98

/-- The body of an event entry. -/
def eventBody : Event → List Byte
  | .mastership state holder cause former =>
    [masteryStateCode state, controllerCode holder, masteryCauseCode cause, controllerCode former]
  | .restarted mode => [restartModeCode mode]
  | .portDisabled line cause => [byteOf line, disableCauseCode cause]
  | .released id tag reason => byteOf id :: bytesOfWord16 tag ++ [releaseReasonCode reason]
  | .congestion group congested busy => [byteOf group, yesNo congested, byteOf busy]
  | .syncLocked id tag leg key period =>
    byteOf id :: bytesOfWord16 tag ++ [byteOf leg, byteOf key, period]
  | .syncLost id tag leg key expected received =>
    byteOf id :: bytesOfWord16 tag ++ [byteOf leg, byteOf key, expected, received]
  | .admitted position identity former =>
    byteOf position :: bytes2 identity ++ [optionalByte former]
  | .withdrawn position identity reason =>
    byteOf position :: bytes2 identity ++ [releaseReasonCode reason]
  | .refused position identity reason counted failures =>
    byteOf position :: bytes2 identity
      ++ [refusalReasonCode reason, yesNo counted, byteOf failures]
  | .lockedOut position failures => [byteOf position, byteOf failures]
  | .stationSignal position identity bytes => byteOf position :: bytes2 identity ++ bytes
  | .link line up => [byteOf line, yesNo up]
  | .traceTripped watch identity hold trace =>
    byteOf watch :: bytes2 identity
      ++ yesNo hold :: byteOf trace.connectionId :: bytesOfWord16 trace.callTag
      ++ [byteOf trace.watchedPosition, traceRoleCode trace.role, byteOf trace.otherEndpoint]
      ++ optionalIdentity trace.otherIdentity ++ bytes4 trace.frameNumber

/-- An entry as FETCH returns it: entry kind, body length, body (R178). -/
def entryBytes : Entry → List Byte
  | .reply code tag outcome fields =>
    0x01 :: byteOf (3 + fields.length) :: code :: tag :: outcomeByte outcome :: fields
  | .event e => eventCode e :: byteOf (eventBody e).length :: eventBody e

/-- The EMPTY entry (R4, R178). -/
def emptyEntryBytes : List Byte := [0x00, 0x00]

/-! ### Messages to stations (R179) -/

def stationMessageType : StationMessage → Byte
  | .challenge _ => 0x11
  | .welcome _ => 0x12
  | .refuse _ => 0x13
  | .deliver _ => 0x14

def stationMessageParameters : StationMessage → List Byte
  | .challenge value => bytesOfWord16 value
  | .welcome identity => bytes2 identity
  | .refuse reason => [refusalReasonCode reason]
  | .deliver bytes => bytes

/-- A message as it is sent on the channel: set byte, type byte, length byte, parameters. -/
def stationMessageBytes (second : Bool) (message : StationMessage) : List Byte :=
  yesNo second :: stationMessageType message
    :: byteOf (stationMessageParameters message).length :: stationMessageParameters message

end Sys2Proof.Machine
end

