-- ==== Sys2Proof/Machine/Keystream.lean ====
section
/-! DEFINITION. Keystream Arithmetic (R74 to R84): the generator step, the keystream byte, the
period seed, scrambling, the expected response and the challenge sequence. 16-bit and 8-bit
arithmetic wraps as the rules' reductions modulo 65536 and 256 do. -/

namespace Sys2Proof.Machine

/-- R74: s' = (5 s + c) mod 65536. -/
def generatorStep (c s : Word16) : Word16 := 5 * s + c

/-- R75: the upper eight bits of the state. -/
def keystreamByte (s : Word16) : Byte := s.extractLsb' 8 8

/-- R76: an even value has 1 added to it. -/
def forceOdd (c : Word16) : Word16 := if c.getLsbD 0 then c else c + 1

/-- R77: (seed + 257 q) mod 65536. -/
def periodSeed (seed : Word16) (q : Byte) : Word16 := seed + 257 * q.setWidth 16

/-- R80. -/
def scramble (x k : Byte) : Byte := x + k

/-- R81. -/
def unscramble (y k : Byte) : Byte := y - k

/-- R79: the period position after this frame. -/
def nextPosition (j : Byte) : Byte := j + 1

/-- R79: the period number after the frame at position j. -/
def nextPeriod (q j : Byte) : Byte := if j = 255 then q + 1 else q

/-- R82: four generator steps from the secret, with the challenge value as increment. -/
def expectedResponse (secret challenge : Word16) : Word16 :=
  generatorStep challenge (generatorStep challenge
    (generatorStep challenge (generatorStep challenge secret)))

/-- R83: the advance of the challenge sequence state. -/
def nextChallengeState (u : Word16) : Word16 := generatorStep 13849 u

/-- R83: the challenge value sent for a new sequence state: the state, made odd. -/
def challengeValue (u : Word16) : Word16 := forceOdd u

end Sys2Proof.Machine
end

