-- ==== Sys2Proof/Machine/Operands.lean ====
section
/-! DEFINITION. Reading an order: the order record as received (R3), the table of codes and
parameter lengths (R177), and the parameter fields of an order at their widths (R176). -/

namespace Sys2Proof.Machine

/-! ### The order record (R3) -/

/-- The order record a complete ORDER transfer brings: order code, order tag, parameter length and
that number of parameter bytes; none when the transfer ended before the record was complete. At most
32 parameter bytes are kept. Bytes after the record are disregarded (log entry 6). -/
def orderRecordOf (received : List Byte) : Option OrderRecord :=
  match received with
  | code :: tag :: length :: params =>
    if length.toNat ≤ params.length then
      some { code := code, tag := tag
             params := params.take (min length.toNat Config.keptParameters)
             overLength := decide (Config.keptParameters < length.toNat) }
    else none
  | _ => none

/-! ### Codes and lengths (R177) -/

/-- The least and the greatest parameter length of each order code; none for a code absent from the
table. -/
def orderLengths (code : Byte) : Option (Nat × Nat) :=
  match code.toNat with
  | 0x01 => some (0, 0) -- CLAIM
  | 0x02 => some (0, 0) -- PULSE
  | 0x03 => some (0, 0) -- YIELD
  | 0x04 => some (1, 1) -- ASSIGN
  | 0x05 => some (2, 2) -- SET LAPSE
  | 0x06 => some (0, 0) -- LOOK MASTERSHIP
  | 0x10 => some (9, 13) -- ENTER
  | 0x11 => some (2, 2) -- REMOVE
  | 0x12 => some (4, 4) -- SET SECRET
  | 0x13 => some (9, 13) -- AMEND
  | 0x14 => some (2, 2) -- SUSPEND
  | 0x15 => some (2, 2) -- RESUME
  | 0x16 => some (2, 2) -- LOOK ENTRY
  | 0x17 => some (2, 2) -- LOOK NEXT ENTRY
  | 0x18 => some (8, 8) -- SET PRECEDENCE MAP
  | 0x19 => some (0, 0) -- LOOK PRECEDENCE MAP
  | 0x20 => some (5, 5) -- SET PORT
  | 0x21 => some (1, 1) -- LOOK PORT
  | 0x22 => some (1, 1) -- WITHDRAW
  | 0x23 => some (2, 9) -- DELIVER
  | 0x24 => some (1, 1) -- RELEASE LOCKOUT
  | 0x25 => some (1, 1) -- LOOK STATION
  | 0x26 => some (5, 5) -- SET ADMISSION TIMES
  | 0x27 => some (0, 0) -- LOOK ADMISSION TIMES
  | 0x28 => some (2, 2) -- SEED CHALLENGE
  | 0x30 => some (9, 9) -- CONNECT
  | 0x31 => some (3, 3) -- RELEASE
  | 0x32 => some (1, 1) -- SET MUTE CODE
  | 0x33 => some (1, 1) -- LOOK CONNECTION
  | 0x34 => some (4, 4) -- LOOK NEXT CONNECTION
  | 0x35 => some (1, 1) -- LOOK ENDPOINT
  | 0x36 => some (0, 0) -- LOOK NETWORK
  | 0x40 => some (3, 3) -- SET TRUNK
  | 0x41 => some (6, 6) -- SET GROUP
  | 0x42 => some (1, 1) -- LOOK TRUNK
  | 0x43 => some (1, 1) -- LOOK GROUP
  | 0x50 => some (8, 8) -- LOAD KEY
  | 0x51 => some (1, 1) -- ERASE KEY
  | 0x52 => some (1, 1) -- LOOK KEY
  | 0x53 => some (1, 1) -- RESYNC
  | 0x54 => some (1, 1) -- LOOK LEG
  | 0x60 => some (3, 3) -- ARM WATCH
  | 0x61 => some (1, 1) -- DISARM WATCH
  | 0x62 => some (1, 1) -- CLEAR TRACE
  | 0x63 => some (1, 1) -- RELEASE HOLD
  | 0x64 => some (1, 1) -- LOOK WATCH
  | 0x70 => some (0, 0) -- RESTART COLD
  | 0x71 => some (0, 0) -- RESTART KEEP
  | 0x72 => some (0, 0) -- READ CAUSES
  | 0x73 => some (1, 1) -- SET PORT MODE
  | _ => none

/-- The parameter length fits the order, and the entry is not over-length (R8 check 1). -/
def lengthFits (o : OrderRecord) : Bool :=
  match orderLengths o.code with
  | some (least, greatest) =>
    !o.overLength && decide (least ≤ o.params.length) && decide (o.params.length ≤ greatest)
  | none => false

/-! ### Parameter fields (R176) -/

/-- The parameter byte at an index. -/
def paramByte (params : List Byte) (i : Nat) : Byte := params.getD i 0

/-- The one-byte number at an index. -/
def param1 (params : List Byte) (i : Nat) : Nat := (paramByte params i).toNat

/-- The 16-bit word at an index, most significant byte first. -/
def paramWord (params : List Byte) (i : Nat) : Word16 :=
  word16OfBytes (paramByte params i) (paramByte params (i + 1))

/-- The two-byte number at an index. -/
def param2 (params : List Byte) (i : Nat) : Nat := (paramWord params i).toNat

/-- The nearest end of a legal range (R15). -/
def clampTo (least greatest value : Nat) : Nat := max least (min value greatest)

def identityInRange (identity : Nat) : Bool := decide (1 ≤ identity) && decide (identity ≤ 9999)

def privacyClassOf (b : Byte) : Option PrivacyClass :=
  match b.toNat with
  | 0 => some .openClass
  | 1 => some .tieOnly
  | 2 => some .required
  | _ => none

def trunkModeOf (b : Byte) : Option TrunkMode :=
  match b.toNat with
  | 0 => some .outOfService
  | 1 => some .publicTrunk
  | 2 => some .tie
  | _ => none

def portModeOf (b : Byte) : Option PortMode :=
  match b.toNat with
  | 0 => some .ungated
  | 1 => some .gated
  | _ => none

/-- The target of ASSIGN: a controller or none (R21); no target for any other code. -/
def assignTargetOf (b : Byte) : Option (Option Controller) :=
  match b.toNat with
  | 0 => some none
  | 1 => some (some .a)
  | 2 => some (some .b)
  | _ => none

/-- A code of a two-valued set: 0 or 1 (R176). -/
def isFlag (b : Byte) : Bool := b == 0 || b == 1

/-- A flag code read as a truth value. -/
def flagSet (b : Byte) : Bool := b == 1

/-- A marker of AMEND that can also be CLEAR (R37, R176). -/
def isAmendMarker (b : Byte) : Bool := b == 0 || b == 1 || b == 2

/-- The group g is in a trunk group mask: the bit of weight 2 to the power g (R176). -/
def inMask (mask : Byte) (group : Nat) : Bool := mask.getLsbD group

/-- Insert a line port number into an ascending list without repeats (R32). -/
def insertHomePort (n : Nat) : List Nat → List Nat
  | [] => [n]
  | m :: rest =>
    if n < m then n :: m :: rest
    else if n = m then m :: rest
    else m :: insertHomePort n rest

/-- The stored form of a home-ports list: ascending, each number once; absent when the order carries
none (R32, R177). -/
def homePortsOf (numbers : List Nat) : Option (List Nat) :=
  if numbers = [] then none else some (numbers.foldr insertHomePort [])

end Sys2Proof.Machine
end

