-- ==== Sys2Proof/Machine/Ops.lean ====
section
/-! DEFINITION. The named operations over the state that the meanings share: reading and writing one
record of a block, posting events (R10, R11), appending entries, the work of one event of the part
and the events it raises, the time base, and the looks at the tables that several blocks take. -/

namespace Sys2Proof.Machine

/-! ### Reading and writing one record -/

def State.port (s : State) : Port → PortState
  | .a => s.portA
  | .b => s.portB
  | .m => s.portM

def State.setPort (s : State) (p : Port) (v : PortState) : State :=
  match p with
  | .a => { s with portA := v }
  | .b => { s with portB := v }
  | .m => { s with portM := v }

def State.line (s : State) (n : Nat) : LinePort := (s.lines[n]?).getD LinePort.reset

def State.setLine (s : State) (n : Nat) (v : LinePort) : State :=
  { s with lines := s.lines.setIfInBounds n v }

def State.station (s : State) (n : Nat) : Station := (s.stations[n]?).getD Station.reset

def State.setStation (s : State) (n : Nat) (v : Station) : State :=
  { s with stations := s.stations.setIfInBounds n v }

def State.slot (s : State) (n : Nat) : TrunkSlot := (s.slots[n]?).getD TrunkSlot.reset

def State.setSlot (s : State) (n : Nat) (v : TrunkSlot) : State :=
  { s with slots := s.slots.setIfInBounds n v }

def State.group (s : State) (n : Nat) : Group := (s.groups[n]?).getD Group.reset

def State.setGroup (s : State) (n : Nat) (v : Group) : State :=
  { s with groups := s.groups.setIfInBounds n v }

def State.key (s : State) (n : Nat) : KeyContext := (s.keys[n]?).getD KeyContext.reset

def State.setKey (s : State) (n : Nat) (v : KeyContext) : State :=
  { s with keys := s.keys.setIfInBounds n v }

def State.leg (s : State) (n : Nat) : Option Leg := (s.legs[n]?).getD none

def State.setLeg (s : State) (n : Nat) (v : Option Leg) : State :=
  { s with legs := s.legs.setIfInBounds n v }

def State.watch (s : State) (n : Nat) : Watch := (s.watches[n]?).getD .idle

def State.setWatch (s : State) (n : Nat) (v : Watch) : State :=
  { s with watches := s.watches.setIfInBounds n v }

def State.receivedSample (s : State) (e : Nat) : Byte := (s.received[e]?).getD s.muteCode

def State.outgoingSample (s : State) (e : Nat) : Byte := (s.outgoing[e]?).getD s.muteCode

def State.setOutgoing (s : State) (e : Nat) (v : Byte) : State :=
  { s with outgoing := s.outgoing.setIfInBounds e v }

/-- The class the precedence map gives (R42). -/
def State.classOf (s : State) (precedence : Nat) : Nat := (s.precedenceMap[precedence]?).getD 0

/-- A restart is in progress (R2, R170). -/
def State.restarting (s : State) : Bool := s.restart.isSome

/-! ### Time (00 section 5.2; log entry 1) -/

/-- The instant that lies the given number of milliseconds after now. -/
def State.after (s : State) (milliseconds : Nat) : Nat := s.clock + 1000 * milliseconds

/-- The time that remains until an instant, in whole milliseconds rounded down (R24, R73). -/
def State.remaining (s : State) (instant : Nat) : Nat := (instant - s.clock) / 1000

/-- What an idle step does: the time base moves on, but a measured RESTARTING period does not last
longer than 4 ms (R174; log entries 1 and 15). -/
def State.idle (s : State) : State :=
  if s.restarting && !s.resetPin
      && decide (s.restartSince + Config.longestRestart < s.clock + Config.idleMicroseconds) then s
  else { s with clock := s.clock + Config.idleMicroseconds }

/-! ### Free bytes (log entry 9) -/

/-- The next `n` free bytes. -/
def State.freeBytes (s : State) (n : Nat) : List Byte :=
  (List.range n).map fun i => Config.freeByte (s.freeIndex + i)

/-- The state after `n` free bytes have been drawn. -/
def State.drawn (s : State) (n : Nat) : State := { s with freeIndex := s.freeIndex + n }

/-! ### Out queues and events (R10, R11) -/

/-- Append an entry at the tail of a port's out queue. -/
def State.append (s : State) (p : Port) (entry : Entry) : State :=
  s.setPort p { s.port p with out := (s.port p).out ++ [entry] }

/-- An event bound for a port is discarded for that port: its missed-events flag is set (R11), and a
transfer in progress on the port learns of the loss (R5). -/
def State.loseEvent (s : State) (p : Port) : State :=
  s.setPort p { s.port p with
    missed := true
    transfer := (s.port p).transfer.map fun t => { t with lostSince := true } }

/-- Post an event to one port: appended when no restart is in progress and the queue has a free entry,
else discarded (R10, R11). -/
def State.postTo (s : State) (e : Event) (p : Port) : State :=
  if s.restarting || decide (Config.outQueueSize ≤ (s.port p).out.length) then s.loseEvent p
  else s.append p (.event e)

/-- The ports an event is posted to (R10). -/
def destinations : Event → List Port
  | .mastership .. | .portDisabled .. | .restarted _ | .lockedOut .. => [.a, .b, .m]
  | .traceTripped .. => [.m]
  | .released .. | .congestion .. | .syncLocked .. | .syncLost .. | .admitted .. | .withdrawn ..
  | .refused .. | .stationSignal .. | .link .. => [.a, .b]

/-- Post an event to each of its ports (R10; log entry 18). -/
def State.post (s : State) (e : Event) : State := (destinations e).foldl (fun t p => t.postTo e p) s

/-- Post events in the order they were raised (R10). -/
def State.postAll (s : State) (events : List Event) : State := events.foldl State.post s

/-! ### The work of one event of the part -/

/-- What one event of the part has done so far: the state, and the events raised, in order. They are
posted when the work is done, after the reply where there is one (R8). -/
structure Work where
  state : State
  events : List Event
  deriving DecidableEq, Repr

/-- Work that has raised nothing yet. -/
def Work.start (s : State) : Work := { state := s, events := [] }

/-- Raise an event. -/
def Work.raise (w : Work) (e : Event) : Work := { w with events := w.events ++ [e] }

/-- Change the state. -/
def Work.update (w : Work) (f : State → State) : Work := { w with state := f w.state }

/-- The work is done: its events are posted. -/
def Work.finish (w : Work) : State := w.state.postAll w.events

/-! ### Endpoints (00 section 5.4) -/

def isStation (e : Nat) : Bool := decide (e < 96)

def isTrunk (e : Nat) : Bool := decide (96 ≤ e) && decide (e < 160)

def isService (e : Nat) : Bool := decide (160 ≤ e)

/-- The trunk slot number of a trunk endpoint. -/
def slotOf (e : Nat) : Nat := e - 96

/-- The endpoint of a trunk slot (R110). -/
def endpointOfSlot (n : Nat) : Nat := 96 + n

/-- The endpoint is a trunk slot in TIE mode. -/
def State.isTie (s : State) (e : Nat) : Bool := isTrunk e && (s.slot (slotOf e)).mode == .tie

/-- The endpoint is a trunk slot in PUBLIC mode. -/
def State.isPublic (s : State) (e : Nat) : Bool :=
  isTrunk e && (s.slot (slotOf e)).mode == .publicTrunk

/-! ### The connection table (R88) -/

/-- The record names the endpoint as source or destination. -/
def Connection.names (c : Connection) (e : Nat) : Bool := c.source == e || c.destination == e

/-- The record of an id (R88). -/
def State.connection (s : State) (id : Nat) : Option Connection :=
  s.connections.find? fun c => c.id == id

/-- Some record names the endpoint: for a trunk slot, it is busy (R116). -/
def State.named (s : State) (e : Nat) : Bool := s.connections.any fun c => c.names e

/-- The record that feeds a destination (R93). -/
def State.feeder (s : State) (e : Nat) : Option Connection :=
  s.connections.find? fun c => c.destination == e

/-- The lowest id that no record holds (R88). -/
def State.lowestFreeId (s : State) : Option Nat :=
  (List.range Config.tableSize).find? fun n => s.connections.all fun c => c.id != n

/-- Insert a record into a table kept in ascending id. -/
def insertConnection (c : Connection) : List Connection → List Connection
  | [] => [c]
  | d :: rest => if c.id < d.id then c :: d :: rest else d :: insertConnection c rest

/-- Change the record of an id. -/
def State.mapConnection (s : State) (id : Nat) (f : Connection → Connection) : State :=
  { s with connections := s.connections.map fun c => if c.id == id then f c else c }

/-- Take the record of an id out of the table. -/
def State.dropConnection (s : State) (id : Nat) : State :=
  { s with connections := s.connections.filter fun c => c.id != id }

/-- The number of records (R107). -/
def State.recordCount (s : State) : Nat := s.connections.length

/-- The number of records that are PENDING (R107). -/
def State.pendingCount (s : State) : Nat := s.connections.countP fun c => !c.live

/-- The number of records with a privacy part (R107). -/
def State.privacyCount (s : State) : Nat := s.connections.countP fun c => c.privacy.isSome

/-! ### The extension directory (R30) -/

/-- The entry of an identity. -/
def State.entry (s : State) (identity : Nat) : Option DirectoryEntry :=
  s.directory.find? fun e => e.identity == identity

/-- Insert an entry at its place in the ascending order (R32). -/
def insertEntry (e : DirectoryEntry) : List DirectoryEntry → List DirectoryEntry
  | [] => [e]
  | d :: rest => if e.identity < d.identity then e :: d :: rest else d :: insertEntry e rest

/-- Change the entry of an identity. -/
def State.mapEntry (s : State) (identity : Nat) (f : DirectoryEntry → DirectoryEntry) : State :=
  { s with directory := s.directory.map fun e => if e.identity == identity then f e else e }

/-- Take the entry of an identity out of the directory (R33). -/
def State.dropEntry (s : State) (identity : Nat) : State :=
  { s with directory := s.directory.filter fun e => e.identity != identity }

/-- The line port is a home port of the entry (R30). -/
def DirectoryEntry.admitsLine (e : DirectoryEntry) (line : Nat) : Bool :=
  match e.homePorts with
  | none => true
  | some ports => ports.contains line

/-! ### Stations (R53) -/

/-- The line port that carries a position (00 section 5.4). -/
def linePortOf (position : Nat) : Nat := position / 2

/-- The identity a station state is ADMITTED with. -/
def StationState.admittedIdentity : StationState → Option Nat
  | .admitted identity => some identity
  | _ => none

/-- The identity a station state is CHALLENGED with. -/
def StationState.challengedIdentity : StationState → Option Nat
  | .challenged identity _ _ _ => some identity
  | _ => none

/-- The identity of the station ADMITTED at a position; none for another endpoint or state. -/
def State.identityAt (s : State) (e : Nat) : Option Nat :=
  if isStation e then (s.station e).state.admittedIdentity else none

/-- R30: the station position ADMITTED with an identity, absent when there is none. -/
def State.admittedAt (s : State) (identity : Nat) : Option Nat :=
  (List.range 96).find? fun n => (s.station n).state.admittedIdentity == some identity

/-- R42: the effective class of the station ADMITTED at a position. -/
def State.effectiveClass (s : State) (position : Nat) : Nat :=
  s.classOf (((s.identityAt position).bind fun i => (s.entry i).bind (·.precedence)).getD
    (s.line (linePortOf position)).defaultPrecedence)

/-- Give a station record a new state. -/
def State.setStationState (s : State) (n : Nat) (state : StationState) : State :=
  s.setStation n { s.station n with state := state }

/-- R55: an admission message raised for a position is placed in its slot, in place of any message
there; it is discarded, and the slot left empty, when the port's link is DOWN or the port is
DISABLED. -/
def State.placeMessage (s : State) (position : Nat) (message : StationMessage) : State :=
  s.setStation position { s.station position with
    slot :=
      if (s.line (linePortOf position)).linkUp
          && (s.line (linePortOf position)).condition == .enabled
      then some message else none }

/-! ### Mastership (R16, R25) -/

/-- Start or restart the lapse timer in HELD(X) (R17). -/
def State.holdMastership (s : State) (x : Controller) : State :=
  { s with mastership := .held x (s.after s.lapseInterval) }

/-- The MASTERSHIP event of a change to the present record from a former one (R25). -/
def State.mastershipEvent (s : State) (cause : MasteryCause) (former : Option Controller) : Event :=
  .mastership s.mastership.state s.mastership.holder cause former

end Sys2Proof.Machine
end

