-- ==== Sys2Proof/Machine/Release.lean ====
section
/-! DEFINITION. What several commands share: congestion re-evaluation and busy counting (R116, R122,
R151), the trace hold (R163), the release procedure (R148 to R153), the selections of releases (R154
to R156), withdrawal (R67), clearing of positions (R49 to R51), abandonment (R65) and the counted
failure (R59). -/

namespace Sys2Proof.Machine

/-! ### Trunk groups -/

/-- R122, R123: the congestion state of a group is re-evaluated, and a transition raises
CONGESTION. -/
def Work.reevaluate (w : Work) (g : Nat) : Work :=
  let group := w.state.group g
  let now := congestionAfter group
  if now = group.congested then w
  else (w.update fun s => s.setGroup g { group with congested := now }).raise
    (.congestion g now group.busy)

/-- The busy count of a group changes and its congestion state is re-evaluated (R116). -/
def Work.recount (w : Work) (g : Nat) (f : Nat → Nat) : Work :=
  (w.update fun s => s.setGroup g { s.group g with busy := f (s.group g).busy }).reevaluate g

/-- R151, for one endpoint of a removed record: a trunk slot that no record now names leaves its
group's busy count. -/
def Work.leaveSlot (w : Work) (e : Nat) : Work :=
  if isTrunk e && !w.state.named e then
    w.recount (w.state.slot (slotOf e)).group (· - 1)
  else w

/-! ### The trace hold -/

/-- Some TRIPPED watch whose trace record names the record has its hold flag set (R163). -/
def State.heldByWatch (s : State) (id : Nat) : Bool :=
  s.watches.toList.any fun
    | .tripped _ _ true t => t.connectionId == id
    | _ => false

/-- R163: the hold flag of a watch is cleared; the record its trace record names stays trace-held only
while another watch holds it. -/
def State.clearHold (s : State) (n : Nat) : State :=
  match s.watch n with
  | .tripped identity request true trace =>
    let t := s.setWatch n (.tripped identity request false trace)
    t.mapConnection trace.connectionId fun c =>
      { c with traceHeld := t.heldByWatch trace.connectionId }
  | _ => s

/-- R152, for one watch: a trace record that names the released record and is not marked yet is marked
released-since, and the hold flag is cleared. -/
def Watch.connectionReleased (id : Nat) : Watch → Watch
  | .tripped identity request hold trace =>
    if trace.connectionId = id ∧ trace.releasedSince = false then
      .tripped identity request false { trace with releasedSince := true }
    else .tripped identity request hold trace
  | w => w

/-- R152: step 4 of the release procedure. -/
def State.endTrace (s : State) (id : Nat) : State :=
  { s with watches := s.watches.map (Watch.connectionReleased id) }

/-! ### The release procedure -/

/-- R150: step 2 of the release procedure. -/
def State.freeLeg (s : State) (c : Connection) : State :=
  match c.privacy with
  | some part =>
    (s.setLeg part.leg none).setKey part.key
      { s.key part.key with useCount := (s.key part.key).useCount - 1 }
  | none => s

/-- R148: the release procedure for one record: removal, leg and key, trunk slots, trace, report. The
report is made when the cause gives a reason (R153). -/
def Work.release (reason : Option ReleaseReason) (w : Work) (c : Connection) : Work :=
  let w := w.update (·.dropConnection c.id)
  let w := w.update (·.freeLeg c)
  let w := w.leaveSlot c.source
  let w := w.leaveSlot c.destination
  let w := w.update (·.endTrace c.id)
  match reason with
  | some r => w.raise (.released c.id c.callTag r)
  | none => w

/-- R154: the records a request selects from those that stand at that moment are released in ascending
id (the table is kept in ascending id). -/
def Work.releaseWhere (w : Work) (reason : Option ReleaseReason) (selects : Connection → Bool) :
    Work :=
  (w.state.connections.filter selects).foldl (Work.release reason) w

/-- R155: a withdrawal selects every record that names the position, except those whose other endpoint
is a service endpoint. -/
def withdrawalSelects (position : Nat) (c : Connection) : Bool :=
  (c.source == position && !isService c.destination)
    || (c.destination == position && !isService c.source)

/-- R94 check 6: the group of the trunk slot is not in the entry's mask. -/
def failsMask (s : State) (e : DirectoryEntry) (trunk : Nat) : Bool :=
  !inMask e.mask (s.slot (slotOf trunk)).group

/-- R94 check 7: the entry's privacy class forbids the trunk, given whether scrambling is there or
asked for. -/
def failsPrivacy (s : State) (e : DirectoryEntry) (trunk : Nat) (scrambled : Bool) : Bool :=
  (e.privacy != .openClass && s.isPublic trunk)
    || (e.privacy == .required && s.isTie trunk && !scrambled)

/-- R156: the class-change judgement of one record of the station at a position. -/
def classChangeSelects (s : State) (e : DirectoryEntry) (position : Nat) (c : Connection) : Bool :=
  (c.source == position && isTrunk c.destination
      && (failsMask s e c.destination || failsPrivacy s e c.destination c.privacy.isSome))
    || (c.destination == position && isTrunk c.source
      && (failsMask s e c.source || failsPrivacy s e c.source c.privacy.isSome))

/-! ### Stations leave their states -/

/-- R67: a withdrawal of the station ADMITTED at a position; nothing for a record that is not
ADMITTED. -/
def Work.withdraw (w : Work) (reason : ReleaseReason) (position : Nat) : Work :=
  match (w.state.station position).state with
  | .admitted identity =>
    let w := w.update fun s =>
      s.setStation position { s.station position with state := .vacant, deliver := [] }
    let w := w.releaseWhere (some reason) (withdrawalSelects position)
    w.raise (.withdrawn position identity reason)
  | _ => w

/-- Empty the admission-message slot of a position (R49, R51). -/
def State.emptySlot (s : State) (position : Nat) : State :=
  s.setStation position { s.station position with slot := none }

/-- R49, R50: a position is cleared by its state; an ADMITTED station is withdrawn with the reason
given. -/
def Work.clearPosition (w : Work) (reason : ReleaseReason) (position : Nat) : Work :=
  let w :=
    match (w.state.station position).state with
    | .admitted _ => w.withdraw reason position
    | .challenged .. | .holdOff _ => w.update (·.setStationState position .vacant)
    | .locked | .vacant => w
  w.update (·.emptySlot position)

/-- R51: what LINK_DOWN does to a position by its state. -/
def Work.loseLink (w : Work) (position : Nat) : Work :=
  let w :=
    match (w.state.station position).state with
    | .admitted _ => w.withdraw .linkLost position
    | .challenged .. => w.update (·.setStationState position .vacant)
    | .holdOff _ | .locked | .vacant => w
  w.update (·.emptySlot position)

/-- R65: the challenge of a CHALLENGED record is abandoned on a request of the directory; nothing for
a record in another state. -/
def Work.abandon (w : Work) (reason : RefusalReason) (position : Nat) : Work :=
  match (w.state.station position).state with
  | .challenged identity _ _ _ =>
    let w := w.update (·.setStationState position .vacant)
    let w := w.update (·.placeMessage position (.refuse reason))
    w.raise (.refused position identity reason false (w.state.station position).failures)
  | _ => w

/-- The positions CHALLENGED with an identity and selected, in ascending order (R39). -/
def State.challengedPositions (s : State) (identity : Nat) (selects : Nat → Bool) : List Nat :=
  (List.range 96).filter fun n =>
    (s.station n).state.challengedIdentity == some identity && selects n

/-- R59: a counted failure at a position. -/
def Work.countFailure (w : Work) (position identity : Nat) (reason : RefusalReason) : Work :=
  let w := w.update (·.placeMessage position (.refuse reason))
  let failures := (w.state.station position).failures + 1
  let locks := decide (w.state.lockoutCount ≤ failures)
  let w := w.update fun s => s.setStation position { s.station position with
    failures := failures
    state := if locks then .locked else .holdOff (s.after s.holdOffTime) }
  let w := w.raise (.refused position identity reason true failures)
  if locks then w.raise (.lockedOut position failures) else w

/-- The number of records released between two states of one event (R159). -/
def releasedBetween (before after : State) : Nat := before.recordCount - after.recordCount

end Sys2Proof.Machine
end

