-- ==== Sys2Proof/Machine/Restart.lean ====
section
/-! DEFINITION. The start of a restart (R170, R173) and the restart causes (R175); the reset pin and
the completion of a restart (R170, R174). -/

namespace Sys2Proof.Machine

/-- What begins a restart (R170). -/
inductive RestartCause where
  | powerOn | pin | orderCold | orderKeep
  deriving DecidableEq, Repr

/-- R175: the change of a cause set at the start of a restart. -/
def recordCause (cause : RestartCause) (c : CauseSet) : CauseSet :=
  match cause with
  | .powerOn => { powerOn := true, pin := false, orderCold := false, orderKeep := false }
  | .pin => { c with pin := true }
  | .orderCold => { c with orderCold := true }
  | .orderKeep => { c with orderKeep := true }

/-- R1, R3, R175: a port at the start of a restart, with the mode it will have: queues emptied, flag
clear, cause recorded; a transfer in progress learns of the restart. What was sent stays sent (R4). -/
def restartPort (cause : RestartCause) (mode : PortMode) (p : PortState) : PortState :=
  { p with
    orders := []
    out := []
    mode := mode
    missed := false
    causes := recordCause cause p.causes
    transfer := p.transfer.map fun t => { t with restartSince := true } }

/-- R173: the start of a cold restart: every block takes its cold values. The outgoing samples stand
until the next frame start, a message being sent on a channel is completed (R172), and the pin, the
time base and the model's own fields are not the restart's (log entries 11, 12, 13). -/
def State.startCold (cause : RestartCause) (s : State) : State :=
  { State.reset with
    portA := restartPort cause .ungated s.portA
    portB := restartPort cause .ungated s.portB
    portM := restartPort cause .ungated s.portM
    lines := s.lines.map fun l => { LinePort.reset with sending := l.sending }
    outgoing := s.outgoing
    restart := some .cold
    restartSince := s.clock
    resetPin := s.resetPin
    clock := s.clock
    freeIndex := s.freeIndex
    pending := s.pending }

/-- R53: a station record at the start of a call-keeping restart. -/
def Station.keptByRestart (st : Station) : Station :=
  { st with
    state :=
      match st.state with
      | .admitted identity => .admitted identity
      | .locked => .locked
      | .vacant | .challenged .. | .holdOff _ => .vacant
    slot := none
    deliver := [] }

/-- R173: the values a call-keeping restart gives every block at its start, before the PENDING records
are discarded. -/
def State.keepTables (cause : RestartCause) (s : State) : State :=
  { s with
    portA := restartPort cause s.portA.mode s.portA
    portB := restartPort cause s.portB.mode s.portB
    portM := restartPort cause s.portM.mode s.portM
    lastServed := .m
    mastership := .vacant
    lines := s.lines.map fun l => { l with lastSecond := true }
    stations := s.stations.map Station.keptByRestart
    restart := some .keep
    restartSince := s.clock }

/-- R109, R157: the start of a call-keeping restart: the PENDING records are discarded through the
release procedure, without RELEASED; the events their release raises are discarded in turn (R11). -/
def State.startKeep (cause : RestartCause) (s : State) : State :=
  ((Work.start (s.keepTables cause)).releaseWhere none fun c => !c.live).finish

/-- R170: the reset pin is released, and the RESTARTING period is measured from this instant
(R174). -/
def State.releasePin (s : State) : State := { s with resetPin := false, restartSince := s.clock }

/-! ### Line indications, as they are acted on (R51) -/

/-- A LINK_UP or LINK_DOWN indication of a line port, acted on: a repeat of the recorded link does
nothing. -/
def Work.reportLink (w : Work) (line : Nat) (up : Bool) : Work :=
  if (w.state.line line).linkUp = up then w
  else if up then
    (w.update fun s => s.setLine line { s.line line with linkUp := true }).raise (.link line true)
  else
    let w := w.update fun s =>
      s.setLine line { s.line line with linkUp := false, sending := none }
    let w := w.loseLink (2 * line)
    let w := w.loseLink (2 * line + 1)
    w.raise (.link line false)

/-! ### The commands -/

/-- POWER_ON (R170). -/
def execPowerOn (s : State) : Host.Outcome State Fault Refusal :=
  .next (s.startCold .powerOn)

/-- RESET_PIN (R170): the assertion of the pin; nothing while it is asserted already (log entry
11). -/
def execResetPin (s : State) : Host.Outcome State Fault Refusal :=
  if s.resetPin then .next s
  else .next { s.startCold .pin with resetPin := true }

/-- RESET_PIN_RELEASE (R170): nothing while the pin is not asserted. -/
def execResetPinRelease (s : State) : Host.Outcome State Fault Refusal :=
  if s.resetPin then .next s.releasePin else .next s

/-- R174 steps 1 and 2: the RESTARTING period ends and RESTARTED is placed in every out queue. -/
def State.endRestart (s : State) (mode : RestartMode) : State :=
  let s := { s with restart := none }
  let s := s.append .a (.event (.restarted mode))
  let s := s.append .b (.event (.restarted mode))
  s.append .m (.event (.restarted mode))

/-- R174 step 3: the links are reported afresh, ports in ascending number; a port without a report
keeps its link (log entry 20). -/
def Work.rereadLinks (w : Work) (links : List Bool) : Work :=
  (List.range 48).foldl
    (fun w n => w.reportLink n (links.getD n (w.state.line n).linkUp)) w

/-- RESTART_COMPLETE (R174): nothing when no restart is in progress, and the period cannot end while
the reset pin is asserted (R170). -/
def execRestartComplete (links : List Bool) (s : State) : Host.Outcome State Fault Refusal :=
  match s.restart with
  | some mode =>
    if s.resetPin then .next s
    else .next ((Work.start (s.endRestart mode)).rereadLinks links).finish
  | none => .next s

end Sys2Proof.Machine
end

