-- ==== Sys2Proof/Machine/Take.lean ====
section
/-! DEFINITION. The arbiter's grant (R7) and the take of an order (R8, R9, R26), as one shared
operation: the order leaves the head of its queue, it is checked, its changes are made, its reply is
appended, and the events it raised are posted after the reply. -/

namespace Sys2Proof.Machine

/-! ### The arbiter (R7) -/

/-- The port the arbiter grants: the first eligible port in the cyclic order after the last-served
one; none during RESTARTING or while no port is eligible. -/
def State.grant (s : State) : Option Port :=
  if s.restarting then none else (arbiterOrder s.lastServed).find? fun p => eligible (s.port p)

/-- The order that is taken next, the port it was queued on, and the state with the order out of its
queue and the port last-served; none while nothing is granted (R7, R8). -/
def State.takeHead (s : State) : Option (Port × OrderRecord × State) :=
  match s.grant with
  | some p =>
    match (s.port p).orders with
    | order :: rest =>
      some (p, order, { s.setPort p { s.port p with orders := rest } with lastServed := p })
    | [] => none
  | none => none

/-! ### Authority (R9, R26) -/

/-- The authority classes (R9); YIELD's port check is that of the controller class. -/
inductive Authority where
  | holderOnly | portMOnly | holderOrPortM | controller | anyPort
  deriving DecidableEq, Repr

/-- R26: the holder check of an order from a controller. -/
def holderCheck (x : Controller) (m : Mastership) : Option OutcomeCode :=
  match m with
  | .vacant => some .notHolder
  | .held y _ => if x = y then none else some .notHolder
  | .lapsed y => if x = y then some .lapsed else some .notHolder

/-- R8 checks 2 and 3: the refusal of an order of an authority class from a port, if any. -/
def authorityCheck (authority : Authority) (p : Port) (m : Mastership) : Option OutcomeCode :=
  match authority, controllerOf p with
  | .holderOnly, some x => holderCheck x m
  | .holderOnly, none => some .notAllowed
  | .portMOnly, some _ => some .notAllowed
  | .portMOnly, none => none
  | .holderOrPortM, some x => holderCheck x m
  | .holderOrPortM, none => none
  | .controller, some _ => none
  | .controller, none => some .notAllowed
  | .anyPort, _ => none

/-! ### The take (R8) -/

/-- What comes of an order: a refusal with its result fields, the work done with the result fields of
the DONE reply, or the start of a restart, which is not replied to. -/
inductive Answer where
  | refuse (outcome : OutcomeCode) (fields : List Byte)
  | done (fields : List Byte) (work : Work)
  | restart (state : State)
  deriving DecidableEq, Repr

/-- The answer to an order: the checks of R8 in their order, and then the order's own. -/
def answerTo (order : OrderRecord) (codesFit : List Byte → Bool) (authority : Authority) (p : Port)
    (s : State) (own : Answer) : Answer :=
  if !lengthFits order || !codesFit order.params then .refuse .badOrder []
  else
    match authorityCheck authority p s.mastership with
    | some outcome => .refuse outcome []
    | none => own

/-- The reply is appended to the issuing port's out queue and the events are posted after it (R8). -/
def State.replied (s : State) (p : Port) (order : OrderRecord) (answer : Answer) : State :=
  match answer with
  | .refuse outcome fields => s.append p (.reply order.code order.tag outcome fields)
  | .done fields work =>
    (work.state.append p (.reply order.code order.tag .done fields)).postAll work.events
  | .restart t => t

/-- The take of an order of one row of the table. `mine` says which orders are the row's. When the
arbiter grants nothing, or the order it takes next is another row's, the row's event cannot happen
and the state stands (log entry 3). -/
def takeOrder (mine : OrderRecord → Bool) (codesFit : List Byte → Bool) (authority : Authority)
    (body : Port → List Byte → State → Answer) (s : State) : Host.Outcome State Fault Refusal :=
  match s.takeHead with
  | some (p, order, taken) =>
    if mine order then
      .next (taken.replied p order
        (answerTo order codesFit authority p taken (body p order.params taken)))
    else .next s
  | none => .next s

/-- The orders of one order code. -/
def ofCode (code : Byte) (order : OrderRecord) : Bool := order.code == code

/-- No parameter of the order is a code from a fixed set. -/
def anyCodes (_ : List Byte) : Bool := true

/-- DONE with its result fields and a state, and no event raised. A LOOK order gives the state it
found. -/
def Answer.plain (fields : List Byte) (s : State) : Answer := .done fields (Work.start s)

/-- UNKNOWN_ORDER (R8): an order whose code the table lacks is refused BAD_ORDER. -/
def execUnknownOrder (s : State) : Host.Outcome State Fault Refusal :=
  takeOrder (fun order => (orderLengths order.code).isNone) anyCodes .anyPort
    (fun _ _ _ => .refuse .badOrder []) s

end Sys2Proof.Machine
end

