-- ==== Sys2Proof/Machine/AdmissionOrders.lean ====
section
/-! DEFINITION. The orders of the admission unit (R48, R49, R52, R56, R68, R70 to R73). -/

namespace Sys2Proof.Machine

/-! ### Line ports -/

/-- A line port record as result fields: state and cause, pairing, default precedence, babble
tolerance, babble count, link (R48, R52). -/
def lineFields (l : LinePort) : List Byte :=
  [lineStateCode l.condition, lineCauseCode l.condition, yesNo l.pairing,
    byteOf l.defaultPrecedence, byteOf l.tolerance, byteOf l.babbleCount, yesNo l.linkUp]

/-- R48: the record of a line port with the settings SET PORT gives it: the port number, state,
pairing, default precedence and tolerance of the order (log entry 16). -/
def newLineSettings (params : List Byte) (old : LinePort) : LinePort :=
  let enables := flagSet (paramByte params 1)
  { old with
    condition := if enables then .enabled else .disabled .order
    pairing := flagSet (paramByte params 2)
    defaultPrecedence := param1 params 3
    tolerance := clampTo 0 7 (param1 params 4)
    babbleCount := if enables && old.condition != .enabled then 0 else old.babbleCount }

/-- R48: the positions SET PORT clears: both when it disables the port, 2p + 1 when it turns pairing
OFF on a port ENABLED after the order. -/
def clearedPositions (line : Nat) (old new : LinePort) : List Nat :=
  if old.condition == .enabled && new.condition != .enabled then [2 * line, 2 * line + 1]
  else if new.condition == .enabled && old.pairing && !new.pairing then [2 * line + 1]
  else []

/-- R48, R49: the effect of SET PORT. -/
def setPortSettings (params : List Byte) (s : State) : Answer :=
  let line := param1 params 0
  if decide (47 < line) || decide (7 < param1 params 3) then .refuse .range []
  else
    let old := s.line line
    let new := newLineSettings params old
    let cleared := clearedPositions line old new
    let w := Work.start (s.setLine line new)
    let w := cleared.foldl (fun w n => w.clearPosition .portDisabled n) w
    let w :=
      if old.condition == .enabled && new.condition != .enabled then
        w.raise (.portDisabled line .order)
      else w
    let withdrawn := cleared.countP fun n => (s.station n).state.admittedIdentity.isSome
    .done (lineFields (w.state.line line)
      ++ [byteOf withdrawn, byteOf (releasedBetween s w.state)]) w

/-- SET PORT (R48). -/
def execSetPort (s : State) : Host.Outcome State Fault Refusal :=
  takeOrder (ofCode 0x20)
    (fun params => isFlag (paramByte params 1) && isFlag (paramByte params 2)) .holderOnly
    (fun _ params s => setPortSettings params s) s

/-- LOOK PORT (R52). -/
def execLookPort (s : State) : Host.Outcome State Fault Refusal :=
  takeOrder (ofCode 0x21) anyCodes .anyPort
    (fun _ params s =>
      let line := param1 params 0
      if decide (47 < line) then .refuse .range []
      else .plain (lineFields (s.line line)
        ++ [stationStateCode (s.station (2 * line)).state,
            stationStateCode (s.station (2 * line + 1)).state]) s) s

/-! ### Stations -/

/-- R68: the effect of WITHDRAW. -/
def withdrawPosition (position : Nat) (s : State) : Answer :=
  if decide (95 < position) then .refuse .range []
  else
    match s.identityAt position with
    | none => .refuse .notAdmitted []
    | some identity =>
      let w := (Work.start s).withdraw .withdrawn position
      .done (byteOf position :: bytes2 identity ++ [byteOf (releasedBetween s w.state)]) w

/-- WITHDRAW (R68). -/
def execWithdraw (s : State) : Host.Outcome State Fault Refusal :=
  takeOrder (ofCode 0x22) anyCodes .holderOnly
    (fun _ params s => withdrawPosition (param1 params 0) s) s

/-- R56: the effect of DELIVER. -/
def deliverTo (position : Nat) (bytes : List Byte) (s : State) : Answer :=
  if decide (95 < position) then .refuse .range []
  else if (s.identityAt position).isNone then .refuse .notAdmitted []
  else if decide (Config.deliverQueueSize ≤ (s.station position).deliver.length) then
    .refuse .lineBusy []
  else
    .plain [byteOf ((s.station position).deliver.length + 1)]
      (s.setStation position { s.station position with
        deliver := (s.station position).deliver ++ [bytes] })

/-- DELIVER (R56). -/
def execDeliver (s : State) : Host.Outcome State Fault Refusal :=
  takeOrder (ofCode 0x23) anyCodes .holderOnly
    (fun _ params s => deliverTo (param1 params 0) (params.drop 1) s) s

/-- RELEASE LOCKOUT (R70). -/
def execReleaseLockout (s : State) : Host.Outcome State Fault Refusal :=
  takeOrder (ofCode 0x24) anyCodes .holderOrPortM
    (fun _ params s =>
      let position := param1 params 0
      if decide (95 < position) then .refuse .range []
      else
        .plain [stationStateCode (s.station position).state]
          (if (s.station position).state = .locked then
            s.setStation position { s.station position with state := .vacant, failures := 0 }
          else s)) s

/-- The time that remains until the deadline of a station state, 0 when it has none (R73). -/
def State.deadlineRemaining (s : State) (state : StationState) : Nat :=
  match state with
  | .challenged _ _ _ deadline => s.remaining deadline
  | .holdOff deadline => s.remaining deadline
  | _ => 0

/-- The identity of a station state, present in CHALLENGED and ADMITTED (R73). -/
def StationState.identity (state : StationState) : Option Nat :=
  match state with
  | .challenged identity _ _ _ => some identity
  | .admitted identity => some identity
  | _ => none

/-- LOOK STATION (R73). -/
def execLookStation (s : State) : Host.Outcome State Fault Refusal :=
  takeOrder (ofCode 0x25) anyCodes .anyPort
    (fun _ params s =>
      let position := param1 params 0
      let station := s.station position
      if decide (95 < position) then .refuse .range []
      else .plain (stationStateCode station.state :: optionalIdentity station.state.identity
        ++ bytes2 (s.deadlineRemaining station.state)
        ++ [byteOf station.failures, byteOf station.deliver.length, yesNo station.slot.isSome]) s) s

/-! ### Settings -/

/-- The three admission settings as result fields (R71). -/
def admissionFields (s : State) : List Byte :=
  bytes2 s.answerWindow ++ bytes2 s.holdOffTime ++ [byteOf s.lockoutCount]

/-- SET ADMISSION TIMES (R71): deadlines already set keep their times. -/
def execSetAdmissionTimes (s : State) : Host.Outcome State Fault Refusal :=
  takeOrder (ofCode 0x26) anyCodes .holderOnly
    (fun _ params s =>
      let t := { s with
        answerWindow := clampTo 64 1024 (param2 params 0)
        holdOffTime := clampTo 256 16384 (param2 params 2)
        lockoutCount := clampTo 2 8 (param1 params 4) }
      .plain (admissionFields t) t) s

/-- LOOK ADMISSION TIMES (R71). -/
def execLookAdmissionTimes (s : State) : Host.Outcome State Fault Refusal :=
  takeOrder (ofCode 0x27) anyCodes .anyPort (fun _ _ s => .plain (admissionFields s) s) s

/-- SEED CHALLENGE (R72). -/
def execSeedChallenge (s : State) : Host.Outcome State Fault Refusal :=
  takeOrder (ofCode 0x28) anyCodes .portMOnly
    (fun _ params s => .plain [] { s with challengeSequence := paramWord params 0 }) s

end Sys2Proof.Machine
end

