-- ==== Sys2Proof/Machine/DirectoryOrders.lean ====
section
/-! DEFINITION. The orders of the extension directory and of the precedence map (R32 to R43). -/

namespace Sys2Proof.Machine

/-! ### Reports -/

/-- A list of home ports in a reply: a count and the ports; an absent list has count 0 (R178; log
entry 8). -/
def homePortFields (ports : Option (List Nat)) : List Byte :=
  byteOf (ports.getD []).length :: (ports.getD []).map byteOf

/-- An entry without its secret: identity, precedence, privacy class, mask, home ports, status (R37,
R40). DEDUCED: the derived field admitted-at is no part of the entry that AMEND reports (log entry
8). -/
def entryFields (e : DirectoryEntry) : List Byte :=
  bytes2 e.identity ++ [optionalByte e.precedence, privacyClassCode e.privacy, e.mask]
    ++ homePortFields e.homePorts ++ [entryStatusCode e.suspended]

/-- The number of entries held, as a field. -/
def entryCountField (s : State) : List Byte := bytes2 s.directory.length

/-- The result fields of LOOK ENTRY and LOOK NEXT ENTRY (R40, R41, R43). -/
def lookEntryFields (s : State) (e : DirectoryEntry) : List Byte :=
  entryFields e
    ++ [optionalByte (s.admittedAt e.identity),
        optionalByte ((s.admittedAt e.identity).map s.effectiveClass)]
    ++ entryCountField s

/-! ### The directory's requests (R33, R35, R38, R39) -/

/-- The station ADMITTED with the identity, if any, is withdrawn. -/
def Work.withdrawIdentity (w : Work) (reason : ReleaseReason) (identity : Nat) : Work :=
  match w.state.admittedAt identity with
  | some position => w.withdraw reason position
  | none => w

/-- The challenges of the identity at the selected positions are abandoned, in ascending order of
position. -/
def Work.abandonIdentity (w : Work) (reason : RefusalReason) (identity : Nat)
    (selects : Nat → Bool) : Work :=
  (w.state.challengedPositions identity selects).foldl (fun w n => w.abandon reason n) w

/-- R33, R35: the two requests made when an entry is removed or suspended. -/
def Work.retireIdentity (w : Work) (reason : ReleaseReason) (identity : Nat) : Work :=
  (w.withdrawIdentity reason identity).abandonIdentity .unknown identity fun _ => true

/-- The number of challenges outstanding with an identity. -/
def State.challengeCount (s : State) (identity : Nat) : Nat :=
  (s.challengedPositions identity fun _ => true).length

/-! ### Making and removing entries -/

/-- The codes of ENTER: precedence marker, privacy class, status (R32). -/
def enterCodes (params : List Byte) : Bool :=
  isFlag (paramByte params 4) && (privacyClassOf (paramByte params 6)).isSome
    && isFlag (paramByte params 8)

/-- The home port numbers an ENTER or AMEND carries (R177). -/
def homePortParams (params : List Byte) : List Nat := (params.drop 9).map BitVec.toNat

/-- The entry an ENTER describes (R32). -/
def enteredEntry (params : List Byte) : DirectoryEntry where
  identity := param2 params 0
  secret := paramWord params 2
  precedence := if flagSet (paramByte params 4) then some (param1 params 5) else none
  privacy := (privacyClassOf (paramByte params 6)).getD .openClass
  mask := paramByte params 7
  homePorts := homePortsOf (homePortParams params)
  suspended := flagSet (paramByte params 8)

/-- R32: the checks and the effect of ENTER. -/
def enterEntry (params : List Byte) (s : State) : Answer :=
  let e := enteredEntry params
  if !identityInRange e.identity || decide (7 < e.precedence.getD 0)
      || (homePortParams params).any (fun n => decide (47 < n)) then .refuse .range []
  else if (s.entry e.identity).isSome then .refuse .alreadyExists []
  else if decide (Config.directorySize ≤ s.directory.length) then .refuse .full []
  else
    let t := { s with directory := insertEntry e s.directory }
    .plain (bytes2 e.identity ++ entryCountField t) t

/-- R33, R34, R35, R36: an identity outside 1 to 9999 is refused RANGE, one that is not present
NO_ENTRY. -/
def onEntry (identity : Nat) (s : State) (body : DirectoryEntry → Answer) : Answer :=
  if !identityInRange identity then .refuse .range []
  else
    match s.entry identity with
    | some e => body e
    | none => .refuse .noEntry []

/-- ENTER (R32). -/
def execEnter (s : State) : Host.Outcome State Fault Refusal :=
  takeOrder (ofCode 0x10) enterCodes .portMOnly (fun _ params s => enterEntry params s) s

/-- R33: the effect of REMOVE. DEDUCED: the reply gives no count of records released, as R33, R159 and
R178 have it, though R153 speaks of one (log entry 27). -/
def removeEntry (identity : Nat) (s : State) : Answer :=
  onEntry identity s fun _ =>
    let w := (Work.start (s.dropEntry identity)).retireIdentity .removed identity
    .done (bytes2 identity ++ [optionalByte (s.admittedAt identity),
      byteOf (s.challengeCount identity)]) w

/-- REMOVE (R33). -/
def execRemove (s : State) : Host.Outcome State Fault Refusal :=
  takeOrder (ofCode 0x11) anyCodes .portMOnly (fun _ params s => removeEntry (param2 params 0) s) s

/-! ### Changing an entry -/

/-- SET SECRET (R34): challenges outstanding keep their expected responses. -/
def execSetSecret (s : State) : Host.Outcome State Fault Refusal :=
  takeOrder (ofCode 0x12) anyCodes .portMOnly
    (fun _ params s => onEntry (param2 params 0) s fun _ =>
      .plain (bytes2 (param2 params 0))
        (s.mapEntry (param2 params 0) fun e => { e with secret := paramWord params 2 })) s

/-- R35: the effect of SUSPEND. -/
def suspendEntry (identity : Nat) (s : State) : Answer :=
  onEntry identity s fun e =>
    if e.suspended then
      .plain (bytes2 identity ++ [entryStatusCode true, optionalByte none, byteOf 0]) s
    else
      let t := s.mapEntry identity fun e => { e with suspended := true }
      .done (bytes2 identity ++ [entryStatusCode false, optionalByte (s.admittedAt identity),
        byteOf (s.challengeCount identity)]) ((Work.start t).retireIdentity .suspended identity)

/-- SUSPEND (R35). -/
def execSuspend (s : State) : Host.Outcome State Fault Refusal :=
  takeOrder (ofCode 0x14) anyCodes .holderOrPortM
    (fun _ params s => suspendEntry (param2 params 0) s) s

/-- RESUME (R36). -/
def execResume (s : State) : Host.Outcome State Fault Refusal :=
  takeOrder (ofCode 0x15) anyCodes .holderOrPortM
    (fun _ params s => onEntry (param2 params 0) s fun e =>
      .plain (bytes2 (param2 params 0) ++ [entryStatusCode e.suspended])
        (s.mapEntry (param2 params 0) fun e => { e with suspended := false })) s

/-! ### AMEND (R37, R38) -/

/-- The codes of AMEND: the four markers, the privacy class when it is SET, and the agreement of the
home-ports marker with the number of home ports (R37, R177). -/
def amendCodes (params : List Byte) : Bool :=
  isAmendMarker (paramByte params 2) && isFlag (paramByte params 4)
    && (!flagSet (paramByte params 4) || (privacyClassOf (paramByte params 5)).isSome)
    && isFlag (paramByte params 6) && isAmendMarker (paramByte params 8)
    && (if flagSet (paramByte params 8) then !(homePortParams params).isEmpty
        else (homePortParams params).isEmpty)

/-- The entry with every field whose marker is SET or CLEAR at its new value (R37). -/
def amendedEntry (params : List Byte) (e : DirectoryEntry) : DirectoryEntry :=
  { e with
    precedence :=
      if paramByte params 2 = 1 then some (param1 params 3)
      else if paramByte params 2 = 2 then none else e.precedence
    privacy :=
      if flagSet (paramByte params 4) then (privacyClassOf (paramByte params 5)).getD e.privacy
      else e.privacy
    mask := if flagSet (paramByte params 6) then paramByte params 7 else e.mask
    homePorts :=
      if paramByte params 8 = 1 then homePortsOf (homePortParams params)
      else if paramByte params 8 = 2 then none else e.homePorts }

/-- R38, first and second requests: home ports SET that exclude the admitted position or a challenged
one. -/
def Work.applyHomePorts (w : Work) (e : DirectoryEntry) : Work :=
  let excluded := fun n => !e.admitsLine (linePortOf n)
  let w :=
    match w.state.admittedAt e.identity with
    | some position => if excluded position then w.withdraw .classChange position else w
    | none => w
  w.abandonIdentity .notHere e.identity excluded

/-- R38, R156, third request: the class-change judgement. -/
def Work.judgeClass (w : Work) (e : DirectoryEntry) : Work :=
  match w.state.admittedAt e.identity with
  | some position =>
    w.releaseWhere (some .classChange) (classChangeSelects w.state e position)
  | none => w

/-- R37: the checks and the effect of AMEND. -/
def amendEntry (params : List Byte) (s : State) : Answer :=
  let identity := param2 params 0
  let setsHomes := flagSet (paramByte params 8)
  if !identityInRange identity
      || (flagSet (paramByte params 2) && decide (7 < param1 params 3))
      || (setsHomes && (homePortParams params).any (fun n => decide (47 < n))) then
    .refuse .range []
  else
    match s.entry identity with
    | none => .refuse .noEntry []
    | some old =>
      let e := amendedEntry params old
      let w := Work.start (s.mapEntry identity (amendedEntry params))
      let excluded := fun n => setsHomes && !e.admitsLine (linePortOf n)
      let withdrawn := (s.admittedAt identity).filter excluded
      let abandoned := s.challengedPositions identity excluded
      let w := if setsHomes then w.applyHomePorts e else w
      let w :=
        if flagSet (paramByte params 4) || flagSet (paramByte params 6) then w.judgeClass e else w
      .done (entryFields e ++ [optionalByte withdrawn, byteOf abandoned.length,
        byteOf (releasedBetween s w.state)]) w

/-- AMEND (R37). -/
def execAmend (s : State) : Host.Outcome State Fault Refusal :=
  takeOrder (ofCode 0x13) amendCodes .holderOrPortM (fun _ params s => amendEntry params s) s

/-! ### Looking at entries -/

/-- LOOK ENTRY (R40). -/
def execLookEntry (s : State) : Host.Outcome State Fault Refusal :=
  takeOrder (ofCode 0x16) anyCodes .anyPort
    (fun _ params s =>
      if !identityInRange (param2 params 0) then .refuse .range []
      else
        match s.entry (param2 params 0) with
        | some e => .plain (lookEntryFields s e) s
        | none => .refuse .noEntry (entryCountField s)) s

/-- LOOK NEXT ENTRY (R41). -/
def execLookNextEntry (s : State) : Host.Outcome State Fault Refusal :=
  takeOrder (ofCode 0x17) anyCodes .anyPort
    (fun _ params s =>
      if decide (9999 < param2 params 0) then .refuse .range []
      else
        match s.directory.find? fun e => decide (param2 params 0 < e.identity) with
        | some e => .plain (lookEntryFields s e) s
        | none => .refuse .noEntry (entryCountField s)) s

/-! ### The precedence map (R42) -/

/-- The map as result fields. -/
def mapFields (s : State) : List Byte := s.precedenceMap.toList.map byteOf

/-- SET PRECEDENCE MAP (R42). -/
def execSetPrecedenceMap (s : State) : Host.Outcome State Fault Refusal :=
  takeOrder (ofCode 0x18) anyCodes .holderOnly
    (fun _ params s =>
      if params.any fun b => decide (3 < b.toNat) then .refuse .range []
      else
        let t := { s with precedenceMap := Vector.ofFn fun i : Fin 8 => param1 params i.val }
        .plain (mapFields t) t) s

/-- LOOK PRECEDENCE MAP (R42). -/
def execLookPrecedenceMap (s : State) : Host.Outcome State Fault Refusal :=
  takeOrder (ofCode 0x19) anyCodes .anyPort (fun _ _ s => .plain (mapFields s) s) s

end Sys2Proof.Machine
end

