-- ==== Sys2Proof/Machine/PrivacyOrders.lean ====
section
/-! DEFINITION. The orders of the privacy unit (R129 to R131, R142, R145). -/

namespace Sys2Proof.Machine

/-! ### Key contexts -/

/-- R127, R129: the confirm count and the loss limit of the marker DEFAULT. -/
def defaultConfirm : Nat := 2

def defaultLoss : Nat := 3

/-- R76, R129: the context a LOAD KEY stores. -/
def loadedKey (params : List Byte) : KeyContext where
  material := some { seed := paramWord params 1, increment := forceOdd (paramWord params 3) }
  confirmCount :=
    if flagSet (paramByte params 5) then clampTo 2 4 (param1 params 6) else defaultConfirm
  lossLimit := if flagSet (paramByte params 5) then clampTo 2 8 (param1 params 7) else defaultLoss
  useCount := 0

/-- R129, R130: an index above 31 is refused RANGE, a context in use IN_USE. -/
def onFreeKey (index : Nat) (s : State) (own : Answer) : Answer :=
  if decide (31 < index) then .refuse .range []
  else if decide (0 < (s.key index).useCount) then .refuse .inUse []
  else own

/-- LOAD KEY (R129). DEDUCED: the use count takes one byte, which 12.1 does not say (log entry 28). -/
def execLoadKey (s : State) : Host.Outcome State Fault Refusal :=
  takeOrder (ofCode 0x50) (fun params => isFlag (paramByte params 5)) .holderOnly
    (fun _ params s =>
      let index := param1 params 0
      let key := loadedKey params
      onFreeKey index s
        (.plain [byteOf index, keyStateCode key.material, byteOf key.confirmCount,
          byteOf key.lossLimit, byteOf key.useCount, keyStateCode (s.key index).material]
          (s.setKey index key))) s

/-- ERASE KEY (R130). -/
def execEraseKey (s : State) : Host.Outcome State Fault Refusal :=
  takeOrder (ofCode 0x51) anyCodes .holderOnly
    (fun _ params s =>
      let index := param1 params 0
      onFreeKey index s
        (.plain [byteOf index, keyStateCode (s.key index).material]
          (s.setKey index
            { s.key index with
              material := none, confirmCount := defaultConfirm, lossLimit := defaultLoss }))) s

/-- The number of free leg contexts (R131). -/
def State.freeLegCount (s : State) : Nat := s.legs.toList.countP (·.isNone)

/-- LOOK KEY (R131). DEDUCED: the use count takes one byte, which 12.1 does not say (log entry 28). -/
def execLookKey (s : State) : Host.Outcome State Fault Refusal :=
  takeOrder (ofCode 0x52) anyCodes .anyPort
    (fun _ params s =>
      let index := param1 params 0
      if decide (31 < index) then .refuse .range []
      else
        .plain [byteOf index, keyStateCode (s.key index).material,
          byteOf (s.key index).confirmCount, byteOf (s.key index).lossLimit,
          byteOf (s.key index).useCount, byteOf s.freeLegCount] s) s

/-! ### Legs -/

/-- A hunt table is cleared: every entry invalid with match count 0 (R133). -/
def clearedTable : List HuntEntry := List.replicate 256 { sample := none, matchCount := 0 }

/-- R135, R141: a leg that begins to hunt. -/
def LegState.startHunt : LegState := .hunt 0 clearedTable

/-- R142: RESYNC by the state of the leg. -/
def LegState.resynced (state : LegState) : LegState :=
  match state with
  | .synced .. | .hunt .. => .startHunt
  | .waitingScramble _ | .waitingDescramble | .running .. => state

/-- The miss count, present in SYNCED (R142, R145). -/
def LegState.misses (state : LegState) : Option Nat :=
  match state with
  | .synced _ _ _ misses _ => some misses
  | _ => none

/-- R142: the effect of RESYNC. A DESCRAMBLE part whose leg context is free, which R128 rules out,
names no leg (log entry 17). -/
def resyncId (id : Nat) (s : State) : Answer :=
  if decide (159 < id) then .refuse .range []
  else
    match (s.connection id).bind (·.privacy) with
    | none => .refuse .noEntry []
    | some part =>
      match part.direction, s.leg part.leg with
      | .descramble, some leg =>
        .plain [byteOf id, byteOf part.leg, legStateCode leg.state, optionalByte leg.state.misses]
          (s.setLeg part.leg (some { leg with state := leg.state.resynced }))
      | _, _ => .refuse .noEntry []

/-- RESYNC (R142). -/
def execResync (s : State) : Host.Outcome State Fault Refusal :=
  takeOrder (ofCode 0x53) anyCodes .holderOnly (fun _ params s => resyncId (param1 params 0) s) s

/-- q, j, the starting period number, the miss count, the hunt index, the number of valid hunt entries
and the greatest match count of a leg, each at its absent value where the state does not hold it
(R145). The absent value of the two-byte count is free (log entry 9). DEDUCED: the greatest match count
takes one byte, which 12.1 does not say (log entry 28). -/
def legStateFields (free : List Byte) (state : LegState) : List Byte :=
  match state with
  | .waitingScramble start => [0xFF, 0xFF, start, 0xFF, 0xFF] ++ free ++ [0xFF]
  | .waitingDescramble => [0xFF, 0xFF, 0xFF, 0xFF, 0xFF] ++ free ++ [0xFF]
  | .running q j _ => [q, j, 0xFF, 0xFF, 0xFF] ++ free ++ [0xFF]
  | .synced q j _ misses _ => [q, j, 0xFF, byteOf misses, 0xFF] ++ free ++ [0xFF]
  | .hunt h table =>
    [0xFF, 0xFF, 0xFF, 0xFF, h] ++ bytes2 (table.countP fun e => e.sample.isSome)
      ++ [byteOf ((table.map (·.matchCount)).foldl max 0)]

/-- The number of free bytes in a LOOK LEG reply: those of the absent two-byte count. -/
def freeBytesOfLeg (state : LegState) : Nat :=
  match state with
  | .hunt .. => 0
  | _ => 2

/-- R145: the effect of LOOK LEG. -/
def lookLegId (id : Nat) (s : State) : Answer :=
  if decide (159 < id) then .refuse .range []
  else
    match (s.connection id).bind (·.privacy) with
    | none => .refuse .noEntry []
    | some part =>
      match s.leg part.leg with
      | none => .refuse .noEntry []
      | some leg =>
        .plain
          ([byteOf id, byteOf part.leg, directionCode part.direction, byteOf leg.key,
              legStateCode leg.state]
            ++ legStateFields (s.freeBytes (freeBytesOfLeg leg.state)) leg.state)
          (s.drawn (freeBytesOfLeg leg.state))

/-- LOOK LEG (R145). -/
def execLookLeg (s : State) : Host.Outcome State Fault Refusal :=
  takeOrder (ofCode 0x54) anyCodes .anyPort (fun _ params s => lookLegId (param1 params 0) s) s

end Sys2Proof.Machine
end

