-- ==== Sys2Proof/Machine/Frame.lean ====
section
/-! DEFINITION. The end of a frame (R86) and the frame start (R102 to R105): promotion, leg start
(R135), trip (R162), and the carrying of samples through the legs (R136 to R141). -/

namespace Sys2Proof.Machine

/-! ### Samples that arrive (R86) -/

/-- No sample arrives at a station position whose line port's link is DOWN. -/
def State.sampleAbsent (s : State) (e : Nat) : Bool :=
  isStation e && !(s.line (linePortOf e)).linkUp

/-- SAMPLE_ARRIVAL (R86): every received sample is replaced by the one that arrived, or by the mute
code where none did. -/
def execSampleArrival (samples : List Byte) (s : State) : Host.Outcome State Fault Refusal :=
  .next { s with
    received := Vector.ofFn fun e : Fin 176 =>
      if s.sampleAbsent e.val then s.muteCode else samples.getD e.val s.muteCode }

/-! ### Promotion (R102) -/

/-- R135: the WAITING leg of a promoted record starts. -/
def LegState.started (seed : Word16) (state : LegState) : LegState :=
  match state with
  | .waitingScramble start => .running start 0 (periodSeed seed start)
  | .waitingDescramble => .startHunt
  | .running .. | .hunt .. | .synced .. => state

/-- The seed and increment of a key context; a context a record names is LOADED (R128), and an EMPTY
one gives 0 and 1 (log entry 17). -/
def KeyContext.use (key : KeyContext) : KeyMaterial :=
  key.material.getD { seed := 0, increment := 1 }

/-- R135: the leg of a promoted record starts, if it has one. -/
def State.startLeg (s : State) (c : Connection) : State :=
  match c.privacy with
  | none => s
  | some part =>
    match s.leg part.leg with
    | none => s
    | some leg =>
      s.setLeg part.leg
        (some { leg with state := leg.state.started (s.key leg.key).use.seed })

/-- R162: the end of a record at which the watched identity stands ADMITTED, if any. -/
def State.watchedEnd (s : State) (identity : Nat) (c : Connection) : Option TraceRole :=
  if s.identityAt c.source == some identity then some .source
  else if s.identityAt c.destination == some identity then some .destination
  else none

/-- R162: the trace record of a trip. -/
def State.traceOf (s : State) (role : TraceRole) (c : Connection) : TraceRecord :=
  let watched := match role with | .source => c.source | .destination => c.destination
  let other := match role with | .source => c.destination | .destination => c.source
  { connectionId := c.id
    callTag := c.callTag
    watchedPosition := watched
    role := role
    otherEndpoint := other
    otherIdentity := s.identityAt other
    frameNumber := s.frameCounter
    releasedSince := false }

/-- R162: one watch examines a promoted record. -/
def Work.examine (w : Work) (c : Connection) (n : Nat) : Work :=
  match w.state.watch n with
  | .armed identity request =>
    match w.state.watchedEnd identity c with
    | some role =>
      let trace := w.state.traceOf role c
      let w := w.update (·.setWatch n (.tripped identity request request trace))
      let w :=
        if request then w.update (·.mapConnection c.id fun d => { d with traceHeld := true }) else w
      w.raise (.traceTripped n identity request trace)
    | none => w
  | .idle | .tripped .. => w

/-- R102: one PENDING record becomes LIVE, its leg starts, and the four watches examine it. -/
def Work.promote (w : Work) (c : Connection) : Work :=
  let w := w.update (·.mapConnection c.id fun d => { d with live := true })
  let w := w.update (·.startLeg c)
  (List.range 4).foldl (fun w n => w.examine c n) w

/-! ### Samples through the legs -/

/-- What a leg does at a frame start at which its record carries a sample: its next state, the sample
it gives back, and what it reports. -/
structure LegFrame where
  state : LegState
  sample : Byte
  locked : Option Byte
  lost : Option (Byte × Byte)
  deriving DecidableEq, Repr

/-- R136: a RUNNING leg at period number q and position j. -/
def scrambleFrame (key : KeyMaterial) (q j : Byte) (s : Word16) (x : Byte) : LegFrame :=
  let t := if j = 0 then periodSeed key.seed q else generatorStep key.increment s
  { state := .running (nextPeriod q j) (nextPosition j) t
    sample := if j = 0 then q else scramble x (keystreamByte t)
    locked := none
    lost := none }

/-- R137 steps 1 and 2: a hunt entry after it has seen a sample. -/
def HuntEntry.seen (e : HuntEntry) (y : Byte) : HuntEntry :=
  { sample := some y
    matchCount :=
      match e.sample with
      | some x => if y = x + 1 then e.matchCount + 1 else 0
      | none => 0 }

/-- R137, R138: a HUNT leg; at the lock, q and j have advanced from position 0 of period y. -/
def huntFrame (key : KeyContext) (mute : Byte) (h : Byte) (table : List HuntEntry) (y : Byte) :
    LegFrame :=
  let entry := (table.getD h.toNat { sample := none, matchCount := 0 }).seen y
  if entry.matchCount = key.confirmCount then
    { state := .synced (nextPeriod y 0) (nextPosition 0) (periodSeed key.use.seed y) 0 mute
      sample := mute
      locked := some y
      lost := none }
  else
    { state := .hunt (h + 1) (table.set h.toNat entry)
      sample := mute
      locked := none
      lost := none }

/-- R139: a SYNCED leg at period positions 1 to 255. -/
def unscrambleFrame (key : KeyMaterial) (q j : Byte) (s : Word16) (misses : Nat) (y : Byte) :
    LegFrame :=
  let t := generatorStep key.increment s
  let x := unscramble y (keystreamByte t)
  { state := .synced (nextPeriod q j) (nextPosition j) t misses x
    sample := x
    locked := none
    lost := none }

/-- R140, R141: a SYNCED leg at period position 0: the sync check and the loss of lock. -/
def syncFrame (key : KeyContext) (q : Byte) (misses : Nat) (last y : Byte) : LegFrame :=
  let missed := if y = q then 0 else misses + 1
  if y ≠ q ∧ missed = key.lossLimit then
    { state := .startHunt, sample := last, locked := none, lost := some (q, y) }
  else
    { state := .synced (nextPeriod q 0) (nextPosition 0) (periodSeed key.use.seed q) missed last
      sample := last
      locked := none
      lost := none }

/-- A leg at a frame start, by its state (R136 to R141). A WAITING leg belongs to a PENDING record and
carries nothing; the model gives back the mute code (log entry 17). -/
def legFrame (key : KeyContext) (mute : Byte) (state : LegState) (y : Byte) : LegFrame :=
  match state with
  | .running q j s => scrambleFrame key.use q j s y
  | .hunt h table => huntFrame key mute h table y
  | .synced q j s misses last =>
    if j = 0 then syncFrame key q misses last y else unscrambleFrame key.use q j s misses y
  | .waitingScramble _ | .waitingDescramble =>
    { state := state, sample := mute, locked := none, lost := none }

/-- R144: the events of a leg's frame. -/
def legEvents (c : Connection) (part : PrivacyPart) (f : LegFrame) : List Event :=
  (f.locked.map fun q => Event.syncLocked c.id c.callTag part.leg part.key q).toList
    ++ (f.lost.map fun v => Event.syncLost c.id c.callTag part.leg part.key v.1 v.2).toList

/-- R103: one LIVE record carries one sample to its destination, through its leg if it has one. -/
def Work.carry (w : Work) (c : Connection) : Work :=
  let y := w.state.receivedSample c.source
  match c.privacy with
  | none => w.update (·.setOutgoing c.destination y)
  | some part =>
    match w.state.leg part.leg with
    | none => w.update (·.setOutgoing c.destination w.state.muteCode)
    | some leg =>
      let f := legFrame (w.state.key leg.key) w.state.muteCode leg.state y
      let w := w.update fun s =>
        (s.setLeg part.leg (some { leg with state := f.state })).setOutgoing c.destination f.sample
      (legEvents c part f).foldl Work.raise w

/-! ### The frame start -/

/-- R102, R104: the counter advances and every destination is handed the mute code, unless a record
feeds it below. -/
def State.openFrame (s : State) : State :=
  { s with frameCounter := s.frameCounter + 1, outgoing := Vector.replicate 160 s.muteCode }

/-- R102: every PENDING record is promoted, in ascending id. -/
def Work.promoteAll (w : Work) : Work :=
  (w.state.connections.filter fun c => !c.live).foldl Work.promote w

/-- R103: every LIVE record carries one sample, in ascending id. -/
def Work.carryAll (w : Work) : Work :=
  (w.state.connections.filter fun c => c.live).foldl Work.carry w

/-- FRAME_START (R102 to R105; log entry 21). -/
def execFrameStart (s : State) : Host.Outcome State Fault Refusal :=
  .next (Work.start s.openFrame).promoteAll.carryAll.finish

end Sys2Proof.Machine
end

