-- ==== Sys2Proof/Machine/LineIndications.lean ====
section
/-! DEFINITION. The indications of the line interface (R50, R51, R172). -/

namespace Sys2Proof.Machine

/-- R50: an ENABLED port whose babble count has passed its tolerance is disabled for babble. -/
def Work.disableForBabble (w : Work) (line : Nat) : Work :=
  let w := w.update fun s => s.setLine line { s.line line with condition := .disabled .babble }
  let w := w.clearPosition .babble (2 * line)
  let w := w.clearPosition .babble (2 * line + 1)
  w.raise (.portDisabled line .babble)

/-- BABBLE (R50): disregarded on a DISABLED port and during RESTARTING (R172). -/
def execBabble (line : Fin 48) (s : State) : Host.Outcome State Fault Refusal :=
  if s.restarting || (s.line line.val).condition != .enabled then .next s
  else
    let count := (s.line line.val).babbleCount + 1
    let t := s.setLine line.val { s.line line.val with babbleCount := count }
    if (s.line line.val).tolerance + 1 ≤ count then
      .next ((Work.start t).disableForBabble line.val).finish
    else .next t

/-- LINK_UP (R51): disregarded during RESTARTING (R172). -/
def execLinkUp (line : Fin 48) (s : State) : Host.Outcome State Fault Refusal :=
  if s.restarting then .next s else .next ((Work.start s).reportLink line.val true).finish

/-- LINK_DOWN (R51): disregarded during RESTARTING (R172). -/
def execLinkDown (line : Fin 48) (s : State) : Host.Outcome State Fault Refusal :=
  if s.restarting then .next s else .next ((Work.start s).reportLink line.val false).finish

end Sys2Proof.Machine
end

