-- ==== Sys2Proof/Machine/MastershipOrders.lean ====
section
/-! DEFINITION. The mastership orders (R18, R20 to R24) and the expiry of the lapse timer (R17). -/

namespace Sys2Proof.Machine

/-- The result fields of a DONE reply to a mastership order: state, holder, L (section 2.2; log entry
7). -/
def masteryFields (s : State) : List Byte :=
  [masteryStateCode s.mastership.state, controllerCode s.mastership.holder]
    ++ bytes2 s.lapseInterval

/-- DONE to a mastership order, with the MASTERSHIP event of a cause where there is one. -/
def masteryDone (s : State) (cause : Option MasteryCause) (former : Option Controller) : Answer :=
  match cause with
  | some c => .done (masteryFields s) ((Work.start s).raise (s.mastershipEvent c former))
  | none => .done (masteryFields s) (Work.start s)

/-- R18: CLAIM from controller X, by the state of the record. -/
def claimBy (x : Controller) (s : State) : Answer :=
  match s.mastership with
  | .vacant => masteryDone (s.holdMastership x) (some .claimed) none
  | .held y _ =>
    if x = y then masteryDone (s.holdMastership x) none none
    else .refuse .held [controllerCode (some y)]
  | .lapsed y =>
    masteryDone (s.holdMastership x) (some (if x = y then .recovered else .takeover)) (some y)

/-- R20: PULSE from controller X. -/
def pulseBy (x : Controller) (s : State) : Answer :=
  match s.mastership with
  | .held y _ =>
    if x = y then masteryDone (s.holdMastership x) none none else .refuse .notHolder []
  | .lapsed y =>
    if x = y then masteryDone (s.holdMastership x) (some .recovered) (some y)
    else .refuse .notHolder []
  | .vacant => .refuse .notHolder []

/-- R23: YIELD from controller X. -/
def yieldBy (x : Controller) (s : State) : Answer :=
  if s.mastership.holder = some x then
    masteryDone { s with mastership := .vacant } (some .yielded) (some x)
  else .refuse .notHolder []

/-- R21: ASSIGN to a target. -/
def assignTo (target : Option Controller) (s : State) : Answer :=
  masteryDone
    (match target with
      | some x => s.holdMastership x
      | none => { s with mastership := .vacant })
    (some .assigned) s.mastership.holder

/-- An order of a controller: refused NOT_ALLOWED from Port M (R9). -/
def byController (body : Controller → State → Answer) (p : Port) (s : State) : Answer :=
  match controllerOf p with
  | some x => body x s
  | none => .refuse .notAllowed []

/-- CLAIM (R18). -/
def execClaim (s : State) : Host.Outcome State Fault Refusal :=
  takeOrder (ofCode 0x01) anyCodes .controller (fun p _ s => byController claimBy p s) s

/-- PULSE (R20). -/
def execPulse (s : State) : Host.Outcome State Fault Refusal :=
  takeOrder (ofCode 0x02) anyCodes .controller (fun p _ s => byController pulseBy p s) s

/-- YIELD (R23). -/
def execYield (s : State) : Host.Outcome State Fault Refusal :=
  takeOrder (ofCode 0x03) anyCodes .controller (fun p _ s => byController yieldBy p s) s

/-- ASSIGN (R21). -/
def execAssign (s : State) : Host.Outcome State Fault Refusal :=
  takeOrder (ofCode 0x04) (fun params => (assignTargetOf (paramByte params 0)).isSome) .portMOnly
    (fun _ params s => assignTo ((assignTargetOf (paramByte params 0)).getD none) s) s

/-- SET LAPSE (R22): L is clamped into 64 to 4096 ms; a running timer keeps its time of expiry. -/
def execSetLapse (s : State) : Host.Outcome State Fault Refusal :=
  takeOrder (ofCode 0x05) anyCodes .portMOnly
    (fun _ params s =>
      masteryDone { s with lapseInterval := clampTo 64 4096 (param2 params 0) } none none) s

/-- The time that remains until the lapse timer expires, 0 when it is stopped (R24). -/
def State.leaseRemaining (s : State) : Nat :=
  match s.mastership with
  | .held _ expiry => s.remaining expiry
  | _ => 0

/-- LOOK MASTERSHIP (R24). -/
def execLookMastership (s : State) : Host.Outcome State Fault Refusal :=
  takeOrder (ofCode 0x06) anyCodes .anyPort
    (fun _ _ s => .plain (masteryFields s ++ bytes2 s.leaseRemaining) s) s

/-- LAPSE_TIMER_EXPIRY (R17): in HELD(X) the time of expiry has come (log entry 2), the record becomes
LAPSED(X), and MASTERSHIP with cause LAPSED is posted. A stopped timer does not expire. -/
def execLapseTimerExpiry (s : State) : Host.Outcome State Fault Refusal :=
  match s.mastership with
  | .held x expiry =>
    let t := { s with mastership := .lapsed x, clock := max s.clock expiry }
    .next ((Work.start t).raise (t.mastershipEvent .lapsed (some x))).finish
  | _ => .next s

end Sys2Proof.Machine
end

