-- ==== Sys2Proof/Machine/PortOrders.lean ====
section
/-! DEFINITION. The orders of restart control and of the issuing port (R13, R170, R175). -/

namespace Sys2Proof.Machine

/-- RESTART COLD (R170). -/
def execRestartCold (s : State) : Host.Outcome State Fault Refusal :=
  takeOrder (ofCode 0x70) anyCodes .holderOrPortM (fun _ _ s => .restart (s.startCold .orderCold)) s

/-- RESTART KEEP (R170). -/
def execRestartKeep (s : State) : Host.Outcome State Fault Refusal :=
  takeOrder (ofCode 0x71) anyCodes .holderOrPortM (fun _ _ s => .restart (s.startKeep .orderKeep)) s

/-- The empty restart cause set. -/
def CauseSet.empty : CauseSet :=
  { powerOn := false, pin := false, orderCold := false, orderKeep := false }

/-- READ CAUSES (R175): the issuing port's set is reported and emptied. -/
def execReadCauses (s : State) : Host.Outcome State Fault Refusal :=
  takeOrder (ofCode 0x72) anyCodes .anyPort
    (fun p _ s =>
      .plain [causeSetByte (s.port p).causes]
        (s.setPort p { s.port p with causes := CauseSet.empty })) s

/-- SET PORT MODE (R13). -/
def execSetPortMode (s : State) : Host.Outcome State Fault Refusal :=
  takeOrder (ofCode 0x73) (fun params => (portModeOf (paramByte params 0)).isSome) .anyPort
    (fun p params s =>
      let mode := (portModeOf (paramByte params 0)).getD (s.port p).mode
      .plain [portModeCode mode] (s.setPort p { s.port p with mode := mode })) s

end Sys2Proof.Machine
end

