-- ==== Sys2Proof/Machine/StationMessages.lean ====
section
/-! DEFINITION. The station messages (R54, R58 to R66), the deadlines of station records (R63, R69),
the line indications (R50, R51) and the message channels (R57). -/

namespace Sys2Proof.Machine

/-! ### Taking a message (R54) -/

/-- A message from a position passes steps 1 to 3 of R54: no restart is in progress, the port is
ENABLED, and a second set is served. -/
def State.hears (s : State) (position : Nat) : Bool :=
  !s.restarting && (s.line (linePortOf position)).condition == .enabled
    && (position % 2 == 0 || (s.line (linePortOf position)).pairing)

/-- R60: a challenge is issued at a position for an identity with its entry. -/
def Work.issueChallenge (w : Work) (position identity : Nat) (e : DirectoryEntry) : Work :=
  let sequence := nextChallengeState w.state.challengeSequence
  let value := challengeValue sequence
  let w := w.update fun s => { s with challengeSequence := sequence }
  let w := w.update fun s => s.setStationState position
    (.challenged identity value (expectedResponse e.secret value) (s.after s.answerWindow))
  w.update (·.placeMessage position (.challenge value))

/-- R58: the checks of a REGISTER in VACANT, and the challenge or the counted failure. -/
def Work.judgeRegister (w : Work) (position identity : Nat) : Work :=
  match w.state.entry identity with
  | none => w.countFailure position identity .unknown
  | some e =>
    if e.suspended then w.countFailure position identity .suspended
    else if !e.admitsLine (linePortOf position) then w.countFailure position identity .notHere
    else w.issueChallenge position identity e

/-- A REGISTER taken by the position's record (R58, R64, R66, R69, R70). -/
def Work.takeRegister (w : Work) (position identity : Nat) : Work :=
  match (w.state.station position).state with
  | .vacant => w.judgeRegister position identity
  | .admitted _ => (w.withdraw .reregister position).judgeRegister position identity
  | .challenged .. | .holdOff _ | .locked => w

/-- REGISTER (R58). -/
def execRegister (position : Fin 96) (identity : Word16) (s : State) :
    Host.Outcome State Fault Refusal :=
  if s.hears position.val then
    .next ((Work.start s).takeRegister position.val identity.toNat).finish
  else .next s

/-- R61: a station at another position ADMITTED with the identity, if any. -/
def State.admittedElsewhere (s : State) (identity position : Nat) : Option Nat :=
  (List.range 96).find? fun n =>
    n != position && (s.station n).state.admittedIdentity == some identity

/-- R61: a correct ANSWER admits the station, after the identity's station elsewhere is withdrawn. -/
def Work.admitStation (w : Work) (position identity : Nat) : Work :=
  let former := w.state.admittedElsewhere identity position
  let w :=
    match former with
    | some other => w.withdraw .relocated other
    | none => w
  let w := w.update fun s => s.setStation position { s.station position with
    state := .admitted identity
    failures := 0 }
  let w := w.update (·.placeMessage position (.welcome identity))
  w.raise (.admitted position identity former)

/-- An ANSWER taken by the position's record (R61, R62, R84): compared in CHALLENGED, disregarded in
the other states. -/
def Work.takeAnswer (w : Work) (position : Nat) (response : Word16) : Work :=
  match (w.state.station position).state with
  | .challenged identity _ expected _ =>
    if response = expected then w.admitStation position identity
    else w.countFailure position identity .badAnswer
  | .vacant | .admitted _ | .holdOff _ | .locked => w

/-- ANSWER (R61, R62). -/
def execAnswer (position : Fin 96) (response : Word16) (s : State) :
    Host.Outcome State Fault Refusal :=
  if s.hears position.val then .next ((Work.start s).takeAnswer position.val response).finish
  else .next s

/-- A LEAVE taken by the position's record (R64, R66). -/
def Work.takeLeave (w : Work) (position : Nat) : Work :=
  match (w.state.station position).state with
  | .admitted _ => w.withdraw .left position
  | .challenged .. => w.update (·.setStationState position .vacant)
  | .vacant | .holdOff _ | .locked => w

/-- LEAVE (R64, R66). -/
def execLeave (position : Fin 96) (s : State) : Host.Outcome State Fault Refusal :=
  if s.hears position.val then .next ((Work.start s).takeLeave position.val).finish else .next s

/-- SIGNAL (R66): relayed from an ADMITTED station; discarded in the other states, and disregarded
when its length does not fit (R54 step 4). -/
def execSignal (position : Fin 96) (bytes : List Byte) (s : State) :
    Host.Outcome State Fault Refusal :=
  if s.hears position.val && decide (1 ≤ bytes.length) && decide (bytes.length ≤ 8) then
    match (s.station position.val).state with
    | .admitted identity =>
      .next ((Work.start s).raise (.stationSignal position.val identity bytes)).finish
    | .vacant | .challenged .. | .holdOff _ | .locked => .next s
  else .next s

/-- UNFIT_STATION_MESSAGE (R54, R179): disregarded or discarded, with no effect on any state. -/
def execUnfitStationMessage (_line : Fin 48) (_message : List Byte) (s : State) :
    Host.Outcome State Fault Refusal :=
  .next s

/-! ### Deadlines (R63, R69) -/

/-- The time base when a deadline expires (log entry 2). -/
def State.reach (s : State) (instant : Nat) : State := { s with clock := max s.clock instant }

/-- ANSWER_DEADLINE_EXPIRY (R63): a counted failure with reason NO_ANSWER; a record that is not
CHALLENGED has no such deadline. -/
def execAnswerDeadlineExpiry (position : Fin 96) (s : State) : Host.Outcome State Fault Refusal :=
  match (s.station position.val).state with
  | .challenged identity _ _ deadline =>
    .next ((Work.start (s.reach deadline)).countFailure position.val identity .noAnswer).finish
  | .vacant | .admitted _ | .holdOff _ | .locked => .next s

/-- HOLD_OFF_EXPIRY (R69): the record becomes VACANT, silently. -/
def execHoldOffExpiry (position : Fin 96) (s : State) : Host.Outcome State Fault Refusal :=
  match (s.station position.val).state with
  | .holdOff deadline => .next ((s.reach deadline).setStationState position.val .vacant)
  | .vacant | .challenged .. | .admitted _ | .locked => .next s

/-! ### Message channels (R57) -/

/-- A position has a message waiting. -/
def Station.waiting (st : Station) : Bool := st.slot.isSome || !st.deliver.isEmpty

/-- The message a position sends next: the one in its slot, else the head of its deliver queue; and
the record without it. -/
def Station.nextMessage (st : Station) : Option (StationMessage × Station) :=
  match st.slot with
  | some message => some (message, { st with slot := none })
  | none =>
    match st.deliver with
    | bytes :: rest => some (.deliver bytes, { st with deliver := rest })
    | [] => none

/-- The position the channel serves, as second set or not: with both waiting, the one that is not
last-served; else the one that has a message. -/
def servedSecond (l : LinePort) (principal second : Station) : Option Bool :=
  if principal.waiting && second.waiting then some (!l.lastSecond)
  else if principal.waiting then some false
  else if second.waiting then some true
  else none

/-- The channel of a line port may begin to send: it is free, the link is UP, the port is ENABLED, and
no restart is in progress. -/
def State.channelReady (s : State) (line : Nat) : Bool :=
  !s.restarting && (s.line line).sending.isNone && (s.line line).linkUp
    && (s.line line).condition == .enabled

/-- R57: the channel of a line port begins to send the next message of the served set. -/
def State.sendFrom (s : State) (line : Nat) (second : Bool) : State :=
  let position := 2 * line + (if second then 1 else 0)
  match (s.station position).nextMessage with
  | some (message, rest) =>
    (s.setStation position rest).setLine line { s.line line with
      lastSecond := second
      sending := some (stationMessageBytes second message) }
  | none => s

/-- BEGIN_SEND (R57): nothing while the channel may not send or no message waits. -/
def execBeginSend (line : Fin 48) (s : State) : Host.Outcome State Fault Refusal :=
  if s.channelReady line.val then
    match servedSecond (s.line line.val) (s.station (2 * line.val))
        (s.station (2 * line.val + 1)) with
    | some second => .next (s.sendFrom line.val second)
    | none => .next s
  else .next s

/-- SEND_COMPLETION (R57): the channel is free again. -/
def execSendCompletion (line : Fin 48) (s : State) : Host.Outcome State Fault Refusal :=
  .next (s.setLine line.val { s.line line.val with sending := none })

end Sys2Proof.Machine
end

