-- ==== Sys2Proof/Machine/SwitchingOrders.lean ====
section
/-! DEFINITION. RELEASE, SET MUTE CODE and the looks at the network (R99 to R101, R104, R107,
R108). -/

namespace Sys2Proof.Machine

/-! ### RELEASE -/

/-- The RELEASE orders in mode BY_TAG. -/
def isReleaseByTag (order : OrderRecord) : Bool :=
  order.code == 0x31 && paramByte order.params 0 == 1

/-- The other RELEASE orders: mode BY_ID, and those whose mode or length does not fit (log entry
19). -/
def isReleaseById (order : OrderRecord) : Bool :=
  order.code == 0x31 && paramByte order.params 0 != 1

/-- R99: the effect of RELEASE BY_ID. -/
def releaseId (id : Nat) (s : State) : Answer :=
  if decide (159 < id) then .refuse .range []
  else
    match s.connection id with
    | none => .refuse .noEntry []
    | some c =>
      if c.traceHeld then .refuse .traceHold []
      else .done (byteOf id :: bytesOfWord16 c.callTag ++ [connectionStateCode c.live])
        ((Work.start s).release none c)

/-- R100: the effect of RELEASE BY_TAG. -/
def releaseTag (tag : Word16) (s : State) : Answer :=
  if (s.connections.countP fun c => c.callTag == tag) = 0 then .refuse .noEntry []
  else
    .done (bytesOfWord16 tag
        ++ [byteOf (s.connections.countP fun c => c.callTag == tag && !c.traceHeld),
            byteOf (s.connections.countP fun c => c.callTag == tag && c.traceHeld)])
      ((Work.start s).releaseWhere none fun c => c.callTag == tag && !c.traceHeld)

/-- RELEASE in mode BY_ID (R99). -/
def execReleaseById (s : State) : Host.Outcome State Fault Refusal :=
  takeOrder isReleaseById (fun params => isFlag (paramByte params 0)) .holderOnly
    (fun _ params s => releaseId (param2 params 1) s) s

/-- RELEASE in mode BY_TAG (R100). -/
def execReleaseByTag (s : State) : Host.Outcome State Fault Refusal :=
  takeOrder isReleaseByTag (fun params => isFlag (paramByte params 0)) .holderOnly
    (fun _ params s => releaseTag (paramWord params 1) s) s

/-- SET MUTE CODE (R104). -/
def execSetMuteCode (s : State) : Host.Outcome State Fault Refusal :=
  takeOrder (ofCode 0x32) anyCodes .holderOnly
    (fun _ params s => .plain [paramByte params 0] { s with muteCode := paramByte params 0 }) s

/-! ### Looking at the network -/

/-- The privacy part of a record as result fields: direction, key context, leg (R88, R107). -/
def privacyFields (part : Option PrivacyPart) : List Byte :=
  match part with
  | some p => [directionCode p.direction, byteOf p.key, byteOf p.leg]
  | none => [0xFF, 0xFF, 0xFF]

/-- Every field of a record (R107). -/
def connectionFields (c : Connection) : List Byte :=
  [byteOf c.id, connectionStateCode c.live, byteOf c.source, byteOf c.destination]
    ++ bytesOfWord16 c.callTag ++ byteOf c.cls :: privacyFields c.privacy ++ [yesNo c.traceHeld]

/-- The three record counts of R107. -/
def recordCountFields (s : State) : List Byte :=
  [byteOf s.recordCount, byteOf s.pendingCount, byteOf s.privacyCount]

/-- LOOK CONNECTION (R107). -/
def execLookConnection (s : State) : Host.Outcome State Fault Refusal :=
  takeOrder (ofCode 0x33) anyCodes .anyPort
    (fun _ params s =>
      if decide (159 < param1 params 0) then .refuse .range []
      else
        match s.connection (param1 params 0) with
        | some c => .plain (connectionFields c) s
        | none => .refuse .noEntry []) s

/-- R107: the record LOOK NEXT CONNECTION reports: the lowest id at or above the starting id, of the
tag when one is named (the table is kept in ascending id). -/
def State.nextConnection (s : State) (id : Nat) (tag : Option Word16) : Option Connection :=
  s.connections.find? fun c =>
    decide (id ≤ c.id) && (match tag with | some t => c.callTag == t | none => true)

/-- LOOK NEXT CONNECTION (R107). -/
def execLookNextConnection (s : State) : Host.Outcome State Fault Refusal :=
  takeOrder (ofCode 0x34) (fun params => isFlag (paramByte params 1)) .anyPort
    (fun _ params s =>
      if decide (159 < param1 params 0) then .refuse .range []
      else
        match s.nextConnection (param1 params 0)
            (if flagSet (paramByte params 1) then some (paramWord params 2) else none) with
        | some c => .plain (connectionFields c ++ recordCountFields s) s
        | none => .refuse .noEntry (recordCountFields s)) s

/-- The kind of an endpoint: 0 station, 1 trunk, 2 service (R176). -/
def endpointKind (e : Nat) : Byte := if isStation e then 0 else if isTrunk e then 1 else 2

/-- R108: the use of an endpoint. -/
def endpointFields (s : State) (e : Nat) : List Byte :=
  [endpointKind e, optionalByte (if isTrunk e then some (slotOf e) else none),
    optionalByte ((s.feeder e).map (·.id)),
    byteOf (s.connections.countP fun c => c.source == e),
    optionalByte ((s.connections.find? fun c => c.source == e).map (·.id))]

/-- LOOK ENDPOINT (R108). -/
def execLookEndpoint (s : State) : Host.Outcome State Fault Refusal :=
  takeOrder (ofCode 0x35) anyCodes .anyPort
    (fun _ params s =>
      if decide (175 < param1 params 0) then .refuse .range []
      else .plain (endpointFields s (param1 params 0)) s) s

/-- LOOK NETWORK (R108). DEDUCED: the number of free ids takes one byte, which 12.1 does not say (log
entry 28). -/
def execLookNetwork (s : State) : Host.Outcome State Fault Refusal :=
  takeOrder (ofCode 0x36) anyCodes .anyPort
    (fun _ _ s =>
      .plain (bytes4 s.frameCounter ++ s.muteCode :: recordCountFields s
        ++ [byteOf (Config.tableSize - s.recordCount)]) s) s

end Sys2Proof.Machine
end

