-- ==== Sys2Proof/Machine/TraceOrders.lean ====
section
/-! DEFINITION. The orders of the trace unit (R161, R164, R166, R167). -/

namespace Sys2Proof.Machine

/-- The identity a watch watches, absent in IDLE (R160). -/
def Watch.identity : Watch → Option Nat
  | .idle => none
  | .armed identity _ => some identity
  | .tripped identity _ _ _ => some identity

/-- The hold request, absent in IDLE (R160). -/
def Watch.holdRequest : Watch → Option Bool
  | .idle => none
  | .armed _ request => some request
  | .tripped _ request _ _ => some request

/-- The hold flag: set only in TRIPPED (R160). -/
def Watch.holdFlag : Watch → Bool
  | .tripped _ _ hold _ => hold
  | _ => false

/-- R161: the effect of ARM WATCH. -/
def armWatchOn (identity : Nat) (request : Bool) (s : State) : Answer :=
  if !identityInRange identity then .refuse .range []
  else if s.watches.toList.any fun w => w.identity == some identity then
    .refuse .alreadyExists []
  else
    match (List.range 4).find? fun n => s.watch n == .idle with
    | none => .refuse .full []
    | some n =>
      .plain (byteOf n :: bytes2 identity ++ [yesNo request]) (s.setWatch n (.armed identity request))

/-- ARM WATCH (R161). -/
def execArmWatch (s : State) : Host.Outcome State Fault Refusal :=
  takeOrder (ofCode 0x60) (fun params => isFlag (paramByte params 2)) .portMOnly
    (fun _ params s => armWatchOn (param2 params 0) (flagSet (paramByte params 2)) s) s

/-- The reply of CLEAR TRACE and DISARM WATCH: the watch index, the state before the order, whether a
hold was in force before it (R166). -/
def watchBeforeFields (n : Nat) (s : State) : List Byte :=
  [byteOf n, watchStateCode (s.watch n), yesNo (s.watch n).holdFlag]

/-- DISARM WATCH (R166): the hold is cleared, the trace record discarded, the watch IDLE. -/
def execDisarmWatch (s : State) : Host.Outcome State Fault Refusal :=
  takeOrder (ofCode 0x61) anyCodes .portMOnly
    (fun _ params s =>
      let n := param1 params 0
      if decide (3 < n) then .refuse .range []
      else .plain (watchBeforeFields n s) ((s.clearHold n).setWatch n .idle)) s

/-- R166: the effect of CLEAR TRACE. -/
def clearTraceOf (n : Nat) (s : State) : Answer :=
  if decide (3 < n) then .refuse .range []
  else
    match s.watch n with
    | .idle => .refuse .noEntry []
    | .armed .. => .plain (watchBeforeFields n s) s
    | .tripped identity request _ _ =>
      .plain (watchBeforeFields n s) ((s.clearHold n).setWatch n (.armed identity request))

/-- CLEAR TRACE (R166). -/
def execClearTrace (s : State) : Host.Outcome State Fault Refusal :=
  takeOrder (ofCode 0x62) anyCodes .portMOnly (fun _ params s => clearTraceOf (param1 params 0) s) s

/-- The traced record still stands and is trace-held (R164): a record released since the trip is not,
whatever record has its id now (R165). -/
def State.tracedStillHeld (s : State) (trace : TraceRecord) : Bool :=
  !trace.releasedSince && ((s.connection trace.connectionId).map (·.traceHeld)).getD false

/-- R164: the effect of RELEASE HOLD. -/
def releaseHoldOf (n : Nat) (s : State) : Answer :=
  if decide (3 < n) then .refuse .range []
  else
    match s.watch n with
    | .idle | .armed .. => .refuse .noEntry []
    | .tripped _ _ hold trace =>
      .plain [byteOf n, yesNo hold, yesNo ((s.clearHold n).tracedStillHeld trace)] (s.clearHold n)

/-- RELEASE HOLD (R164). -/
def execReleaseHold (s : State) : Host.Outcome State Fault Refusal :=
  takeOrder (ofCode 0x63) anyCodes .portMOnly (fun _ params s => releaseHoldOf (param1 params 0) s) s

/-- The trace record as result fields, or its absence; the absent call tag and frame number are free
(R160, R167; log entry 9). -/
def traceFields (free : List Byte) (w : Watch) : List Byte :=
  match w with
  | .tripped _ _ _ t =>
    byteOf t.connectionId :: bytesOfWord16 t.callTag
      ++ [byteOf t.watchedPosition, traceRoleCode t.role, byteOf t.otherEndpoint]
      ++ optionalIdentity t.otherIdentity ++ bytes4 t.frameNumber ++ [yesNo t.releasedSince]
  | _ =>
    0xFF :: free.take 2 ++ [0xFF, 0xFF, 0xFF] ++ optionalIdentity none ++ free.drop 2 ++ [0xFF]

/-- The number of free bytes in a LOOK WATCH reply: an absent call tag and an absent frame number. -/
def freeBytesOfWatch (w : Watch) : Nat :=
  match w with
  | .tripped .. => 0
  | _ => 6

/-- R167: the effect of LOOK WATCH. -/
def lookWatchOf (n : Nat) (s : State) : Answer :=
  if decide (3 < n) then .refuse .range []
  else
    .plain
      ([byteOf n, watchStateCode (s.watch n)] ++ optionalIdentity (s.watch n).identity
        ++ [((s.watch n).holdRequest.map yesNo).getD 0xFF, yesNo (s.watch n).holdFlag]
        ++ traceFields (s.freeBytes (freeBytesOfWatch (s.watch n))) (s.watch n))
      (s.drawn (freeBytesOfWatch (s.watch n)))

/-- LOOK WATCH (R167). -/
def execLookWatch (s : State) : Host.Outcome State Fault Refusal :=
  takeOrder (ofCode 0x64) anyCodes .portMOnly (fun _ params s => lookWatchOf (param1 params 0) s) s

end Sys2Proof.Machine
end

