-- ==== Sys2Proof/Machine/Transfers.lean ====
section
/-! DEFINITION. The transfers of the order ports (R2 to R5): a transfer sends its status byte first;
what the rest of it does is decided by what that byte showed and by what has happened since (log entry
5). -/

namespace Sys2Proof.Machine

/-- The status byte of a port as it would be formed now (R2). -/
def State.statusByteOf (s : State) (p : Port) : Byte :=
  statusByte p (s.port p) s.mastership s.restarting

/-- A transfer starts on a port: its status byte is formed and sent (R2). -/
def State.openTransfer (s : State) (p : Port) : State :=
  s.setPort p { s.port p with
    transfer := some
      { admits := decide ((s.port p).orders.length < Config.orderQueueSize) && !s.restarting
        lostSince := false
        restartSince := false
        statusByte := s.statusByteOf p }
    sent := [s.statusByteOf p] }

/-- The state in which the rest of a transfer comes: the transfer is open, opened now if it was
not. -/
def State.inTransfer (s : State) (p : Port) : State :=
  if (s.port p).transfer.isSome then s else s.openTransfer p

/-- R3: the rest of an ORDER transfer. The record is appended when the status byte showed a free entry
and RESTARTING clear, no restart has begun since, and the record is complete; else it is discarded. -/
def completeOrder (received : List Byte) (port : PortState) : PortState :=
  match port.transfer, orderRecordOf received with
  | some t, some order =>
    { port with
      transfer := none
      orders := if t.admits && !t.restartSince then port.orders ++ [order] else port.orders }
  | _, _ => { port with transfer := none }

/-- R4: the rest of a FETCH transfer: the oldest entry leaves the queue and is sent, or EMPTY is. -/
def completeFetch (port : PortState) : PortState :=
  match port.out with
  | entry :: rest =>
    { port with transfer := none, out := rest, sent := port.sent ++ entryBytes entry }
  | [] => { port with transfer := none, sent := port.sent ++ emptyEntryBytes }

/-- R5: the rest of a STATUS transfer: the missed-events flag is cleared unless an event bound for the
port has been discarded since the status byte was formed. -/
def completeStatus (port : PortState) : PortState :=
  { port with
    transfer := none
    missed :=
      match port.transfer with
      | some t => port.missed && t.lostSince
      | none => port.missed }

/-- ORDER_TRANSFER (R3). -/
def execOrderTransfer (p : Port) (part : TransferPart) (record : List Byte) (s : State) :
    Host.Outcome State Fault Refusal :=
  match part with
  | .opening => .next (s.openTransfer p)
  | .completing =>
    .next ((s.inTransfer p).setPort p (completeOrder record ((s.inTransfer p).port p)))

/-- FETCH_TRANSFER (R4). -/
def execFetchTransfer (p : Port) (part : TransferPart) (s : State) :
    Host.Outcome State Fault Refusal :=
  match part with
  | .opening => .next (s.openTransfer p)
  | .completing => .next ((s.inTransfer p).setPort p (completeFetch ((s.inTransfer p).port p)))

/-- STATUS_TRANSFER (R5). -/
def execStatusTransfer (p : Port) (part : TransferPart) (s : State) :
    Host.Outcome State Fault Refusal :=
  match part with
  | .opening => .next (s.openTransfer p)
  | .completing => .next ((s.inTransfer p).setPort p (completeStatus ((s.inTransfer p).port p)))

/-- UNKNOWN_TRANSFER_KIND (R2): the transfer ends after its status byte, whatever byte came; no queue,
flag or table changes. -/
def execUnknownTransferKind (p : Port) (_kind : Option Byte) (s : State) :
    Host.Outcome State Fault Refusal :=
  .next ((s.inTransfer p).setPort p { (s.inTransfer p).port p with transfer := none })

end Sys2Proof.Machine
end

