-- ==== Sys2Proof/Machine/Connect.lean ====
section
/-! DEFINITION. CONNECT (R90 to R97): its checks in their order, the take checks of trunk groups and
the choice of preemption victims (R117 to R121), and the making of the record (R134). -/

namespace Sys2Proof.Machine

/-- The parameters of CONNECT (R92). `key` is the key context index when the key marker is
PRESENT. -/
structure ConnectRequest where
  source : Nat
  destination : Nat
  callTag : Word16
  cls : Nat
  key : Option Nat
  start : Byte
  preempt : Bool
  deriving DecidableEq, Repr

/-- The parameters in the order of R177. -/
def connectRequest (params : List Byte) : ConnectRequest where
  source := param1 params 0
  destination := param1 params 1
  callTag := paramWord params 2
  cls := param1 params 4
  key := if flagSet (paramByte params 5) then some (param1 params 6) else none
  start := paramByte params 7
  preempt := flagSet (paramByte params 8)

/-! ### Class (R90) -/

/-- R90: the class of the record. -/
def State.recordedClass (s : State) (r : ConnectRequest) : Nat :=
  if isService r.source then
    if isStation r.destination then
      if (s.identityAt r.destination).isSome then s.effectiveClass r.destination else 0
    else r.cls
  else if isStation r.source && isStation r.destination then
    max (s.effectiveClass r.source) (s.effectiveClass r.destination)
  else if isStation r.source then s.effectiveClass r.source
  else if isStation r.destination then s.effectiveClass r.destination
  else r.cls

/-! ### Checks 2 to 10 (R92 to R95) -/

/-- Check 2. -/
def ConnectRequest.outOfRange (r : ConnectRequest) : Bool :=
  decide (175 < r.source) || decide (159 < r.destination) || r.source == r.destination
    || decide (3 < r.cls) || decide (31 < r.key.getD 0)

/-- Check 4: with no service source, every station endpoint is ADMITTED. -/
def State.lacksAdmission (s : State) (r : ConnectRequest) : Bool :=
  !isService r.source
    && ((isStation r.source && (s.identityAt r.source).isNone)
      || (isStation r.destination && (s.identityAt r.destination).isNone))

/-- The endpoint is a trunk slot in OUT_OF_SERVICE mode. -/
def State.trunkOut (s : State) (e : Nat) : Bool :=
  isTrunk e && (s.slot (slotOf e)).mode == .outOfService

/-- The station and the trunk of a record that joins one to the other (R94). -/
def ConnectRequest.stationAndTrunk (r : ConnectRequest) : Option (Nat × Nat) :=
  if isStation r.source && isTrunk r.destination then some (r.source, r.destination)
  else if isTrunk r.source && isStation r.destination then some (r.destination, r.source)
  else none

/-- Checks 6 and 7 (R94): the directory entry of the station's identity is judged against the trunk.
A station without an entry, which R39 rules out, is BARRED (log entry 17). -/
def State.serviceCheck (s : State) (r : ConnectRequest) : Option OutcomeCode :=
  match r.stationAndTrunk with
  | none => none
  | some (station, trunk) =>
    match (s.identityAt station).bind s.entry with
    | none => some .barred
    | some e =>
      if failsMask s e trunk then some .barred
      else if failsPrivacy s e trunk r.key.isSome then some .privacy
      else none

/-- Check 8 (R95). -/
def State.keyRefused (s : State) (r : ConnectRequest) : Bool :=
  match r.key with
  | none => false
  | some k => (s.key k).material.isNone || s.isTie r.source == s.isTie r.destination

/-- The free leg context of lowest index (R134). -/
def State.lowestFreeLeg (s : State) : Option Nat :=
  (List.range 64).find? fun n => (s.leg n).isNone

/-- Checks 2 to 10 in their order: the first that fails. -/
def State.connectRefusal (s : State) (r : ConnectRequest) : Option OutcomeCode :=
  if r.outOfRange then some .range
  else if (s.feeder r.destination).isSome then some .destBusy
  else if s.lacksAdmission r then some .notAdmitted
  else if s.trunkOut r.source || s.trunkOut r.destination then some .trunkOut
  else
    match s.serviceCheck r with
    | some outcome => some outcome
    | none =>
      if s.keyRefused r then some .keyState
      else if decide (Config.tableSize ≤ s.recordCount) then some .full
      else if r.key.isSome && s.lowestFreeLeg.isNone then some .noLeg
      else none

/-! ### Check 11 (R96, R118 to R121) -/

/-- The slot of a trunk endpoint that no record names (R96). -/
def State.newlyBusy (s : State) (e : Nat) : Bool := isTrunk e && !s.named e

/-- R117: the highest class among the records that name an endpoint; absent when none does. -/
def State.holdingClass (s : State) (e : Nat) : Option Nat :=
  ((s.connections.filter fun c => c.names e).map (·.cls)).max?

/-- Some record naming the endpoint is trace-held (R120). -/
def State.traceHeldAt (s : State) (e : Nat) : Bool :=
  s.connections.any fun c => c.names e && c.traceHeld

/-- A record naming the endpoint also names a trunk endpoint of the CONNECT (R120). -/
def State.sharesTrunk (s : State) (r : ConnectRequest) (e : Nat) : Bool :=
  s.connections.any fun c => c.names e
    && ((isTrunk r.source && c.names r.source)
      || (isTrunk r.destination && c.names r.destination))

/-- R120: the candidates of a preemption in a group, in ascending slot number, less the slots
excluded. -/
def State.candidates (s : State) (r : ConnectRequest) (k group : Nat) (excluded : List Nat) :
    List Nat :=
  (List.range 64).filter fun n =>
    (s.slot n).group == group && s.named (endpointOfSlot n)
      && !s.traceHeldAt (endpointOfSlot n)
      && decide ((s.holdingClass (endpointOfSlot n)).getD 0 < k)
      && !s.sharesTrunk r (endpointOfSlot n)
      && !excluded.contains n

/-- R121: of two slots in ascending number, the victim is the one of lower holding class, the first
where they share it. -/
def State.betterVictim (s : State) (best : Option Nat) (n : Nat) : Option Nat :=
  match best with
  | none => some n
  | some m =>
    if (s.holdingClass (endpointOfSlot n)).getD 0 < (s.holdingClass (endpointOfSlot m)).getD 0 then
      some n
    else some m

/-- R121: the victim among the candidates. DEDUCED: the holding classes that rank the candidates are
those of the table at the take, for the second slot too (log entry 26). -/
def State.victim (s : State) (r : ConnectRequest) (k group : Nat) (excluded : List Nat) :
    Option Nat :=
  (s.candidates r k group excluded).foldl s.betterVictim none

/-- The judgement of one newly busy slot: it passes, with a victim noted or without, or fails. -/
inductive Judgement where
  | passes (victim : Option Nat)
  | fails (outcome : OutcomeCode)
  deriving DecidableEq, Repr

/-- R118: the tests of a slot against its group, with the count c, in order. -/
def State.judgeSlot (s : State) (r : ConnectRequest) (k e c : Nat) (excluded : List Nat) :
    Judgement :=
  let number := (s.slot (slotOf e)).group
  let group := s.group number
  if group.quota ≤ c then
    if r.preempt then
      match s.victim r k number excluded with
      | some v => .passes (some v)
      | none => .fails .groupFull
    else .fails .groupFull
  else if group.quota - group.reserve ≤ c && decide (k < group.reserveClass) then
    .fails .groupReserved
  else if group.congested && k == 0 then .fails .congested
  else .passes none

/-- R119: the slots that no record would name once a victim's records had been released: busy now, and
every record naming them names the victim too (log entry 22). -/
def State.freedWith (s : State) (victim : Nat) : List Nat :=
  (List.range 64).filter fun n =>
    s.named (endpointOfSlot n)
      && s.connections.all fun c =>
        !c.names (endpointOfSlot n) || c.names (endpointOfSlot victim)

/-- R119: the count for the destination's slot, given the source's judgement. -/
def State.secondCount (s : State) (r : ConnectRequest) (freed : List Nat) : Nat :=
  let number := (s.slot (slotOf r.destination)).group
  (s.group number).busy
    + (if s.newlyBusy r.source && (s.slot (slotOf r.source)).group == number then 1 else 0)
    - (freed.countP fun n => (s.slot n).group == number)

/-- Check 11: the source's slot, then the destination's; the outcome of the slot that failed, or the
victims noted, in order (R96, R119). The count and the candidates of the second slot are adjusted as
R119 says, and nothing else: the holding classes are those at the take (log entry 26). -/
def State.judgeTake (s : State) (r : ConnectRequest) (k : Nat) : Except OutcomeCode (List Nat) :=
  let first :=
    if s.newlyBusy r.source then
      s.judgeSlot r k r.source (s.group (s.slot (slotOf r.source)).group).busy []
    else .passes none
  match first with
  | .fails outcome => .error outcome
  | .passes v =>
    let freed := (v.map s.freedWith).getD []
    let second :=
      if s.newlyBusy r.destination then
        s.judgeSlot r k r.destination (s.secondCount r freed) freed
      else .passes none
    match second with
    | .fails outcome => .error outcome
    | .passes u => .ok (v.toList ++ u.toList)

/-! ### The take (R97) -/

/-- R97 step 4, R116: a newly busy slot is counted into its group. -/
def Work.enterSlot (w : Work) (e : Nat) : Work := w.recount (w.state.slot (slotOf e)).group (· + 1)

/-- R121: the records of a victim slot are released with reason PREEMPTED. -/
def Work.preempt (w : Work) (victim : Nat) : Work :=
  w.releaseWhere (some .preempted) fun c => c.names (endpointOfSlot victim)

/-- R91: SCRAMBLE when the TIE trunk is the destination. -/
def State.directionOf (s : State) (r : ConnectRequest) : Direction :=
  if s.isTie r.destination then .scramble else .descramble

/-- R97 step 3, R134: the privacy part of the record to be made, when a key is named. -/
def State.privacyPartFor (s : State) (r : ConnectRequest) : Option PrivacyPart :=
  r.key.map fun k =>
    { direction := s.directionOf r, key := k, leg := s.lowestFreeLeg.getD 0 }

/-- R134: the leg context is allocated in WAITING and the key context's use count rises. -/
def State.allocateLeg (s : State) (start : Byte) (part : PrivacyPart) : State :=
  (s.setLeg part.leg (some
    { key := part.key
      state :=
        match part.direction with
        | .scramble => .waitingScramble start
        | .descramble => .waitingDescramble })).setKey part.key
    { s.key part.key with useCount := (s.key part.key).useCount + 1 }

/-- R97 step 2: the record a CONNECT makes. -/
def State.newConnection (s : State) (r : ConnectRequest) (cls : Nat) : Connection where
  id := s.lowestFreeId.getD 0
  live := false
  source := r.source
  destination := r.destination
  callTag := r.callTag
  cls := cls
  privacy := s.privacyPartFor r
  traceHeld := false

/-- R97 steps 2 to 4. -/
def Work.makeConnection (w : Work) (r : ConnectRequest) (c : Connection) : Work :=
  let newly := [c.source, c.destination].filter w.state.newlyBusy
  let w := w.update fun s => { s with connections := insertConnection c s.connections }
  let w := w.update fun s => (c.privacy.map (s.allocateLeg r.start)).getD s
  newly.foldl Work.enterSlot w

/-- R97: the result fields of a CONNECT that is taken. -/
def connectFields (c : Connection) (preempted : Nat) : List Byte :=
  [byteOf c.id, byteOf c.cls,
    (c.privacy.map fun part => directionCode part.direction).getD 0xFF,
    optionalByte (c.privacy.map (·.leg)), byteOf preempted]

/-- R92, R97: the checks and the effect of CONNECT. -/
def connectTake (r : ConnectRequest) (s : State) : Answer :=
  match s.connectRefusal r with
  | some outcome => .refuse outcome []
  | none =>
    match s.judgeTake r (s.recordedClass r) with
    | .error outcome => .refuse outcome []
    | .ok victims =>
      let w := victims.foldl Work.preempt (Work.start s)
      let c := w.state.newConnection r (s.recordedClass r)
      .done (connectFields c (releasedBetween s w.state)) (w.makeConnection r c)

/-- CONNECT (R92). -/
def execConnect (s : State) : Host.Outcome State Fault Refusal :=
  takeOrder (ofCode 0x30)
    (fun params => isFlag (paramByte params 5) && isFlag (paramByte params 8)) .holderOnly
    (fun _ params s => connectTake (connectRequest params) s) s

end Sys2Proof.Machine
end

