-- ==== Sys2Proof/Machine/TrunkOrders.lean ====
section
/-! DEFINITION. The orders of the trunk group unit (R111, R112, R114, R124). -/

namespace Sys2Proof.Machine

/-! ### Trunk slots -/

/-- R111: the effect of SET TRUNK. -/
def setTrunkSlot (params : List Byte) (s : State) : Answer :=
  let n := param1 params 0
  let group := param1 params 2
  if decide (63 < n) || decide (7 < group) then .refuse .range []
  else if s.named (endpointOfSlot n) then .refuse .inUse []
  else
    .plain [byteOf n, paramByte params 1, byteOf group]
      (s.setSlot n
        { mode := (trunkModeOf (paramByte params 1)).getD .outOfService, group := group })

/-- SET TRUNK (R111). -/
def execSetTrunk (s : State) : Host.Outcome State Fault Refusal :=
  takeOrder (ofCode 0x40) (fun params => (trunkModeOf (paramByte params 1)).isSome) .holderOnly
    (fun _ params s => setTrunkSlot params s) s

/-- R112: the record of a slot. -/
def trunkFields (s : State) (n : Nat) : List Byte :=
  [byteOf n, byteOf (endpointOfSlot n), trunkModeCode (s.slot n).mode, byteOf (s.slot n).group,
    yesNo (s.named (endpointOfSlot n)),
    byteOf (s.connections.countP fun c => c.names (endpointOfSlot n)),
    optionalByte (s.holdingClass (endpointOfSlot n)), yesNo (s.traceHeldAt (endpointOfSlot n))]

/-- LOOK TRUNK (R112). -/
def execLookTrunk (s : State) : Host.Outcome State Fault Refusal :=
  takeOrder (ofCode 0x42) anyCodes .anyPort
    (fun _ params s =>
      if decide (63 < param1 params 0) then .refuse .range []
      else .plain (trunkFields s (param1 params 0)) s) s

/-! ### Trunk groups -/

/-- R114: the settings of a group, each threshold clamped against the values already clamped. -/
def clampedSettings (params : List Byte) (g : Group) : Group :=
  let quota := clampTo 0 64 (param1 params 1)
  let onset := clampTo 1 64 (param1 params 4)
  { g with
    quota := quota
    reserve := clampTo 0 quota (param1 params 2)
    reserveClass := param1 params 3
    onset := onset
    abatement := clampTo 0 (onset - 1) (param1 params 5) }

/-- A group with its settings, busy count and congestion state (R114, R124). -/
def groupFields (n : Nat) (g : Group) : List Byte :=
  [byteOf n, byteOf g.quota, byteOf g.reserve, byteOf g.reserveClass, byteOf g.onset,
    byteOf g.abatement, byteOf g.busy, yesNo g.congested]

/-- R114: the effect of SET GROUP. -/
def setGroupSettings (params : List Byte) (s : State) : Answer :=
  let n := param1 params 0
  if decide (7 < n) || param1 params 3 == 0 || decide (3 < param1 params 3) then .refuse .range []
  else
    let w := (Work.start (s.setGroup n (clampedSettings params (s.group n)))).reevaluate n
    .done (groupFields n (w.state.group n)) w

/-- SET GROUP (R114). -/
def execSetGroup (s : State) : Host.Outcome State Fault Refusal :=
  takeOrder (ofCode 0x41) anyCodes .holderOnly (fun _ params s => setGroupSettings params s) s

/-- The number of slots of a group in a mode (R124). -/
def State.memberCount (s : State) (group : Nat) (mode : TrunkMode) : Nat :=
  s.slots.toList.countP fun slot => slot.group == group && slot.mode == mode

/-- R124: the lowest holding class among the group's busy slots that carry no trace-held record. -/
def State.lowestHolding (s : State) (group : Nat) : Option Nat :=
  ((List.range 64).filterMap fun n =>
    if (s.slot n).group == group && !s.traceHeldAt (endpointOfSlot n) then
      s.holdingClass (endpointOfSlot n)
    else none).min?

/-- LOOK GROUP (R124). -/
def execLookGroup (s : State) : Host.Outcome State Fault Refusal :=
  takeOrder (ofCode 0x43) anyCodes .anyPort
    (fun _ params s =>
      let n := param1 params 0
      if decide (7 < n) then .refuse .range []
      else
        .plain (groupFields n (s.group n)
          ++ [byteOf (s.memberCount n .outOfService), byteOf (s.memberCount n .publicTrunk),
              byteOf (s.memberCount n .tie), optionalByte (s.lowestHolding n)]) s) s

end Sys2Proof.Machine
end

