-- ==== Sys2Proof/Machine/Dispatch.lean ====
section
/-! DEFINITION. One arm per row of the table of operations and events, each a direct call of the row's
meaning. -/

namespace Sys2Proof.Machine

def exec (i : Instr) (s : State) : Host.Outcome State Fault Refusal :=
  match i with
  | .orderTransfer port part record => Sys2Proof.Machine.execOrderTransfer port part record s
  | .fetchTransfer port part => Sys2Proof.Machine.execFetchTransfer port part s
  | .statusTransfer port part => Sys2Proof.Machine.execStatusTransfer port part s
  | .unknownTransferKind port kind => Sys2Proof.Machine.execUnknownTransferKind port kind s
  | .unknownOrder => Sys2Proof.Machine.execUnknownOrder s
  | .claim => Sys2Proof.Machine.execClaim s
  | .pulse => Sys2Proof.Machine.execPulse s
  | .yield => Sys2Proof.Machine.execYield s
  | .assign => Sys2Proof.Machine.execAssign s
  | .setLapse => Sys2Proof.Machine.execSetLapse s
  | .lookMastership => Sys2Proof.Machine.execLookMastership s
  | .enter => Sys2Proof.Machine.execEnter s
  | .remove => Sys2Proof.Machine.execRemove s
  | .setSecret => Sys2Proof.Machine.execSetSecret s
  | .amend => Sys2Proof.Machine.execAmend s
  | .suspend => Sys2Proof.Machine.execSuspend s
  | .resume => Sys2Proof.Machine.execResume s
  | .lookEntry => Sys2Proof.Machine.execLookEntry s
  | .lookNextEntry => Sys2Proof.Machine.execLookNextEntry s
  | .setPrecedenceMap => Sys2Proof.Machine.execSetPrecedenceMap s
  | .lookPrecedenceMap => Sys2Proof.Machine.execLookPrecedenceMap s
  | .setPort => Sys2Proof.Machine.execSetPort s
  | .lookPort => Sys2Proof.Machine.execLookPort s
  | .withdraw => Sys2Proof.Machine.execWithdraw s
  | .deliver => Sys2Proof.Machine.execDeliver s
  | .releaseLockout => Sys2Proof.Machine.execReleaseLockout s
  | .lookStation => Sys2Proof.Machine.execLookStation s
  | .setAdmissionTimes => Sys2Proof.Machine.execSetAdmissionTimes s
  | .lookAdmissionTimes => Sys2Proof.Machine.execLookAdmissionTimes s
  | .seedChallenge => Sys2Proof.Machine.execSeedChallenge s
  | .connect => Sys2Proof.Machine.execConnect s
  | .releaseById => Sys2Proof.Machine.execReleaseById s
  | .releaseByTag => Sys2Proof.Machine.execReleaseByTag s
  | .setMuteCode => Sys2Proof.Machine.execSetMuteCode s
  | .lookConnection => Sys2Proof.Machine.execLookConnection s
  | .lookNextConnection => Sys2Proof.Machine.execLookNextConnection s
  | .lookEndpoint => Sys2Proof.Machine.execLookEndpoint s
  | .lookNetwork => Sys2Proof.Machine.execLookNetwork s
  | .setTrunk => Sys2Proof.Machine.execSetTrunk s
  | .setGroup => Sys2Proof.Machine.execSetGroup s
  | .lookTrunk => Sys2Proof.Machine.execLookTrunk s
  | .lookGroup => Sys2Proof.Machine.execLookGroup s
  | .loadKey => Sys2Proof.Machine.execLoadKey s
  | .eraseKey => Sys2Proof.Machine.execEraseKey s
  | .lookKey => Sys2Proof.Machine.execLookKey s
  | .resync => Sys2Proof.Machine.execResync s
  | .lookLeg => Sys2Proof.Machine.execLookLeg s
  | .armWatch => Sys2Proof.Machine.execArmWatch s
  | .disarmWatch => Sys2Proof.Machine.execDisarmWatch s
  | .clearTrace => Sys2Proof.Machine.execClearTrace s
  | .releaseHold => Sys2Proof.Machine.execReleaseHold s
  | .lookWatch => Sys2Proof.Machine.execLookWatch s
  | .restartCold => Sys2Proof.Machine.execRestartCold s
  | .restartKeep => Sys2Proof.Machine.execRestartKeep s
  | .readCauses => Sys2Proof.Machine.execReadCauses s
  | .setPortMode => Sys2Proof.Machine.execSetPortMode s
  | .lapseTimerExpiry => Sys2Proof.Machine.execLapseTimerExpiry s
  | .answerDeadlineExpiry position => Sys2Proof.Machine.execAnswerDeadlineExpiry position s
  | .holdOffExpiry position => Sys2Proof.Machine.execHoldOffExpiry position s
  | .register position identity => Sys2Proof.Machine.execRegister position identity s
  | .answer position response => Sys2Proof.Machine.execAnswer position response s
  | .leave position => Sys2Proof.Machine.execLeave position s
  | .signal position bytes => Sys2Proof.Machine.execSignal position bytes s
  | .unfitStationMessage line message => Sys2Proof.Machine.execUnfitStationMessage line message s
  | .babble line => Sys2Proof.Machine.execBabble line s
  | .linkUp line => Sys2Proof.Machine.execLinkUp line s
  | .linkDown line => Sys2Proof.Machine.execLinkDown line s
  | .beginSend line => Sys2Proof.Machine.execBeginSend line s
  | .sendCompletion line => Sys2Proof.Machine.execSendCompletion line s
  | .sampleArrival samples => Sys2Proof.Machine.execSampleArrival samples s
  | .frameStart => Sys2Proof.Machine.execFrameStart s
  | .powerOn => Sys2Proof.Machine.execPowerOn s
  | .resetPin => Sys2Proof.Machine.execResetPin s
  | .resetPinRelease => Sys2Proof.Machine.execResetPinRelease s
  | .restartComplete links => Sys2Proof.Machine.execRestartComplete links s

end Sys2Proof.Machine
end

