-- ==== Sys2Proof/WellFormed.lean ====
section
/-! DEFINITION. Which commands can come to the part at all, beyond what the types of their operands
say. Every meaning is total: an ill-formed command is answered too (log entry 20). -/

namespace Sys2Proof

/-- A command is well formed when its operands are what the part's interfaces can bring. -/
def WellFormed (i : Instr) : Bool :=
  match i with
  -- order code, order tag, parameter length and at most 255 parameter bytes (R3)
  | .orderTransfer _ _ record => record.length ≤ 258
  -- the kind byte is none of ORDER, FETCH and STATUS (R2, R177)
  | .unknownTransferKind port kind =>
    decodeTransfer port kind.toList = .unknownTransferKind port kind
  -- 1 to 8 bytes (R54)
  | .signal _ bytes => 1 ≤ bytes.length && bytes.length ≤ 8
  -- the bytes are no fit message (R54, R179)
  | .unfitStationMessage line message =>
    decodeStationFrame line message = .unfitStationMessage line message
  -- one sample per endpoint (R86)
  | .sampleArrival samples => samples.length = 176
  -- one link per line port (R174)
  | .restartComplete links => links.length = 48
  | _ => true

end Sys2Proof
end

