-- ==== Sys2Proof/Safety.lean ====
section
/-! DEFINITION. The terms claims are stated in: when an order is taken, what a reply leaves, which
commands belong together, and the laws of the tables that every step keeps (R7, R30, R39, R56, R88,
R89, R94, R113, R116, R122, R128, R133, R160, R163, R172). -/

namespace Sys2Proof.Machine

/-! ### Takes and replies -/

/-- The ports the arbiter considers before a port, in the cyclic order A, B, M from the port after the
last-served one (R7). -/
def consideredBefore (lastServed p : Port) : List Port :=
  match lastServed, p with
  | .a, .b => []
  | .a, .m => [.b]
  | .a, .a => [.b, .m]
  | .b, .m => []
  | .b, .a => [.m]
  | .b, .b => [.m, .a]
  | .m, .a => []
  | .m, .b => [.a]
  | .m, .m => [.a, .b]

/-- The order at the head of port p's queue is the one the arbiter takes next (R7): no restart is in
progress, p has room for the reply, and no port considered before p is eligible. -/
def State.Takes (s : State) (p : Port) (order : OrderRecord) : Prop :=
  s.restart = none ∧ (s.port p).orders.head? = some order ∧ (s.port p).out.length < 32
    ∧ ∀ q ∈ consideredBefore s.lastServed p,
        (s.port q).orders = [] ∨ 32 ≤ (s.port q).out.length

/-- The state with the head order of port p out of its queue and p last-served (R7, R8). -/
def State.taken (s : State) (p : Port) : State :=
  { s.setPort p { s.port p with orders := (s.port p).orders.tail } with lastServed := p }

/-- An order that fits the queue entry: code, tag and parameters (R3). -/
def queuedOrder (code tag : Byte) (params : List Byte) : OrderRecord :=
  { code := code, tag := tag, params := params, overLength := false }

/-- The state with a reply at the tail of a port's out queue. -/
def State.reply (s : State) (p : Port) (code tag : Byte) (outcome : OutcomeCode)
    (fields : List Byte) : State :=
  s.setPort p { s.port p with out := (s.port p).out ++ [.reply code tag outcome fields] }

/-- The port is that of the holder (R26). -/
def State.HolderAt (s : State) (p : Port) : Prop :=
  match p, s.mastership with
  | .a, .held .a _ => True
  | .b, .held .b _ => True
  | _, _ => False

/-- The port may issue holder-or-Port-M orders (R9, R26). -/
def State.HolderOrM (s : State) (p : Port) : Prop := p = .m ∨ s.HolderAt p

/-! ### Families of commands -/

/-- The rows that look and change nothing (R9), with their order codes. LOOK LEG and LOOK WATCH may
draw free bytes. -/
def lookRows : List (Instr × Byte) :=
  [(.lookMastership, 0x06), (.lookEntry, 0x16), (.lookNextEntry, 0x17), (.lookPrecedenceMap, 0x19),
   (.lookPort, 0x21), (.lookStation, 0x25), (.lookAdmissionTimes, 0x27), (.lookConnection, 0x33),
   (.lookNextConnection, 0x34), (.lookEndpoint, 0x35), (.lookNetwork, 0x36), (.lookTrunk, 0x42),
   (.lookGroup, 0x43), (.lookKey, 0x52), (.lookLeg, 0x54), (.lookWatch, 0x64)]

/-- The holder-only rows with an order code of their own (R9). -/
def holderRows : List (Instr × Byte) :=
  [(.setPrecedenceMap, 0x18), (.setPort, 0x20), (.withdraw, 0x22), (.deliver, 0x23),
   (.setAdmissionTimes, 0x26), (.connect, 0x30), (.setMuteCode, 0x32), (.setTrunk, 0x40),
   (.setGroup, 0x41), (.loadKey, 0x50), (.eraseKey, 0x51), (.resync, 0x53)]

/-- The rows of Port M only (R9). -/
def portMRows : List (Instr × Byte) :=
  [(.assign, 0x04), (.setLapse, 0x05), (.enter, 0x10), (.remove, 0x11), (.setSecret, 0x12),
   (.seedChallenge, 0x28), (.armWatch, 0x60), (.disarmWatch, 0x61), (.clearTrace, 0x62),
   (.releaseHold, 0x63), (.lookWatch, 0x64)]

/-- The rows of the holder or Port M (R9). -/
def sharedRows : List (Instr × Byte) :=
  [(.amend, 0x13), (.suspend, 0x14), (.resume, 0x15), (.releaseLockout, 0x24),
   (.restartCold, 0x70), (.restartKeep, 0x71)]

/-- The rows of a controller (R9). -/
def controllerRows : List (Instr × Byte) := [(.claim, 0x01), (.pulse, 0x02), (.yield, 0x03)]

/-- Every row that is the take of an order. -/
def takeRows : List Instr :=
  [.unknownOrder, .releaseById, .releaseByTag, .readCauses, .setPortMode]
    ++ (lookRows ++ holderRows ++ portMRows ++ sharedRows ++ controllerRows).map (·.1)

/-! ### Orders by the tables of the manual (R9, R177) -/

/-- Every row that takes the orders of one code: the row, the code, the least and the greatest
parameter length (R177). RELEASE, which two rows take, and the unknown codes are beside it. -/
def orderTable : List (Instr × Byte × Nat × Nat) :=
  [(.claim, 0x01, 0, 0), (.pulse, 0x02, 0, 0), (.yield, 0x03, 0, 0), (.assign, 0x04, 1, 1),
   (.setLapse, 0x05, 2, 2), (.lookMastership, 0x06, 0, 0), (.enter, 0x10, 9, 13),
   (.remove, 0x11, 2, 2), (.setSecret, 0x12, 4, 4), (.amend, 0x13, 9, 13), (.suspend, 0x14, 2, 2),
   (.resume, 0x15, 2, 2), (.lookEntry, 0x16, 2, 2), (.lookNextEntry, 0x17, 2, 2),
   (.setPrecedenceMap, 0x18, 8, 8), (.lookPrecedenceMap, 0x19, 0, 0), (.setPort, 0x20, 5, 5),
   (.lookPort, 0x21, 1, 1), (.withdraw, 0x22, 1, 1), (.deliver, 0x23, 2, 9),
   (.releaseLockout, 0x24, 1, 1), (.lookStation, 0x25, 1, 1), (.setAdmissionTimes, 0x26, 5, 5),
   (.lookAdmissionTimes, 0x27, 0, 0), (.seedChallenge, 0x28, 2, 2), (.connect, 0x30, 9, 9),
   (.setMuteCode, 0x32, 1, 1), (.lookConnection, 0x33, 1, 1), (.lookNextConnection, 0x34, 4, 4),
   (.lookEndpoint, 0x35, 1, 1), (.lookNetwork, 0x36, 0, 0), (.setTrunk, 0x40, 3, 3),
   (.setGroup, 0x41, 6, 6), (.lookTrunk, 0x42, 1, 1), (.lookGroup, 0x43, 1, 1),
   (.loadKey, 0x50, 8, 8), (.eraseKey, 0x51, 1, 1), (.lookKey, 0x52, 1, 1), (.resync, 0x53, 1, 1),
   (.lookLeg, 0x54, 1, 1), (.armWatch, 0x60, 3, 3), (.disarmWatch, 0x61, 1, 1),
   (.clearTrace, 0x62, 1, 1), (.releaseHold, 0x63, 1, 1), (.lookWatch, 0x64, 1, 1),
   (.restartCold, 0x70, 0, 0), (.restartKeep, 0x71, 0, 0), (.readCauses, 0x72, 0, 0),
   (.setPortMode, 0x73, 1, 1)]

/-- The row that takes an order. A RELEASE in mode BY_TAG has one row and every other RELEASE the other
(log entry 19). -/
def rowOf (o : OrderRecord) : Instr :=
  if o.code = 0x31 then if o.params.getD 0 0 = 1 then .releaseByTag else .releaseById
  else ((orderTable.find? fun r => r.2.1 == o.code).map (·.1)).getD .unknownOrder

/-- The parameter length fits the order code (R177). -/
def LengthFits (o : OrderRecord) : Prop :=
  if o.code = 0x31 then o.params.length = 3
  else ∃ r ∈ orderTable, r.2.1 = o.code ∧ r.2.2.1 ≤ o.params.length ∧ o.params.length ≤ r.2.2.2

/-- Every parameter that is a code from a fixed set holds a value of its set, given the parameter bytes
as numbers (R176, R177); home ports stand in an AMEND exactly when their marker is SET. -/
def CodesFit (code : Byte) (length : Nat) (b : Nat → Nat) : Prop :=
  match code.toNat with
  | 0x04 => b 0 ≤ 2
  | 0x10 => b 4 ≤ 1 ∧ b 6 ≤ 2 ∧ b 8 ≤ 1
  | 0x13 => b 2 ≤ 2 ∧ b 4 ≤ 1 ∧ (b 4 = 1 → b 5 ≤ 2) ∧ b 6 ≤ 1 ∧ b 8 ≤ 2 ∧ (b 8 = 1 ↔ 9 < length)
  | 0x20 => b 1 ≤ 1 ∧ b 2 ≤ 1
  | 0x30 => b 5 ≤ 1 ∧ b 8 ≤ 1
  | 0x31 => b 0 ≤ 1
  | 0x34 => b 1 ≤ 1
  | 0x40 => b 1 ≤ 2
  | 0x50 => b 5 ≤ 1
  | 0x60 => b 2 ≤ 1
  | 0x73 => b 0 ≤ 1
  | _ => True

/-- The order passes check 1 of R8. -/
def FormFits (o : OrderRecord) : Prop :=
  o.overLength = false ∧ LengthFits o
    ∧ CodesFit o.code o.params.length fun i => (o.params.getD i 0).toNat

/-- The state after a take that is refused with an outcome and result fields (R8). -/
def State.refusal (s : State) (p : Port) (code tag : Byte) (outcome : OutcomeCode)
    (fields : List Byte) : State := (s.taken p).reply p code tag outcome fields

/-- The state after a take that makes a change and is replied to with DONE and result fields (R8). -/
def State.done (s : State) (p : Port) (code tag : Byte) (fields : List Byte)
    (change : State → State) : State := (change (s.taken p)).reply p code tag .done fields

/-- The commands of a station, the line interface, the deadlines of stations and the frame clock: what
goes on through every change of mastership (R28). -/
def IsCallSideCommand (i : Instr) : Prop :=
  match i with
  | .register .. | .answer .. | .leave _ | .signal .. | .unfitStationMessage .. | .babble _
  | .linkUp _ | .linkDown _ | .beginSend _ | .sendCompletion _ | .answerDeadlineExpiry _
  | .holdOffExpiry _ | .sampleArrival _ | .frameStart => True
  | _ => False

/-! ### What a change of the state leaves alone -/

/-- Two port states differ at most in what posting changes: the out queue, the missed-events flag and
what a transfer in progress has learnt (R10, R11). -/
def SamePortButPosts (p q : PortState) : Prop :=
  q = { p with out := q.out, missed := q.missed, transfer := q.transfer }

/-- The ports differ at most in what posting changes. -/
def SamePortsButPosts (s t : State) : Prop := ∀ p, SamePortButPosts (s.port p) (t.port p)

/-- t differs from s at most in what making and releasing records change: the table, legs, key use
counts, busy counts and congestion states, watches, and posted events (R97, R148). -/
def OnlyCallTables (s t : State) : Prop :=
  SamePortsButPosts s t
    ∧ t = { s with
        portA := t.portA, portB := t.portB, portM := t.portM
        connections := t.connections, legs := t.legs, keys := t.keys, groups := t.groups
        watches := t.watches }

/-- t differs from s at most in what withdrawals of stations change: what releases change, and the
station records (R67). -/
def OnlyWithdrawals (s t : State) : Prop :=
  SamePortsButPosts s t
    ∧ t = { s with
        portA := t.portA, portB := t.portB, portM := t.portM
        connections := t.connections, legs := t.legs, keys := t.keys, groups := t.groups
        watches := t.watches, stations := t.stations }

/-! ### Laws of the trunk groups -/

/-- R110, R113: the settings of slots and groups are legal. -/
def GroupLaw (s : State) : Prop :=
  (∀ n, (s.slot n).group ≤ 7)
    ∧ ∀ g, (s.group g).quota ≤ 64 ∧ (s.group g).reserve ≤ (s.group g).quota
        ∧ 1 ≤ (s.group g).reserveClass ∧ (s.group g).reserveClass ≤ 3
        ∧ (s.group g).onset ≤ 64 ∧ (s.group g).abatement < (s.group g).onset

/-- R122: a CONGESTED group is above its abatement and a CLEAR one below its onset. -/
def CongestionLaw (s : State) : Prop :=
  ∀ g, if (s.group g).congested then (s.group g).abatement < (s.group g).busy
    else (s.group g).busy < (s.group g).onset

/-! ### Effects that several commands share -/

/-- The record joins the position to something other than a service endpoint (R155). -/
def Connection.fallsWith (c : Connection) (position : Nat) : Bool :=
  (c.source == position && decide (c.destination < 160))
    || (c.destination == position && decide (c.source < 160))

/-- The reports of the selected records, in ascending id (R153). -/
def releasedReport (cs : List Connection) (gone : Connection → Bool) (reason : ReleaseReason) :
    List Event :=
  (cs.filter gone).map fun c => .released c.id c.callTag reason

/-- The reports of the withdrawals at a list of positions, one after another, while the records cs
stand: of each ADMITTED station, RELEASED for its records that stand, and then WITHDRAWN (R67, R154). -/
def State.withdrawalsAmong (s : State) (reason : ReleaseReason) :
    List Nat → List Connection → List Event
  | [], _ => []
  | n :: ns, cs =>
    match (s.station n).state with
    | .admitted identity =>
      releasedReport cs (·.fallsWith n) reason
        ++ .withdrawn n identity reason
        :: s.withdrawalsAmong reason ns (cs.filter fun c => !c.fallsWith n)
    | _ => s.withdrawalsAmong reason ns cs

/-- The reports of the withdrawals at a list of positions (R67). -/
def State.withdrawalReport (s : State) (reason : ReleaseReason) (positions : List Nat) :
    List Event :=
  s.withdrawalsAmong reason positions s.connections

/-- The reports of the challenges of an identity abandoned at the selected positions, in ascending
order of position (R39, R65). -/
def State.abandonReport (s : State) (identity : Nat) (reason : RefusalReason)
    (selects : Nat → Bool) : List Event :=
  ((List.range 96).filter selects).map fun n =>
    .refused n identity reason false (s.station n).failures

/-- How many slots of a group are busy and named by selected records alone: so far its busy count falls
when those records are released (R151). -/
def State.slotsFreed (s : State) (gone : Connection → Bool) (g : Nat) : Nat :=
  (List.range 64).countP fun n =>
    (s.slot n).group == g && s.named (96 + n)
      && s.connections.all fun c => !c.names (96 + n) || gone c

/-- A group after its busy count has fallen by n, one by one (R116, R122). -/
def Group.fallenBy (g : Group) (n : Nat) : Group :=
  { g with
    busy := g.busy - n
    congested := g.congested && decide (g.abatement < g.busy - n) }

/-- A group after its busy count has risen by n, one by one (R116, R122). -/
def Group.risenBy (g : Group) (n : Nat) : Group :=
  { g with
    busy := g.busy + n
    congested := g.congested || decide (g.onset ≤ g.busy + n) }

/-- The CONGESTION event of a group whose busy count has passed, one by one, from one value to another:
it carries the count at which the state changed (R122, R123). -/
def congestionReport (g : Nat) (before after : Group) : List Event :=
  if before.congested = after.congested then []
  else if after.congested = true then [.congestion g true after.onset]
  else [.congestion g false after.abatement]

/-- The CONGESTION events of a group among a list of events. -/
def congestionsOf (g : Nat) (es : List Event) : List Event :=
  es.filter fun e => match e with | .congestion k _ _ => k == g | _ => false

/-- The other events of a list. -/
def besideCongestion (es : List Event) : List Event :=
  es.filter fun e => match e with | .congestion .. => false | _ => true

/-- A watch after the records of the selected ids have been released (R152). -/
def Watch.afterReleases (ids : Nat → Bool) (w : Watch) : Watch :=
  match w with
  | .tripped identity request hold t =>
    if ids t.connectionId = true ∧ t.releasedSince = false then
      .tripped identity request false { t with releasedSince := true }
    else .tripped identity request hold t
  | .idle => .idle
  | .armed identity request => .armed identity request

/-- u is s after the selected records have gone through the release procedure: the table, the legs and
key use counts (R150), the busy counts and congestion states (R151) and the watches (R152). -/
def Releases (s u : State) (gone : Connection → Bool) : Prop :=
  u.connections = s.connections.filter (fun c => !gone c)
    ∧ (∀ n, u.leg n =
        if (s.connections.any fun c => gone c && (c.privacy.map (·.leg)) == some n) = true then none
        else s.leg n)
    ∧ (∀ k, u.key k =
        { s.key k with
          useCount := (s.key k).useCount
            - s.connections.countP fun c => gone c && (c.privacy.map (·.key)) == some k })
    ∧ u.watches = s.watches.map
        (Watch.afterReleases fun id => s.connections.any fun c => gone c && c.id == id)
    ∧ (GroupLaw s → CongestionLaw s →
        ∀ g, u.group g = (s.group g).fallenBy (s.slotsFreed gone g))

/-- u is s after stations have been withdrawn, challenges abandoned and records released: what every
station record has become, which records are gone, what is reported before the last events, in its
order, and the last events. The CONGESTION events of each group stand among the reports (R67, R153). -/
def Retires (s u : State) (after : Nat → Station) (gone : Connection → Bool)
    (report last : List Event) : Prop :=
  OnlyWithdrawals s u
    ∧ (∀ n, u.station n = after n)
    ∧ Releases s u gone
    ∧ ∃ es : List Event,
        (∀ p, u.port p = (s.postAll (es ++ last)).port p)
          ∧ besideCongestion es = report
          ∧ (GroupLaw s → CongestionLaw s →
              ∀ g, congestionsOf g es = congestionReport g (s.group g) (u.group g))

/-- The station record of a withdrawn station (R67). -/
def Station.withdrawn (st : Station) : Station := { st with state := .vacant, deliver := [] }

/-- The station record after its position has been cleared (R49, R50). -/
def Station.cleared (st : Station) : Station :=
  match st.state with
  | .admitted _ => { st with state := .vacant, deliver := [], slot := none }
  | .challenged .. | .holdOff _ => { st with state := .vacant, slot := none }
  | .locked | .vacant => { st with slot := none }

/-- The station record after its port's link has gone DOWN (R51). -/
def Station.lost (st : Station) : Station :=
  match st.state with
  | .admitted _ => { st with state := .vacant, deliver := [], slot := none }
  | .challenged .. => { st with state := .vacant, slot := none }
  | .holdOff _ | .locked | .vacant => { st with slot := none }

/-- What the slot of a position holds once a message has been placed in it (R55). -/
def State.slotWith (s : State) (n : Nat) (m : StationMessage) : Option StationMessage :=
  if (s.line (n / 2)).linkUp = true ∧ (s.line (n / 2)).condition = .enabled then some m else none

/-- A counted failure at a position (R59). -/
def State.failedAt (s : State) (n identity : Nat) (reason : RefusalReason) : State :=
  let failures := (s.station n).failures + 1
  let locks := s.lockoutCount ≤ failures
  (s.setStation n
    { s.station n with
      slot := s.slotWith n (.refuse reason)
      failures := failures
      state := if locks then .locked else .holdOff (s.clock + 1000 * s.holdOffTime) }).postAll
    (.refused n identity reason true failures :: if locks then [.lockedOut n failures] else [])

/-- A challenge issued at a position for an identity whose secret is given (R60, R82, R83). -/
def State.challengedAt (s : State) (n identity : Nat) (secret : Word16) : State :=
  let u := 5 * s.challengeSequence + 13849
  let h := if u.toNat % 2 = 1 then u else u + 1
  let r := 5 * (5 * (5 * (5 * secret + h) + h) + h) + h
  { s.setStation n
      { s.station n with
        state := .challenged identity h r (s.clock + 1000 * s.answerWindow)
        slot := s.slotWith n (.challenge h) } with
    challengeSequence := u }

/-- A message of the position is taken by its station record (R54 steps 1 to 3). -/
def State.Hears (s : State) (n : Nat) : Prop :=
  s.restart = none ∧ (s.line (n / 2)).condition = .enabled
    ∧ (n % 2 = 1 → (s.line (n / 2)).pairing = true)

/-- The outcome of a REGISTER taken in VACANT (R58). -/
def State.registered (s : State) (n identity : Nat) : State :=
  match s.directory.find? fun e => e.identity == identity with
  | none => s.failedAt n identity .unknown
  | some e =>
    if e.suspended = true then s.failedAt n identity .suspended
    else if (∃ ports, e.homePorts = some ports ∧ n / 2 ∉ ports) then s.failedAt n identity .notHere
    else s.challengedAt n identity e.secret

/-! ### CONNECT (R90 to R96) -/

/-- The effective class of the station at a position, 0 where none is ADMITTED (R42, R90). -/
def State.stationClass (s : State) (n : Nat) : Nat :=
  match (s.station n).state with
  | .admitted identity =>
    s.precedenceMap.toList.getD
      (((s.directory.find? fun e => e.identity == identity).bind (·.precedence)).getD
        (s.line (n / 2)).defaultPrecedence) 0
  | _ => 0

/-- The class recorded for a pair of endpoints, given the class the order carries (R90). -/
def State.classFor (s : State) (source destination carried : Nat) : Nat :=
  if source < 96 ∧ destination < 96 then max (s.stationClass source) (s.stationClass destination)
  else if source < 96 then s.stationClass source
  else if destination < 96 then s.stationClass destination
  else carried

/-- The endpoint is a trunk slot that no record names (R96). -/
def State.NewlyBusy (s : State) (e : Nat) : Prop :=
  96 ≤ e ∧ e < 160 ∧ ∀ c ∈ s.connections, c.source ≠ e ∧ c.destination ≠ e

/-- The group of a trunk endpoint's slot. -/
def State.groupAt (s : State) (e : Nat) : Nat := (s.slot (e - 96)).group

/-- A TIE trunk endpoint. -/
def State.TieAt (s : State) (e : Nat) : Prop := 96 ≤ e ∧ e < 160 ∧ (s.slot (e - 96)).mode = .tie

/-- Check 2 (R92). -/
def Check2 (source destination cls : Nat) (key : Option Nat) : Prop :=
  source ≤ 175 ∧ destination ≤ 159 ∧ source ≠ destination ∧ cls ≤ 3 ∧ ∀ k ∈ key, k ≤ 31

/-- Check 3 (R93). -/
def State.Check3 (s : State) (destination : Nat) : Prop :=
  ∀ c ∈ s.connections, c.destination ≠ destination

/-- Check 4 (R93). -/
def State.Check4 (s : State) (source destination : Nat) : Prop :=
  source < 160 → ∀ e, (e = source ∨ e = destination) → e < 96 →
    ∃ identity, (s.station e).state = .admitted identity

/-- Check 5 (R93). -/
def State.Check5 (s : State) (source destination : Nat) : Prop :=
  ∀ e, (e = source ∨ e = destination) → 96 ≤ e → e < 160 →
    (s.slot (e - 96)).mode ≠ .outOfService

/-- The record would join the station to the trunk, and the station's entry is e (R94). -/
def State.Joins (s : State) (source destination station trunk : Nat) (e : DirectoryEntry) : Prop :=
  ((source = station ∧ destination = trunk) ∨ (source = trunk ∧ destination = station))
    ∧ station < 96 ∧ 96 ≤ trunk ∧ trunk < 160
    ∧ ∃ identity, (s.station station).state = .admitted identity
        ∧ s.directory.find? (fun e => e.identity == identity) = some e

/-- Check 6 (R94). -/
def State.Check6 (s : State) (source destination : Nat) : Prop :=
  ∀ station trunk e, s.Joins source destination station trunk e →
    e.mask.getLsbD (s.groupAt trunk) = true

/-- Check 7 (R94). -/
def State.Check7 (s : State) (source destination : Nat) (key : Option Nat) : Prop :=
  ∀ station trunk e, s.Joins source destination station trunk e →
    (e.privacy ≠ .openClass → (s.slot (trunk - 96)).mode ≠ .publicTrunk)
      ∧ (e.privacy = .required → (s.slot (trunk - 96)).mode = .tie → key ≠ none)

/-- Check 8 (R95). -/
def State.Check8 (s : State) (source destination : Nat) (key : Option Nat) : Prop :=
  ∀ k ∈ key, (s.key k).material ≠ none ∧ (s.TieAt source ↔ ¬s.TieAt destination)

/-- Check 9 (R95). -/
def State.Check9 (s : State) : Prop := s.connections.length < 160

/-- Check 10 (R95). -/
def State.Check10 (s : State) (key : Option Nat) : Prop := key ≠ none → ∃ n, n < 64 ∧ s.leg n = none

/-- Checks 2 to 10. -/
def State.PassesTo10 (s : State) (source destination cls : Nat) (key : Option Nat) : Prop :=
  Check2 source destination cls key ∧ s.Check3 destination ∧ s.Check4 source destination
    ∧ s.Check5 source destination ∧ s.Check6 source destination ∧ s.Check7 source destination key
    ∧ s.Check8 source destination key ∧ s.Check9 ∧ s.Check10 key

/-- The tests of R118 for a class k and a count c: the slot passes without preemption. -/
def Group.roomFor (g : Group) (k c : Nat) : Prop :=
  c < g.quota ∧ (c < g.quota - g.reserve ∨ g.reserveClass ≤ k) ∧ (g.congested = false ∨ 1 ≤ k)

/-- Check 11 without preemption (R96, R118, R119). -/
def State.Check11 (s : State) (source destination k : Nat) : Prop :=
  (s.NewlyBusy source →
      (s.group (s.groupAt source)).roomFor k (s.group (s.groupAt source)).busy)
    ∧ (s.NewlyBusy destination →
      ∀ c, (s.NewlyBusy source ∧ s.groupAt source = s.groupAt destination →
            c = (s.group (s.groupAt destination)).busy + 1) →
        (¬(s.NewlyBusy source ∧ s.groupAt source = s.groupAt destination) →
            c = (s.group (s.groupAt destination)).busy) →
        (s.group (s.groupAt destination)).roomFor k c)

/-- The parameters of a CONNECT (R177). -/
def connectParams (source destination hi lo cls marker index start preempt : Byte) : List Byte :=
  [source, destination, hi, lo, cls, marker, index, start, preempt]

/-- The key a CONNECT names, by its marker (R92). -/
def keyNamed (marker index : Byte) : Option Nat := if marker = 1 then some index.toNat else none

/-- The record c is the one a CONNECT makes: PENDING, not trace-held, at the lowest free id, with a
privacy part exactly when a key is named, whose leg is the lowest free one (R91, R97, R134). -/
def State.Makes (s : State) (source destination : Nat) (tag : Word16) (cls : Nat)
    (key : Option Nat) (c : Connection) : Prop :=
  c.live = false ∧ c.traceHeld = false ∧ c.source = source ∧ c.destination = destination
    ∧ c.callTag = tag ∧ c.cls = cls
    ∧ (∀ d ∈ s.connections, d.id ≠ c.id) ∧ (∀ n, n < c.id → ∃ d ∈ s.connections, d.id = n)
    ∧ (key = none → c.privacy = none)
    ∧ ∀ k ∈ key, ∃ leg, s.leg leg = none ∧ (∀ n, n < leg → s.leg n ≠ none)
        ∧ (s.TieAt destination → c.privacy = some ⟨.scramble, k, leg⟩)
        ∧ (¬s.TieAt destination → c.privacy = some ⟨.descramble, k, leg⟩)

/-- The table with a record at its place. -/
def tableWith (c : Connection) (cs : List Connection) : List Connection :=
  cs.filter (fun d => decide (d.id < c.id)) ++ c :: cs.filter (fun d => decide (c.id < d.id))

/-- The leg and the key contexts after a record c has been made (R134). -/
def LegTaken (s t : State) (start : Byte) (c : Connection) : Prop :=
  (∀ n, t.leg n =
      match c.privacy with
      | some part =>
        if part.leg = n then
          some ⟨part.key, if part.direction = .scramble then .waitingScramble start
            else .waitingDescramble⟩
        else s.leg n
      | none => s.leg n)
    ∧ ∀ k, t.key k =
      match c.privacy with
      | some part =>
        if part.key = k then { s.key k with useCount := (s.key k).useCount + 1 } else s.key k
      | none => s.key k

/-- The result fields of a CONNECT that is taken (R97, R178). -/
def connectReply (c : Connection) (preempted : Nat) : List Byte :=
  [byteOf c.id, byteOf c.cls]
    ++ (match c.privacy with
        | some part => [if part.direction = .scramble then 0 else 1, byteOf part.leg]
        | none => [0xFF, 0xFF])
    ++ [byteOf preempted]

/-- The number of endpoints of a pair that are newly busy slots of a group. -/
def State.NewlyCount (s : State) (source destination g n : Nat) : Prop :=
  ∃ a b : Nat, n = a + b
    ∧ (s.NewlyBusy source ∧ s.groupAt source = g → a = 1)
    ∧ (¬(s.NewlyBusy source ∧ s.groupAt source = g) → a = 0)
    ∧ (s.NewlyBusy destination ∧ s.groupAt destination = g → b = 1)
    ∧ (¬(s.NewlyBusy destination ∧ s.groupAt destination = g) → b = 0)

/-- A candidate slot of R120, for an order of class k between two endpoints. -/
def State.Candidate (s : State) (source destination k group v : Nat) : Prop :=
  v < 64 ∧ (s.slot v).group = group
    ∧ (∃ c ∈ s.connections, c.names (96 + v) = true)
    ∧ ∀ c ∈ s.connections, c.names (96 + v) = true →
        c.traceHeld = false ∧ c.cls < k
          ∧ ∀ e, (e = source ∨ e = destination) → 96 ≤ e → e < 160 → c.names e = false

/-- The holding class of a slot is n (R117). -/
def State.Holds (s : State) (v n : Nat) : Prop :=
  (∃ c ∈ s.connections, c.names (96 + v) = true ∧ c.cls = n)
    ∧ ∀ c ∈ s.connections, c.names (96 + v) = true → c.cls ≤ n

/-- The victim of R121: of the candidates that are not barred, the one of lowest holding class at the
take, and of lowest number (log entry 26). -/
def State.Victim (s : State) (source destination k group : Nat) (barred : Nat → Bool) (v : Nat) :
    Prop :=
  s.Candidate source destination k group v ∧ barred v = false
    ∧ ∀ w m n, s.Candidate source destination k group w → barred w = false →
        s.Holds v m → s.Holds w n → m < n ∨ (m = n ∧ v ≤ w)

/-- R118: a slot of a group passes with the count c, without a victim or with the victim v. -/
def State.SlotPasses (s : State) (source destination k : Nat) (preempt : Bool) (group c : Nat)
    (barred : Nat → Bool) (v : Option Nat) : Prop :=
  if (s.group group).quota ≤ c then
    preempt = true ∧ ∃ n, v = some n ∧ s.Victim source destination k group barred n
  else v = none ∧ (s.group group).roomFor k c

/-- R118: a slot of a group fails with the count c, with the outcome of the first test that applies. -/
def State.SlotFails (s : State) (source destination k : Nat) (preempt : Bool) (group c : Nat)
    (barred : Nat → Bool) (outcome : OutcomeCode) : Prop :=
  let g := s.group group
  if g.quota ≤ c then
    outcome = .groupFull
      ∧ (preempt = false ∨ ∀ n, s.Candidate source destination k group n → barred n = true)
  else if g.quota - g.reserve ≤ c ∧ k < g.reserveClass then outcome = .groupReserved
  else outcome = .congested ∧ g.congested = true ∧ k = 0

/-- The slots that no record would name once a victim's records had been released (R119, log entry
22). -/
def State.freedBy (s : State) (v : Option Nat) (n : Nat) : Bool :=
  v.any fun v => s.named (96 + n)
    && s.connections.all fun c => !c.names (96 + n) || c.names (96 + v)

/-- R119: the count for the destination's slot, after the source's slot has passed with a victim v or
without. -/
def State.countForSecond (s : State) (source destination : Nat) (v : Option Nat) : Nat :=
  let number := s.groupAt destination
  (s.group number).busy
    + (if 96 ≤ source ∧ source < 160 ∧ s.named source = false ∧ s.groupAt source = number then 1
      else 0)
    - (List.range 64).countP fun n => s.freedBy v n && (s.slot n).group == number

/-- R119: the source passes check 11: it is no newly busy slot, or its slot passes. -/
def State.FirstPasses (s : State) (source destination k : Nat) (preempt : Bool)
    (v : Option Nat) : Prop :=
  (¬s.NewlyBusy source → v = none)
    ∧ (s.NewlyBusy source →
        s.SlotPasses source destination k preempt (s.groupAt source)
          (s.group (s.groupAt source)).busy (fun _ => false) v)

/-- R119: the destination passes check 11, after the source has passed with a victim v or without. -/
def State.SecondPasses (s : State) (source destination k : Nat) (preempt : Bool)
    (v w : Option Nat) : Prop :=
  (¬s.NewlyBusy destination → w = none)
    ∧ (s.NewlyBusy destination →
        s.SlotPasses source destination k preempt (s.groupAt destination)
          (s.countForSecond source destination v) (s.freedBy v) w)

/-- The leg and the key contexts after a record c has been released (R150). -/
def LegFreed (s t : State) (c : Connection) : Prop :=
  (∀ n, t.leg n =
      match c.privacy with
      | some part => if part.leg = n then none else s.leg n
      | none => s.leg n)
    ∧ ∀ k, t.key k =
      match c.privacy with
      | some part =>
        if part.key = k then { s.key k with useCount := (s.key k).useCount - 1 } else s.key k
      | none => s.key k

/-- The endpoint is a trunk slot that only the record c names (R151). -/
def State.OnlyBy (s : State) (c : Connection) (e : Nat) : Prop :=
  96 ≤ e ∧ e < 160 ∧ ∀ d ∈ s.connections, d.id ≠ c.id → d.names e = false

/-- n is the number of endpoints of the record c that are slots of a group and that only c names. -/
def State.FreedCount (s : State) (c : Connection) (g n : Nat) : Prop :=
  ∃ a b : Nat, n = a + b
    ∧ (s.OnlyBy c c.source ∧ s.groupAt c.source = g → a = 1)
    ∧ (¬(s.OnlyBy c c.source ∧ s.groupAt c.source = g) → a = 0)
    ∧ (s.OnlyBy c c.destination ∧ s.groupAt c.destination = g → b = 1)
    ∧ (¬(s.OnlyBy c c.destination ∧ s.groupAt c.destination = g) → b = 0)

/-- A watch after a record of an id has been released (R152). -/
def Watch.afterRelease (id : Nat) (w : Watch) : Watch :=
  match w with
  | .tripped identity request hold t =>
    if t.connectionId = id ∧ t.releasedSince = false then
      .tripped identity request false { t with releasedSince := true }
    else .tripped identity request hold t
  | .idle => .idle
  | .armed identity request => .armed identity request

/-- The fields of a record as LOOK CONNECTION reports them (R107, R178). -/
def connectionReport (c : Connection) : List Byte :=
  [byteOf c.id, if c.live = true then 1 else 0, byteOf c.source, byteOf c.destination]
    ++ bytesOfWord16 c.callTag ++ [byteOf c.cls]
    ++ (match c.privacy with
        | some part =>
          [if part.direction = .scramble then 0 else 1, byteOf part.key, byteOf part.leg]
        | none => [0xFF, 0xFF, 0xFF])
    ++ [if c.traceHeld = true then 1 else 0]

/-- The counts that several looks report: records, PENDING records, records with a privacy part (R107,
R108). -/
def State.tableCounts (s : State) : List Byte :=
  [byteOf s.connections.length, byteOf (s.connections.countP fun c => c.live == false),
    byteOf (s.connections.countP fun c => c.privacy.isSome)]

/-! ### Trace (R160 to R167) -/

/-- The state after the hold of a watch has been cleared: its hold flag is clear, and the record it held
is trace-held only while another watch holds it (R163). -/
def HoldCleared (s t : State) (n : Nat) (after : Watch) : Prop :=
  t.watches = s.watches.setIfInBounds n after
    ∧ t.connections = s.connections.map (fun c =>
        if (match s.watch n with
            | .tripped _ _ hold tr => hold && tr.connectionId == c.id
            | _ => false) = true then
          { c with
            traceHeld := (List.range 4).any fun m => m != n &&
              match s.watch m with
              | .tripped _ _ hold tr => hold && tr.connectionId == c.id
              | _ => false }
        else c)

/-! ### Frames (R86, R102 to R105, R135, R162) -/

/-- The leg of a record as it stands after the promotions of a frame start (R135). -/
def startedLeg (key : KeyContext) (wasLive : Bool) (l : Leg) : LegState :=
  if wasLive = true then l.state
  else
    match l.state with
    | .waitingScramble start =>
      .running start 0 ((match key.material with | some m => m.seed | none => 0)
        + 257 * start.setWidth 16)
    | .waitingDescramble => .hunt 0 (List.replicate 256 ⟨none, 0⟩)
    | other => other

/-- The watched identity stands ADMITTED at an end of the record, the source looked at first (R162). -/
def State.watchedAt (s : State) (identity : Nat) (c : Connection) : Option TraceRole :=
  if c.source < 96 ∧ (s.station c.source).state = .admitted identity then some .source
  else if c.destination < 96 ∧ (s.station c.destination).state = .admitted identity then
    some .destination
  else none

/-- The first record that a frame start promotes with a watched identity at an end, and that end. -/
def State.tripOf (s : State) (identity : Nat) : Option (Connection × TraceRole) :=
  (s.connections.filter fun c => !c.live).findSome? fun c =>
    (s.watchedAt identity c).map fun role => (c, role)

/-- The trace record of a trip at a frame number (R162). -/
def State.tracedBy (s : State) (c : Connection) (role : TraceRole) (frame : Word32) : TraceRecord :=
  let watched := if role = .source then c.source else c.destination
  let other := if role = .source then c.destination else c.source
  { connectionId := c.id
    callTag := c.callTag
    watchedPosition := watched
    role := role
    otherEndpoint := other
    otherIdentity := if other < 96 then (s.station other).state.admittedIdentity else none
    frameNumber := frame
    releasedSince := false }

/-- A watch after a frame start at a frame number (R162). -/
def State.watchAfterFrame (s : State) (frame : Word32) (w : Watch) : Watch :=
  match w with
  | .armed identity request =>
    match s.tripOf identity with
    | some (c, role) => .tripped identity request request (s.tracedBy c role frame)
    | none => w
  | _ => w

/-- A watch trips on the record at a frame start and holds it (R162, R163). -/
def State.heldAtFrame (s : State) (c : Connection) : Bool :=
  (List.range 4).any fun n =>
    match s.watch n with
    | .armed identity true => (s.tripOf identity).any fun t => t.1.id == c.id
    | _ => false

/-- The TRACE_TRIPPED events of a frame start at a frame number: by ascending id of the promoted record,
and for each record by ascending watch index (R105, R162, R167). -/
def State.tripReport (s : State) (frame : Word32) : List Event :=
  (s.connections.filter fun c => !c.live).flatMap fun c =>
    (List.range 4).filterMap fun n =>
      match s.watch n with
      | .armed identity request =>
        match s.tripOf identity with
        | some (d, role) =>
          if d.id = c.id then some (.traceTripped n identity request (s.tracedBy d role frame))
          else none
        | none => none
      | _ => none

/-- What the leg of a record does at a frame start with the received sample y: its next state, the
sample it gives back, and its event. A RUNNING leg gives back q at position 0 and scrambles at the
others (R136); a HUNT leg fills an entry and locks at the confirm count (R137, R138); a SYNCED leg
unscrambles (R139), and checks the sync value at position 0 and loses its lock at the loss limit
(R140, R141). The key context of a leg is LOADED (R128). -/
def legRule (c : Connection) (part : PrivacyPart) (key : KeyContext) (mute : Byte) (l : LegState)
    (y : Byte) : LegState × Byte × List Event :=
  let m := key.material.getD ⟨0, 1⟩
  let seedOf : Byte → Word16 := fun q => m.seed + 257 * q.setWidth 16
  let keyByte : Word16 → Byte := fun w => BitVec.ofNat 8 (w.toNat / 256)
  match l with
  | .running q j w =>
    let w' := if j = 0 then seedOf q else 5 * w + m.increment
    (.running (if j = 255 then q + 1 else q) (j + 1) w', if j = 0 then q else y + keyByte w', [])
  | .hunt h table =>
    let old := table.getD h.toNat ⟨none, 0⟩
    let count := if old.sample = some (y - 1) then old.matchCount + 1 else 0
    if count = key.confirmCount then
      (.synced y 1 (seedOf y) 0 mute, mute, [.syncLocked c.id c.callTag part.leg part.key y])
    else (.hunt (h + 1) (table.set h.toNat ⟨some y, count⟩), mute, [])
  | .synced q j w misses last =>
    if j ≠ 0 then
      let w' := 5 * w + m.increment
      let x := y - keyByte w'
      (.synced (if j = 255 then q + 1 else q) (j + 1) w' misses x, x, [])
    else if y = q then (.synced q 1 (seedOf q) 0 last, last, [])
    else if misses + 1 = key.lossLimit then
      (.hunt 0 (List.replicate 256 ⟨none, 0⟩), last,
        [.syncLost c.id c.callTag part.leg part.key q y])
    else (.synced q 1 (seedOf q) (misses + 1) last, last, [])
  | .waitingScramble _ | .waitingDescramble => (l, mute, [])

/-- What the leg of a record does at the next frame start; none for a record without one. -/
def State.legAtFrame (s : State) (c : Connection) :
    Option (PrivacyPart × Leg × LegState × Byte × List Event) :=
  c.privacy.bind fun part => (s.leg part.leg).map fun leg =>
    (part, leg, legRule c part (s.key leg.key) s.muteCode
      (startedLeg (s.key leg.key) c.live leg) (s.receivedSample c.source))

/-- The SYNC_LOCKED and SYNC_LOST events of a frame start, by ascending id of the record (R105,
R144). -/
def State.syncReport (s : State) : List Event :=
  s.connections.flatMap fun c => ((s.legAtFrame c).map (·.2.2.2.2)).getD []

/-! ### Restarts (R174) -/

/-- The reports of a list of line ports read afresh, one after another, while the records cs stand: LINK
for each port whose link differs, that of a link gone DOWN after the withdrawals of both positions
(R51, R174). -/
def State.linksAmong (s : State) (links : List Bool) : List Nat → List Connection → List Event
  | [], _ => []
  | n :: ns, cs =>
    if links.getD n false = (s.line n).linkUp then s.linksAmong links ns cs
    else if links.getD n false = true then .link n true :: s.linksAmong links ns cs
    else
      s.withdrawalsAmong .linkLost [2 * n, 2 * n + 1] cs
        ++ .link n false :: s.linksAmong links ns (cs.filter fun c =>
          !([2 * n, 2 * n + 1].any fun m =>
            (s.station m).state.admittedIdentity.isSome && c.fallsWith m))

/-- The reports of the links read afresh at the completion of a restart, ports in ascending number
(R174). -/
def State.linkReport (s : State) (links : List Bool) : List Event :=
  s.linksAmong links (List.range 48) s.connections

/-! ### Privacy (R74 to R84, R136 to R141) -/

/-- A leg carries a list of samples one after another: what it gives back, and its state at the
end. -/
def legRun (key : KeyContext) (mute : Byte) : LegState → List Byte → List Byte × LegState
  | l, [] => ([], l)
  | l, x :: xs =>
    let f := legFrame key mute l x
    let r := legRun key mute f.state xs
    (f.sample :: r.1, r.2)

/-- A SCRAMBLE leg and a DESCRAMBLE leg are in step: they agree in period number, position and generator
state (R81). -/
def InStep (a b : LegState) : Prop :=
  ∃ q j s misses last, a = .running q j s ∧ b = .synced q j s misses last

/-- What the far end hears of a list of samples: each sample, but at period position 0 the last one
heard (R140). -/
def heard (j : Byte) (last : Byte) : List Byte → List Byte
  | [] => []
  | x :: xs => (if j = 0 then last else x) :: heard (j + 1) (if j = 0 then last else x) xs

/-! ### Secrets (R40, R76, R178) -/

/-- A station record without its expected response. -/
def Station.blinded (st : Station) : Station :=
  { st with
    state := match st.state with
      | .challenged identity h _ deadline => .challenged identity h 0 deadline
      | other => other }

/-- Two states agree in everything but the secrets of the directory and the expected responses of
CHALLENGED stations; slots and deliver queues agree (R34, R40, R60). -/
def SameButSecrets (s t : State) : Prop :=
  t = { s with directory := t.directory, stations := t.stations }
    ∧ s.directory.map (fun e => { e with secret := 0 })
        = t.directory.map (fun e => { e with secret := 0 })
    ∧ s.stations.map Station.blinded = t.stations.map Station.blinded

/-- What the part shows outside: the ports, the message channels, the outgoing samples. -/
def SameOutside (s t : State) : Prop :=
  (∀ p, s.port p = t.port p) ∧ s.lines = t.lines ∧ s.outgoing = t.outgoing

/-! ### Laws of the ports -/

/-- R1, R3, R7: the queues keep their sizes, an admitted record finds room, and during RESTARTING the
queues are empty. -/
def PortLaw (restart : Option RestartMode) (p : PortState) : Prop :=
  p.orders.length ≤ 8 ∧ p.out.length ≤ 32 ∧ (∀ o ∈ p.orders, o.params.length ≤ 32)
    ∧ (restart.isSome → p.orders = [] ∧ p.out = [])
    ∧ ∀ t ∈ p.transfer, t.admits = true → t.restartSince = false →
        p.orders.length < 8 ∧ restart = none

def QueueLaw (s : State) : Prop := ∀ p, PortLaw s.restart (s.port p)

/-! ### Laws of the connection table -/

/-- R88: ids rise through the table and lie in range, endpoints are legal, and no endpoint is the
destination of two records. -/
def TableLaw (s : State) : Prop :=
  s.connections.Pairwise (fun c d => c.id < d.id)
    ∧ s.connections.Pairwise (fun c d => c.destination ≠ d.destination)
    ∧ ∀ c ∈ s.connections, c.id < 160 ∧ c.source < 176 ∧ c.destination < 160
        ∧ c.source ≠ c.destination

/-- R42, R90: classes are 0 to 3. -/
def ClassLaw (s : State) : Prop :=
  (∀ n, s.classOf n ≤ 3) ∧ ∀ c ∈ s.connections, c.cls ≤ 3

/-- R89: a station named in a record without a service source is ADMITTED. -/
def StationLaw (s : State) : Prop :=
  ∀ c ∈ s.connections, ¬160 ≤ c.source → ∀ e, c.names e = true → e < 96 →
    ∃ identity, (s.station e).state = .admitted identity

/-- R94, for one record of a station to a trunk: the group is in the mask, TIE_ONLY and REQUIRED
stations are on TIE trunks, and REQUIRED stations are scrambled there. -/
def Conforms (s : State) (e : DirectoryEntry) (trunk : Nat) (scrambled : Bool) : Prop :=
  e.mask.getLsbD (s.slot (trunk - 96)).group = true
    ∧ (e.privacy ≠ .openClass → (s.slot (trunk - 96)).mode ≠ .publicTrunk)
    ∧ (e.privacy = .required → (s.slot (trunk - 96)).mode = .tie → scrambled = true)

/-- R94: every record joining a station to a trunk conforms to the directory entry of the identity
the station is ADMITTED with. -/
def ServiceLaw (s : State) : Prop :=
  ∀ c ∈ s.connections, ∀ station trunk,
    ((c.source = station ∧ c.destination = trunk) ∨ (c.source = trunk ∧ c.destination = station)) →
    station < 96 → 96 ≤ trunk → trunk < 160 →
    ∀ identity, (s.station station).state = .admitted identity →
    ∃ e, s.entry identity = some e ∧ Conforms s e trunk c.privacy.isSome

/-! ### The law of the busy counts -/

/-- R116: the busy count of a group is the number of its slots that some record names. -/
def BusyLaw (s : State) : Prop :=
  ∀ g, g < 8 → (s.group g).busy =
    (List.range 64).countP fun n => (s.slot n).group == g && s.named (96 + n)

/-! ### Laws of call privacy -/

/-- The direction of a leg state (R133). -/
def LegState.direction : LegState → Direction
  | .waitingScramble _ | .running .. => .scramble
  | .waitingDescramble | .hunt .. | .synced .. => .descramble

/-- A leg that has not started (R133). -/
def LegState.isWaiting : LegState → Bool
  | .waitingScramble _ | .waitingDescramble => true
  | _ => false

/-- R91, R128, R133, for one record with a privacy part: the context is LOADED, the leg is held for it
in the record's direction, WAITING exactly while the record is PENDING, and the TIE endpoint is the
destination of a SCRAMBLE record and the source of a DESCRAMBLE one, and no other endpoint. -/
def PartLaw (s : State) (c : Connection) (part : PrivacyPart) : Prop :=
  part.key < 32 ∧ part.leg < 64 ∧ (s.key part.key).material.isSome = true
    ∧ (∃ leg, s.leg part.leg = some leg ∧ leg.key = part.key
        ∧ leg.state.direction = part.direction ∧ leg.state.isWaiting = !c.live)
    ∧ s.isTie c.destination = (part.direction == .scramble)
    ∧ s.isTie c.source = (part.direction == .descramble)

/-- R76, R128, R133: every privacy part is in order, no two records share a leg, every held leg belongs
to a record, use counts are the numbers of records, and stored increments are odd. -/
def PrivacyLaw (s : State) : Prop :=
  (∀ c ∈ s.connections, ∀ part ∈ c.privacy, PartLaw s c part)
    ∧ s.connections.Pairwise (fun c d =>
        ∀ part ∈ c.privacy, ∀ part' ∈ d.privacy, part.leg ≠ part'.leg)
    ∧ (∀ n leg, s.leg n = some leg →
        ∃ c ∈ s.connections, ∃ part ∈ c.privacy, part.leg = n)
    ∧ (∀ k, k < 32 → (s.key k).useCount =
        s.connections.countP fun c => (c.privacy.map (·.key)) == some k)
    ∧ ∀ k m, (s.key k).material = some m → m.increment.getLsbD 0 = true

/-! ### Laws of the directory and of admission -/

/-- R30, R32: entries rise by identity, and every field is legal. -/
def DirectoryLaw (s : State) : Prop :=
  s.directory.Pairwise (fun d e => d.identity < e.identity)
    ∧ s.directory.length ≤ 256
    ∧ ∀ e ∈ s.directory, 1 ≤ e.identity ∧ e.identity ≤ 9999 ∧ (∀ n ∈ e.precedence, n ≤ 7)
        ∧ ∀ ports ∈ e.homePorts, ports ≠ [] ∧ ports.length ≤ 4
            ∧ ports.Pairwise (· < ·) ∧ ∀ n ∈ ports, n ≤ 47

/-- The identity a station state is ADMITTED or CHALLENGED with. -/
def StationState.concerns (state : StationState) (identity : Nat) : Prop :=
  state = .admitted identity ∨ ∃ h r d, state = .challenged identity h r d

/-- R39, R44, R61, R93: the identity of every ADMITTED or CHALLENGED station is present and ENABLED and
admits its line port, no identity is ADMITTED at two positions, and such stations stand only on
ENABLED ports, second sets only where pairing is ON. -/
def AdmissionLaw (s : State) : Prop :=
  (∀ n identity, (s.station n).state.concerns identity →
      (∃ e, s.entry identity = some e ∧ e.suspended = false ∧ e.admitsLine (n / 2) = true)
      ∧ (s.line (n / 2)).condition = .enabled
      ∧ (n % 2 = 1 → (s.line (n / 2)).pairing = true))
    ∧ ∀ n m identity, (s.station n).state = .admitted identity →
        (s.station m).state = .admitted identity → n = m

/-- R56: a deliver queue holds up to 4 messages, and only an ADMITTED station's holds any. -/
def DeliverLaw (s : State) : Prop :=
  ∀ n, (s.station n).deliver.length ≤ 4
    ∧ ((s.station n).deliver ≠ [] → ∃ identity, (s.station n).state = .admitted identity)

/-! ### Laws of call trace -/

/-- The trace record of a TRIPPED watch and its hold flag (R160). -/
def Watch.trace : Watch → Option (TraceRecord × Bool)
  | .tripped _ _ hold t => some (t, hold)
  | _ => none

/-- The identity a watch that is not IDLE watches (R160). -/
def Watch.watched : Watch → Option Nat
  | .idle => none
  | .armed identity _ => some identity
  | .tripped identity _ _ _ => some identity

/-- R160, R163, R165: no identity is watched twice; the record a trace record names stands and is LIVE
until released-since is set; a hold flag is set only before that; and a record is trace-held exactly
while some watch holds it. -/
def WatchLaw (s : State) : Prop :=
  (∀ m n identity, (s.watch m).watched = some identity → (s.watch n).watched = some identity →
      m = n)
    ∧ (∀ n t hold, (s.watch n).trace = some (t, hold) →
        (hold = true → t.releasedSince = false)
        ∧ (t.releasedSince = false →
            ∃ c ∈ s.connections, c.id = t.connectionId ∧ c.live = true))
    ∧ ∀ c ∈ s.connections, (c.traceHeld = true ↔
        ∃ n t, (s.watch n).trace = some (t, true) ∧ t.connectionId = c.id)

/-! ### Laws of the RESTARTING period -/

/-- R16, R53, R109, R172, R174: during RESTARTING mastership is vacant, no station record is CHALLENGED
or HOLD_OFF, no admission message and no deliver message waits, no record is PENDING, and none
stands at all in a cold restart. -/
def RestartLaw (s : State) : Prop :=
  s.restart.isSome →
    s.mastership = .vacant
    ∧ (∀ n, ((s.station n).state = .vacant ∨ (s.station n).state = .locked
          ∨ ∃ identity, (s.station n).state = .admitted identity)
        ∧ (s.station n).slot = none ∧ (s.station n).deliver = [])
    ∧ (∀ c ∈ s.connections, c.live = true)
    ∧ (s.restart = some .cold → s.connections = [])

/-- R174: a RESTARTING period that is measured has lasted 4 ms at most. -/
def RestartBoundLaw (s : State) : Prop :=
  s.restart.isSome → s.resetPin = false → s.clock ≤ s.restartSince + 4000

end Sys2Proof.Machine
end

