-- ==== Sys2Proof/Certificates/Slice0/Obligations.lean ====
section
/-! DEFINITION. The statements for the provers, from the rules of the manual. Each docstring names the
rules. A clause that rests on a log entry says so. -/

open Sys2Proof Sys2Proof.Machine

/-! ### The step, and the start of the part -/

/-- A step takes the command at the front of the queue and runs it with the queue's rest. That one queue
orders the commands of all agents is the model's choice (log entry 23). -/
def Obligations.StepRunsTheFrontCommand : Prop :=
  ∀ (c : Instr) (rest : List Instr) (s : State),
    step { s with pending := c :: rest } = exec c { s with pending := rest }

/-- The values that R1, R16, R31, R47, R53, R71, R72, R109, R110, R113, R127, R133 and R160 give for the
start of a cold restart, after a power-on (R175: POWER_ON alone); that state satisfies every law of the
tables. That the state after reset is the start of the power-on cold restart, in progress (R170), is the
model's reading (log entry 4). -/
def Obligations.PowerOnStateHoldsColdValuesAndLaws : Prop :=
  (∀ p, (State.reset.port p).orders = [] ∧ (State.reset.port p).out = []
      ∧ (State.reset.port p).mode = .ungated ∧ (State.reset.port p).missed = false
      ∧ (State.reset.port p).causes = ⟨true, false, false, false⟩)
    ∧ State.reset.lastServed = .m ∧ State.reset.mastership = .vacant
    ∧ State.reset.lapseInterval = 512 ∧ State.reset.directory = []
    ∧ State.reset.precedenceMap.toList = [0, 0, 1, 1, 2, 2, 3, 3]
    ∧ (∀ n, n < 48 → (State.reset.line n).condition = .disabled .order
        ∧ (State.reset.line n).pairing = false ∧ (State.reset.line n).defaultPrecedence = 0
        ∧ (State.reset.line n).tolerance = 0 ∧ (State.reset.line n).babbleCount = 0
        ∧ (State.reset.line n).linkUp = false ∧ (State.reset.line n).lastSecond = true)
    ∧ (∀ n, n < 96 → State.reset.station n = ⟨.vacant, 0, none, []⟩)
    ∧ State.reset.answerWindow = 256 ∧ State.reset.holdOffTime = 2048
    ∧ State.reset.lockoutCount = 3 ∧ State.reset.challengeSequence = 1
    ∧ State.reset.connections = [] ∧ State.reset.frameCounter = 0 ∧ State.reset.muteCode = 255
    ∧ (∀ e, e < 176 → State.reset.receivedSample e = 255)
    ∧ (∀ n, n < 64 → State.reset.slot n = ⟨.outOfService, 0⟩)
    ∧ (∀ g, g < 8 → State.reset.group g = ⟨64, 0, 3, 64, 63, 0, false⟩)
    ∧ (∀ k, k < 32 → State.reset.key k = ⟨none, 2, 3, 0⟩)
    ∧ (∀ n, n < 64 → State.reset.leg n = none)
    ∧ (∀ n, n < 4 → State.reset.watch n = .idle)
    ∧ State.reset.restart = some .cold
    ∧ QueueLaw State.reset ∧ TableLaw State.reset ∧ ClassLaw State.reset ∧ StationLaw State.reset
    ∧ ServiceLaw State.reset ∧ GroupLaw State.reset ∧ CongestionLaw State.reset
    ∧ BusyLaw State.reset ∧ PrivacyLaw State.reset ∧ DirectoryLaw State.reset
    ∧ AdmissionLaw State.reset ∧ DeliverLaw State.reset ∧ WatchLaw State.reset
    ∧ RestartLaw State.reset ∧ RestartBoundLaw State.reset

/-! ### The arbiter and the take (R7 to R9, R26) -/

/-- R7, R8: of all the rows that take an order, exactly the row of the order that the arbiter takes next
acts; every other row, and every row while no order can be taken, leaves the state as it is (log entry
3). -/
def Obligations.OnlyTheRowOfTheGrantedOrderActs : Prop :=
  (∀ o : OrderRecord, rowOf o ∈ takeRows)
    ∧ (∀ (s : State) (p : Port) (o : OrderRecord), ∀ i ∈ takeRows, s.Takes p o →
        i ≠ rowOf o → exec i s = .next s)
    ∧ (∀ (s : State) (p : Port) (o : OrderRecord), s.Takes p o → exec (rowOf o) s ≠ .next s)
    ∧ ∀ s : State, (∀ p o, ¬s.Takes p o) → ∀ i ∈ takeRows, exec i s = .next s

/-- R8 check 1: an order of an unknown code, of a length that does not fit, over-length, or with a code
outside its set is refused BAD_ORDER from any port. -/
def Obligations.MisformedOrderIsRefusedBadOrder : Prop :=
  (∀ (s : State) (p : Port) (o : OrderRecord), s.Takes p o → ¬FormFits o →
    exec (rowOf o) s = .next (s.refusal p o.code o.tag .badOrder []))
  ∧ ∀ (s : State) (p : Port) (o : OrderRecord), s.Takes p o → o.code ≠ 0x31 →
    (∀ r ∈ orderTable, r.2.1 ≠ o.code) →
    exec .unknownOrder s = .next (s.refusal p o.code o.tag .badOrder [])

/-- R8 checks 2 and 3, R9, R26: a well-formed order from a port outside its class is refused NOT_ALLOWED,
and one that needs the holder and does not come from it NOT_HOLDER or LAPSED. -/
def Obligations.OrderWithoutAuthorityIsRefused : Prop :=
  ∀ (s : State) (p : Port) (o : OrderRecord), s.Takes p o → FormFits o →
    (p = .m → (rowOf o = .releaseById ∨ rowOf o = .releaseByTag
        ∨ rowOf o ∈ (holderRows ++ controllerRows).map (·.1)) →
      exec (rowOf o) s = .next (s.refusal p o.code o.tag .notAllowed []))
    ∧ (p ≠ .m → rowOf o ∈ portMRows.map (·.1) →
      exec (rowOf o) s = .next (s.refusal p o.code o.tag .notAllowed []))
    ∧ ∀ x, controllerOf p = some x → (rowOf o = .releaseById ∨ rowOf o = .releaseByTag
        ∨ rowOf o ∈ (holderRows ++ sharedRows).map (·.1)) →
      (s.mastership = .vacant →
        exec (rowOf o) s = .next (s.refusal p o.code o.tag .notHolder []))
      ∧ (∀ y t, s.mastership = .held y t → y ≠ x →
        exec (rowOf o) s = .next (s.refusal p o.code o.tag .notHolder []))
      ∧ (∀ y, s.mastership = .lapsed y → y ≠ x →
        exec (rowOf o) s = .next (s.refusal p o.code o.tag .notHolder []))
      ∧ (s.mastership = .lapsed x →
        exec (rowOf o) s = .next (s.refusal p o.code o.tag .lapsed []))

/-- R8: a take that begins no restart removes the head order, appends one reply to the issuing port's out
queue, and only then the events it caused; a refusal changes nothing else. -/
def Obligations.TakeRepliesOnceAheadOfItsEvents : Prop :=
  ∀ (s : State) (p : Port) (o : OrderRecord), s.Takes p o → ∃ t, exec (rowOf o) s = .next t
    ∧ (t.restart ≠ none → o.code = 0x70 ∨ o.code = 0x71)
    ∧ (t.restart = none → ∃ (outcome : OutcomeCode) (fields : List Byte) (es : List Event),
        (t.port p).out = (s.port p).out ++ .reply o.code o.tag outcome fields :: es.map .event
          ∧ (t.port p).orders = (s.port p).orders.tail ∧ t.lastServed = p
          ∧ (outcome ≠ .done → t = s.refusal p o.code o.tag outcome fields))

/-- R10, R11: an event is appended to the out queue of each of its ports, or lost for that port alone,
with the missed-events flag set, when the queue is full or a restart is in progress. A transfer in
progress learns of the loss (R5). -/
def Obligations.EventIsPostedPortByPort : Prop :=
  ∀ (s : State) (e : Event) (p : Port), (s.post e).port p =
    if (match e with
        | .mastership .. | .portDisabled .. | .restarted _ | .lockedOut .. => true
        | .traceTripped .. => p == .m
        | _ => p == .a || p == .b) = true then
      if s.restart = none ∧ (s.port p).out.length < 32 then
        { s.port p with out := (s.port p).out ++ [.event e] }
      else
        { s.port p with
          missed := true
          transfer := (s.port p).transfer.map fun t => { t with lostSince := true } }
    else s.port p

/-! ### Transfers (R2 to R5) -/

/-- R2, R177: a transfer of any kind opens with the status byte of that instant: free order entries, out
queue non-empty, missed-events flag, RESTARTING, holder (log entry 5 for the opening as a command). -/
def Obligations.TransferOpensWithTheStatusByte : Prop :=
  ∀ (s : State) (p : Port) (record : List Byte),
    let b : Byte := byteOf (16 * (8 - (s.port p).orders.length)
      + (if (s.port p).out = [] then 0 else 8) + (if (s.port p).missed = true then 4 else 0)
      + (if s.restart = none then 0 else 2)
      + (match p, s.mastership with
          | .a, .held .a _ => 1
          | .b, .held .b _ => 1
          | _, _ => 0))
    let t := s.setPort p { s.port p with
      transfer := some
        ⟨decide ((s.port p).orders.length < 8) && s.restart.isNone, false, false, b⟩
      sent := [b] }
    exec (.orderTransfer p .opening record) s = .next t
      ∧ exec (.fetchTransfer p .opening) s = .next t
      ∧ exec (.statusTransfer p .opening) s = .next t

/-- R3: what an ORDER transfer leaves. The record is queued when the status byte showed room and no
restart, none has begun since, and all its declared bytes came; at most 32 parameter bytes are kept. The
status byte is that of the opening, or of now when no transfer was open (log entry 5). -/
def Obligations.OrderTransferQueuesAnAdmittedRecord : Prop :=
  ∀ (s : State) (p : Port) (code tag length : Byte) (params : List Byte),
    let admits : Bool := match (s.port p).transfer with
      | some t => t.admits && !t.restartSince
      | none => decide ((s.port p).orders.length < 8) && s.restart.isNone
    let sent : List Byte := match (s.port p).transfer with
      | some _ => (s.port p).sent
      | none => [s.statusByteOf p]
    (params.length = length.toNat →
      exec (.orderTransfer p .completing (code :: tag :: length :: params)) s =
        .next (s.setPort p { s.port p with
          orders :=
            if admits = true then
              (s.port p).orders
                ++ [⟨code, tag, params.take 32, decide (32 < length.toNat)⟩]
            else (s.port p).orders
          transfer := none
          sent := sent }))
    ∧ (params.length < length.toNat → ∀ short,
      (short = [] ∨ short = [code] ∨ short = [code, tag] ∨ short = code :: tag :: length :: params) →
      exec (.orderTransfer p .completing short) s =
        .next (s.setPort p { s.port p with transfer := none, sent := sent }))

/-- R2, R4, R5: a FETCH transfer removes and sends the oldest entry of the out queue, or sends EMPTY; a
STATUS transfer clears the missed-events flag unless an event bound for the port has been discarded since
its status byte; a transfer of an unknown kind, or ended before its kind, changes nothing. With no
transfer open the command is a whole transfer (log entry 5). -/
def Obligations.FetchStatusAndUnknownTransfersComplete : Prop :=
  ∀ (s : State) (p : Port) (kind : Option Byte),
    let sent : List Byte := match (s.port p).transfer with
      | some _ => (s.port p).sent
      | none => [s.statusByteOf p]
    (∀ entry rest, (s.port p).out = entry :: rest →
      exec (.fetchTransfer p .completing) s =
        .next (s.setPort p { s.port p with
          out := rest, transfer := none, sent := sent ++ entryBytes entry }))
    ∧ ((s.port p).out = [] →
      exec (.fetchTransfer p .completing) s =
        .next (s.setPort p { s.port p with transfer := none, sent := sent ++ [0x00, 0x00] }))
    ∧ exec (.statusTransfer p .completing) s =
        .next (s.setPort p { s.port p with
          transfer := none
          missed := (match (s.port p).transfer with
            | some t => (s.port p).missed && t.lostSince
            | none => false)
          sent := sent })
    ∧ exec (.unknownTransferKind p kind) s =
        .next (s.setPort p { s.port p with transfer := none, sent := sent })

/-! ### Mastership (R17 to R29) -/

/-- R18, R25: CLAIM by the state of the record, from a controller's port alone. -/
def Obligations.ClaimIsDecidedByTheRecord : Prop :=
  (∀ (s : State) (p : Port) (x : Controller) (tag : Byte), controllerOf p = some x →
    s.Takes p (queuedOrder 0x01 tag []) →
    let held := s.done p 0x01 tag (1 :: controllerCode (some x) :: bytes2 s.lapseInterval)
      fun t => { t with mastership := .held x (s.clock + 1000 * s.lapseInterval) }
    exec .claim s = .next (match s.mastership with
      | .vacant => held.post (.mastership .held (some x) .claimed none)
      | .held y _ =>
        if y = x then held else s.refusal p 0x01 tag .held [controllerCode (some y)]
      | .lapsed y =>
        held.post (.mastership .held (some x) (if y = x then .recovered else .takeover) (some y))))
  ∧ ∀ (s : State) (tag : Byte), s.Takes .m (queuedOrder 0x01 tag []) →
    exec .claim s = .next (s.refusal .m 0x01 tag .notAllowed [])

/-- R20, R23, R25: PULSE and YIELD by the state of the record, from a controller's port alone. -/
def Obligations.PulseAndYieldAreDecidedByTheRecord : Prop :=
  (∀ (s : State) (p : Port) (x : Controller) (tag : Byte), controllerOf p = some x →
    (s.Takes p (queuedOrder 0x02 tag []) →
      let held := s.done p 0x02 tag (1 :: controllerCode (some x) :: bytes2 s.lapseInterval)
        fun t => { t with mastership := .held x (s.clock + 1000 * s.lapseInterval) }
      exec .pulse s = .next (match s.mastership with
        | .vacant => s.refusal p 0x02 tag .notHolder []
        | .held y _ => if y = x then held else s.refusal p 0x02 tag .notHolder []
        | .lapsed y =>
          if y = x then held.post (.mastership .held (some x) .recovered (some x))
          else s.refusal p 0x02 tag .notHolder []))
    ∧ (s.Takes p (queuedOrder 0x03 tag []) →
      let yielded := (s.done p 0x03 tag (0 :: 0 :: bytes2 s.lapseInterval)
        fun t => { t with mastership := .vacant }).post
          (.mastership .none none .yielded (some x))
      exec .yield s = .next (match s.mastership with
        | .vacant => s.refusal p 0x03 tag .notHolder []
        | .held y _ => if y = x then yielded else s.refusal p 0x03 tag .notHolder []
        | .lapsed y => if y = x then yielded else s.refusal p 0x03 tag .notHolder [])))
  ∧ ∀ (s : State) (tag : Byte),
    (s.Takes .m (queuedOrder 0x02 tag []) →
      exec .pulse s = .next (s.refusal .m 0x02 tag .notAllowed []))
    ∧ (s.Takes .m (queuedOrder 0x03 tag []) →
      exec .yield s = .next (s.refusal .m 0x03 tag .notAllowed []))

/-- R21, R22, R24, R25: ASSIGN sets the record unconditionally, SET LAPSE stores L clamped into 64 to
4096 ms and leaves a running timer's expiry, LOOK MASTERSHIP reports and changes nothing. The result
fields of SET LAPSE are those of log entry 7. -/
def Obligations.AssignSetLapseAndLookMastershipComplete : Prop :=
  ∀ (s : State) (tag hi lo : Byte),
    let holder : Option Controller := match s.mastership with
      | .vacant => none
      | .held x _ => some x
      | .lapsed x => some x
    let stateCode : Byte := match s.mastership with
      | .vacant => 0
      | .held _ _ => 1
      | .lapsed _ => 2
    (s.Takes .m (queuedOrder 0x04 tag [0]) → exec .assign s = .next
      ((s.done .m 0x04 tag (0 :: 0 :: bytes2 s.lapseInterval)
        fun t => { t with mastership := .vacant }).post (.mastership .none none .assigned holder)))
    ∧ (∀ x, s.Takes .m (queuedOrder 0x04 tag [controllerCode (some x)]) → exec .assign s = .next
      ((s.done .m 0x04 tag (1 :: controllerCode (some x) :: bytes2 s.lapseInterval)
        fun t => { t with mastership := .held x (s.clock + 1000 * s.lapseInterval) }).post
          (.mastership .held (some x) .assigned holder)))
    ∧ (s.Takes .m (queuedOrder 0x05 tag [hi, lo]) →
      let l := max 64 (min 4096 (hi ++ lo : Word16).toNat)
      exec .setLapse s = .next (s.done .m 0x05 tag
        (stateCode :: controllerCode holder :: bytes2 l) fun t => { t with lapseInterval := l }))
    ∧ ∀ p, s.Takes p (queuedOrder 0x06 tag []) → exec .lookMastership s = .next (s.done p 0x06 tag
        (stateCode :: controllerCode holder :: (bytes2 s.lapseInterval ++ bytes2
          (match s.mastership with
            | .held _ expiry => (expiry - s.clock) / 1000
            | _ => 0))) fun t => t)

/-- R17, R25, R28: the expiry of the lapse timer makes HELD(X) LAPSED(X), posts MASTERSHIP and changes
nothing else; a stopped timer does not expire. The clock is the model's (log entries 1 and 2). -/
def Obligations.LapseTimerExpiryMakesTheHolderLapsed : Prop :=
  (∀ (s : State) (x : Controller) (expiry : Nat), s.mastership = .held x expiry →
      exec .lapseTimerExpiry s = .next
      (({ s with mastership := .lapsed x, clock := max s.clock expiry } : State).post
        (.mastership .lapsed (some x) .lapsed (some x))))
    ∧ ∀ s : State, (s.mastership = .vacant ∨ ∃ x, s.mastership = .lapsed x) →
      exec .lapseTimerExpiry s = .next s

/-- R28: the commands of stations, lines, deadlines and frames do the same in every state of the
mastership record, and leave it alone. -/
def Obligations.CallsAndStationsIgnoreMastership : Prop :=
  ∀ (i : Instr), IsCallSideCommand i → ∀ (s t : State) (m : Mastership), exec i s = .next t →
    t.mastership = s.mastership
      ∧ exec i { s with mastership := m } = .next { t with mastership := m }

/-! ### The extension directory (R30 to R43) -/

/-- R32, R34, R36: ENTER inserts the entry at its place, SET SECRET replaces the secret alone, RESUME
sets the status to ENABLED alone; each with its refusals in order. -/
def Obligations.EnterSetSecretAndResumeChangeOneEntry : Prop :=
  (∀ (s : State) (tag iHi iLo sHi sLo pm pv pc mask st : Byte) (homes : List Byte),
    let identity := (iHi ++ iLo : Word16).toNat
    let params := iHi :: iLo :: sHi :: sLo :: pm :: pv :: pc :: mask :: st :: homes
    let e : DirectoryEntry :=
      { identity := identity
        secret := sHi ++ sLo
        precedence := if pm = 1 then some pv.toNat else none
        privacy := if pc = 0 then .openClass else if pc = 1 then .tieOnly else .required
        mask := mask
        homePorts :=
          if homes = [] then none
          else some ((List.range 48).filter fun n => homes.any fun b => b.toNat == n)
        suspended := st == 1 }
    s.Takes .m (queuedOrder 0x10 tag params) → homes.length ≤ 4 →
    pm.toNat ≤ 1 → pc.toNat ≤ 2 → st.toNat ≤ 1 → DirectoryLaw s →
    exec .enter s = .next (
      if identity = 0 ∨ 9999 < identity ∨ (pm = 1 ∧ 7 < pv.toNat) ∨ (∃ b ∈ homes, 47 < b.toNat) then
        s.refusal .m 0x10 tag .range []
      else if ∃ d ∈ s.directory, d.identity = identity then s.refusal .m 0x10 tag .alreadyExists []
      else if s.directory.length = 256 then s.refusal .m 0x10 tag .full []
      else s.done .m 0x10 tag (bytes2 identity ++ bytes2 (s.directory.length + 1)) fun t =>
        { t with
          directory := s.directory.filter (fun d => decide (d.identity < identity))
            ++ e :: s.directory.filter (fun d => decide (identity < d.identity)) }))
  ∧ (∀ (s : State) (tag iHi iLo sHi sLo : Byte),
    let identity := (iHi ++ iLo : Word16).toNat
    s.Takes .m (queuedOrder 0x12 tag [iHi, iLo, sHi, sLo]) →
    exec .setSecret s = .next (
      if identity = 0 ∨ 9999 < identity then s.refusal .m 0x12 tag .range []
      else if ∀ d ∈ s.directory, d.identity ≠ identity then s.refusal .m 0x12 tag .noEntry []
      else s.done .m 0x12 tag (bytes2 identity) fun t =>
        { t with
          directory := s.directory.map fun d =>
            if d.identity = identity then { d with secret := sHi ++ sLo } else d }))
  ∧ ∀ (s : State) (p : Port) (tag iHi iLo : Byte),
    let identity := (iHi ++ iLo : Word16).toNat
    s.Takes p (queuedOrder 0x15 tag [iHi, iLo]) → s.HolderOrM p →
    exec .resume s = .next (
      if identity = 0 ∨ 9999 < identity then s.refusal p 0x15 tag .range []
      else match s.directory.find? fun d => d.identity == identity with
        | none => s.refusal p 0x15 tag .noEntry []
        | some e => s.done p 0x15 tag (bytes2 identity ++ [if e.suspended = true then 1 else 0])
          fun t =>
            { t with
              directory := s.directory.map fun d =>
                if d.identity = identity then { d with suspended := false } else d })

/-- R33, R35, R39, R65: REMOVE and SUSPEND are refused RANGE or NO_ENTRY, or withdraw the station
ADMITTED with the identity and abandon every challenge of it, and touch no other station. `position` is
where the identity is ADMITTED. REMOVE's reply carries no count of records released (log entry 27). -/
def Obligations.RemoveAndSuspendRetireTheIdentity : Prop :=
  (∀ (s : State) (p : Port) (tag iHi iLo : Byte),
    let identity := (iHi ++ iLo : Word16).toNat
    (s.Takes .m (queuedOrder 0x11 tag [iHi, iLo]) →
      (identity = 0 ∨ 9999 < identity → exec .remove s = .next (s.refusal .m 0x11 tag .range []))
      ∧ (1 ≤ identity → identity ≤ 9999 → (∀ d ∈ s.directory, d.identity ≠ identity) →
        exec .remove s = .next (s.refusal .m 0x11 tag .noEntry [])))
    ∧ (s.Takes p (queuedOrder 0x14 tag [iHi, iLo]) → s.HolderOrM p →
      (identity = 0 ∨ 9999 < identity → exec .suspend s = .next (s.refusal p 0x14 tag .range []))
      ∧ (1 ≤ identity → identity ≤ 9999 → (∀ d ∈ s.directory, d.identity ≠ identity) →
        exec .suspend s = .next (s.refusal p 0x14 tag .noEntry []))))
  ∧ ∀ (s : State) (p : Port) (tag iHi iLo : Byte) (e : DirectoryEntry) (position : Option Nat),
    let identity := (iHi ++ iLo : Word16).toNat
    let challenged : Nat → Bool := fun n => (s.station n).state.challengedIdentity == some identity
    let after : Nat → Station := fun n =>
      if position = some n then (s.station n).withdrawn
      else if challenged n = true then
        { s.station n with state := .vacant, slot := s.slotWith n (.refuse .unknown) }
      else s.station n
    let gone : Connection → Bool := fun c => position.any fun n => c.fallsWith n
    let fields : List Byte := [(position.map byteOf).getD 0xFF,
      byteOf ((List.range 96).countP challenged)]
    let report : ReleaseReason → List Event := fun reason =>
      s.withdrawalReport reason position.toList ++ s.abandonReport identity .unknown challenged
    TableLaw s → (∀ n, position = some n ↔ (s.station n).state = .admitted identity) →
    1 ≤ identity → identity ≤ 9999 → (s.directory.find? fun d => d.identity == identity) = some e →
    (s.Takes .m (queuedOrder 0x11 tag [iHi, iLo]) → p = .m → ∃ t, exec .remove s = .next t
      ∧ Retires (s.done .m 0x11 tag (bytes2 identity ++ fields) fun t =>
            { t with directory := s.directory.filter fun d => d.identity != identity })
          t after gone (report .removed) [])
    ∧ (s.Takes p (queuedOrder 0x14 tag [iHi, iLo]) → s.HolderOrM p → e.suspended = false →
      ∃ t, exec .suspend s = .next t
        ∧ Retires (s.done p 0x14 tag (bytes2 identity ++ 0 :: fields) fun t =>
            { t with
              directory := s.directory.map fun d =>
                if d.identity = identity then { d with suspended := true } else d })
          t after gone (report .suspended) [])
    ∧ (s.Takes p (queuedOrder 0x14 tag [iHi, iLo]) → s.HolderOrM p → e.suspended = true →
      exec .suspend s = .next
        (s.done p 0x14 tag (bytes2 identity ++ [1, 0xFF, 0]) fun t => t))

/-- R37, R38, R156: AMEND is refused RANGE or NO_ENTRY, or changes exactly the fields whose markers say
so, withdraws or abandons what the new home ports exclude, and otherwise releases exactly the records of
the station that no longer conform. `position` is where the identity is ADMITTED. The entry's fields in
the reply and their order are those of log entry 8. -/
def Obligations.AmendChangesMarkedFieldsAndReleasesTheRest : Prop :=
  (∀ (s : State) (p : Port) (tag iHi iLo pm pv cm cv mm mv hm : Byte) (homes : List Byte),
    let identity := (iHi ++ iLo : Word16).toNat
    let outside : Prop := identity = 0 ∨ 9999 < identity ∨ (pm = 1 ∧ 7 < pv.toNat)
      ∨ ∃ b ∈ homes, 47 < b.toNat
    s.Takes p (queuedOrder 0x13 tag
      (iHi :: iLo :: pm :: pv :: cm :: cv :: mm :: mv :: hm :: homes)) → s.HolderOrM p →
    pm.toNat ≤ 2 → cm.toNat ≤ 1 → (cm = 1 → cv.toNat ≤ 2) → mm.toNat ≤ 1 → hm.toNat ≤ 2 →
    homes.length ≤ 4 → (hm = 1 ↔ homes ≠ []) →
    (outside → exec .amend s = .next (s.refusal p 0x13 tag .range []))
    ∧ (¬outside → (∀ d ∈ s.directory, d.identity ≠ identity) →
      exec .amend s = .next (s.refusal p 0x13 tag .noEntry [])))
  ∧ ∀ (s : State) (p : Port) (tag iHi iLo pm pv cm cv mm mv hm : Byte) (homes : List Byte)
      (e : DirectoryEntry) (position : Option Nat),
    let identity := (iHi ++ iLo : Word16).toNat
    let e' : DirectoryEntry :=
      { e with
        precedence := if pm = 1 then some pv.toNat else if pm = 2 then none else e.precedence
        privacy := if cm = 1 then if cv = 0 then .openClass else if cv = 1 then .tieOnly else .required
          else e.privacy
        mask := if mm = 1 then mv else e.mask
        homePorts :=
          if hm = 1 then some ((List.range 48).filter fun n => homes.any fun b => b.toNat == n)
          else if hm = 2 then none else e.homePorts }
    let excluded : Nat → Bool := fun n => hm == 1 && !homes.any fun b => b.toNat == n / 2
    let challenged : Nat → Bool := fun n =>
      (s.station n).state.challengedIdentity == some identity && excluded n
    let after : Nat → Station := fun n =>
      if position = some n ∧ excluded n = true then (s.station n).withdrawn
      else if challenged n = true then
        { s.station n with state := .vacant, slot := s.slotWith n (.refuse .notHere) }
      else s.station n
    TableLaw s → DirectoryLaw s →
    (∀ n, position = some n ↔ (s.station n).state = .admitted identity) →
    s.Takes p (queuedOrder 0x13 tag
      (iHi :: iLo :: pm :: pv :: cm :: cv :: mm :: mv :: hm :: homes)) → s.HolderOrM p →
    pm.toNat ≤ 2 → cm.toNat ≤ 1 → (cm = 1 → cv.toNat ≤ 2) → mm.toNat ≤ 1 → hm.toNat ≤ 2 →
    homes.length ≤ 4 → (hm = 1 ↔ homes ≠ []) → 1 ≤ identity → identity ≤ 9999 →
    (pm = 1 → pv.toNat ≤ 7) → (∀ b ∈ homes, b.toNat ≤ 47) →
    (s.directory.find? fun d => d.identity == identity) = some e →
    ∃ (t : State) (gone : Connection → Bool), exec .amend s = .next t
      ∧ (∀ c ∈ s.connections, gone c = true ↔
          ∃ n, position = some n
            ∧ ((excluded n = true ∧ c.fallsWith n = true)
              ∨ (excluded n = false ∧ (cm = 1 ∨ mm = 1)
                ∧ ∃ trunk, ((c.source = n ∧ c.destination = trunk)
                    ∨ (c.source = trunk ∧ c.destination = n))
                  ∧ 96 ≤ trunk ∧ trunk < 160 ∧ ¬Conforms s e' trunk c.privacy.isSome)))
      ∧ Retires
          (s.done p 0x13 tag
            (bytes2 identity
              ++ [(e'.precedence.map byteOf).getD 0xFF, privacyClassCode e'.privacy, e'.mask]
              ++ byteOf (e'.homePorts.getD []).length :: (e'.homePorts.getD []).map byteOf
              ++ [if e.suspended = true then 1 else 0,
                  ((position.filter excluded).map byteOf).getD 0xFF,
                  byteOf ((List.range 96).countP challenged),
                  byteOf (s.connections.countP gone)])
            fun t =>
              { t with
                directory := s.directory.map fun d => if d.identity = identity then e' else d })
          t after gone
          (s.withdrawalReport .classChange (position.filter excluded).toList
            ++ s.abandonReport identity .notHere challenged
            ++ (if (position.filter excluded).isSome = true then []
              else releasedReport s.connections gone .classChange)) []

/-- R42, R71, R72, R104: the orders that set and report the settings of the part store exactly what they
say, clamped where the manual clamps, and change nothing else. -/
def Obligations.SettingsOrdersStoreAndReport : Prop :=
  ∀ (s : State) (p : Port) (tag a b c d e f g h : Byte),
    let classes : List Byte := [a, b, c, d, e, f, g, h]
    let window := max 64 (min 1024 (a ++ b : Word16).toNat)
    let holdOff := max 256 (min 16384 (c ++ d : Word16).toNat)
    let count := max 2 (min 8 e.toNat)
    (s.Takes p (queuedOrder 0x18 tag classes) → s.HolderAt p →
      exec .setPrecedenceMap s = .next (
        if ∃ x ∈ classes, 3 < x.toNat then s.refusal p 0x18 tag .range []
        else s.done p 0x18 tag classes fun t =>
          { t with precedenceMap := #v[a.toNat, b.toNat, c.toNat, d.toNat, e.toNat, f.toNat, g.toNat,
              h.toNat] }))
    ∧ (s.Takes p (queuedOrder 0x19 tag []) → exec .lookPrecedenceMap s = .next
      (s.done p 0x19 tag (s.precedenceMap.toList.map byteOf) fun t => t))
    ∧ (s.Takes p (queuedOrder 0x26 tag [a, b, c, d, e]) → s.HolderAt p →
      exec .setAdmissionTimes s = .next
        (s.done p 0x26 tag (bytes2 window ++ bytes2 holdOff ++ [byteOf count]) fun t =>
          { t with answerWindow := window, holdOffTime := holdOff, lockoutCount := count }))
    ∧ (s.Takes p (queuedOrder 0x27 tag []) → exec .lookAdmissionTimes s = .next
      (s.done p 0x27 tag
        (bytes2 s.answerWindow ++ bytes2 s.holdOffTime ++ [byteOf s.lockoutCount]) fun t => t))
    ∧ (s.Takes .m (queuedOrder 0x28 tag [a, b]) → exec .seedChallenge s = .next
      (s.done .m 0x28 tag [] fun t => { t with challengeSequence := a ++ b }))
    ∧ (s.Takes p (queuedOrder 0x32 tag [a]) → s.HolderAt p → exec .setMuteCode s = .next
      (s.done p 0x32 tag [a] fun t => { t with muteCode := a }))

/-! ### Station admission (R47 to R73) -/

/-- R48, R49: SET PORT stores the four settings, clears the positions it says, and posts PORT_DISABLED
last when it disables an ENABLED port. A port that stays DISABLED stores its settings too, and the cause
of an ENABLED port is 0xFF (log entries 16 and 24). -/
def Obligations.SetPortStoresSettingsAndClearsPositions : Prop :=
  ∀ (s : State) (p : Port) (tag n en pair prec tol : Byte),
    let old := s.line n.toNat
    let disables : Bool := old.condition == .enabled && en == 0
    let unpairs : Bool := en == 1 && old.pairing && pair == 0
    let new : LinePort :=
      { old with
        condition := if en = 1 then .enabled else .disabled .order
        pairing := pair == 1
        defaultPrecedence := prec.toNat
        tolerance := min 7 tol.toNat
        babbleCount := if en = 1 ∧ old.condition ≠ .enabled then 0 else old.babbleCount }
    let clears : Nat → Bool := fun m =>
      (disables && (m == 2 * n.toNat || m == 2 * n.toNat + 1)) || (unpairs && m == 2 * n.toNat + 1)
    let leaves : Nat → Bool := fun m => clears m && (s.station m).state.admittedIdentity.isSome
    let gone : Connection → Bool := fun c => (List.range 96).any fun m => leaves m && c.fallsWith m
    TableLaw s → s.HolderAt p → en.toNat ≤ 1 → pair.toNat ≤ 1 →
    s.Takes p (queuedOrder 0x20 tag [n, en, pair, prec, tol]) →
    (47 < n.toNat ∨ 7 < prec.toNat → exec .setPort s = .next (s.refusal p 0x20 tag .range []))
    ∧ (n.toNat ≤ 47 → prec.toNat ≤ 7 → ∃ t, exec .setPort s = .next t
      ∧ Retires
          (s.done p 0x20 tag
            [en, if en = 1 then 0xFF else 0, pair, prec, byteOf (min 7 tol.toNat),
              byteOf new.babbleCount, if old.linkUp = true then 1 else 0,
              byteOf ((List.range 96).countP leaves), byteOf (s.connections.countP gone)]
            fun t => t.setLine n.toNat new)
          t (fun m => if clears m = true then (s.station m).cleared else s.station m) gone
          (s.withdrawalReport .portDisabled ([2 * n.toNat, 2 * n.toNat + 1].filter clears))
          (if disables = true then [.portDisabled n.toNat .order] else []))

/-- R56, R67, R68, R70: WITHDRAW withdraws the station, DELIVER queues one message, RELEASE LOCKOUT
unlocks a LOCKED record; each with its refusals, and nothing else changes. -/
def Obligations.WithdrawDeliverAndReleaseLockoutActOnOneStation : Prop :=
  ∀ (s : State) (p : Port) (tag n : Byte),
    let st := s.station n.toNat
    (s.Takes p (queuedOrder 0x22 tag [n]) → s.HolderAt p →
      (95 < n.toNat → exec .withdraw s = .next (s.refusal p 0x22 tag .range []))
      ∧ (n.toNat ≤ 95 → (∀ i, st.state ≠ .admitted i) →
          exec .withdraw s = .next (s.refusal p 0x22 tag .notAdmitted []))
      ∧ ∀ i, st.state = .admitted i → TableLaw s → ∃ t, exec .withdraw s = .next t
        ∧ Retires
            (s.done p 0x22 tag
              (n :: bytes2 i ++ [byteOf (s.connections.countP fun c => c.fallsWith n.toNat)])
              fun t => t)
            t (fun m => if m = n.toNat then st.withdrawn else s.station m)
            (fun c => c.fallsWith n.toNat) (s.withdrawalReport .withdrawn [n.toNat]) [])
    ∧ (∀ bytes : List Byte, 1 ≤ bytes.length → bytes.length ≤ 8 →
      s.Takes p (queuedOrder 0x23 tag (n :: bytes)) → s.HolderAt p →
      (95 < n.toNat → exec .deliver s = .next (s.refusal p 0x23 tag .range []))
      ∧ (n.toNat ≤ 95 → (∀ i, st.state ≠ .admitted i) →
          exec .deliver s = .next (s.refusal p 0x23 tag .notAdmitted []))
      ∧ ∀ i, st.state = .admitted i → exec .deliver s = .next (
          if 4 ≤ st.deliver.length then s.refusal p 0x23 tag .lineBusy []
          else s.done p 0x23 tag [byteOf (st.deliver.length + 1)] fun t =>
            t.setStation n.toNat { st with deliver := st.deliver ++ [bytes] }))
    ∧ (s.Takes p (queuedOrder 0x24 tag [n]) → s.HolderOrM p →
      exec .releaseLockout s = .next (
        if 95 < n.toNat then s.refusal p 0x24 tag .range []
        else s.done p 0x24 tag [stationStateCode st.state] fun t =>
          if st.state = .locked then
            t.setStation n.toNat { st with state := .vacant, failures := 0 }
          else t))

/-- R40, R41, R52, R73: what LOOK ENTRY, LOOK NEXT ENTRY, LOOK PORT and LOOK STATION report; they change
nothing. The order of LOOK ENTRY's fields and the count 0 of absent home ports are those of log entry 8,
the cause byte of an ENABLED port that of log entry 24. -/
def Obligations.DirectoryAndStationLooksReportAndChangeNothing : Prop :=
  ∀ (s : State) (p : Port) (tag hi lo n : Byte),
    let identity := (hi ++ lo : Word16).toNat
    let held := bytes2 s.directory.length
    let report : DirectoryEntry → List Byte := fun e =>
      bytes2 e.identity
        ++ [(e.precedence.map byteOf).getD 0xFF, privacyClassCode e.privacy, e.mask,
            byteOf (e.homePorts.getD []).length] ++ (e.homePorts.getD []).map byteOf
        ++ [if e.suspended = true then 1 else 0]
        ++ (match (List.range 96).find? fun m => (s.station m).state == .admitted e.identity with
            | some m => [byteOf m, byteOf (s.stationClass m)]
            | none => [0xFF, 0xFF])
        ++ held
    (s.Takes p (queuedOrder 0x16 tag [hi, lo]) → exec .lookEntry s = .next (
      if identity = 0 ∨ 9999 < identity then s.refusal p 0x16 tag .range []
      else match s.directory.find? fun d => d.identity == identity with
        | some e => s.done p 0x16 tag (report e) fun t => t
        | none => s.refusal p 0x16 tag .noEntry held))
    ∧ (s.Takes p (queuedOrder 0x17 tag [hi, lo]) → exec .lookNextEntry s = .next (
      if 9999 < identity then s.refusal p 0x17 tag .range []
      else match s.directory.find? fun d => decide (identity < d.identity) with
        | some e => s.done p 0x17 tag (report e) fun t => t
        | none => s.refusal p 0x17 tag .noEntry held))
    ∧ (s.Takes p (queuedOrder 0x21 tag [n]) → exec .lookPort s = .next (
      if 47 < n.toNat then s.refusal p 0x21 tag .range []
      else s.done p 0x21 tag
        ((match (s.line n.toNat).condition with
            | .enabled => [1, 0xFF]
            | .disabled .order => [0, 0]
            | .disabled .babble => [0, 1])
          ++ [if (s.line n.toNat).pairing = true then 1 else 0,
              byteOf (s.line n.toNat).defaultPrecedence, byteOf (s.line n.toNat).tolerance,
              byteOf (s.line n.toNat).babbleCount, if (s.line n.toNat).linkUp = true then 1 else 0,
              stationStateCode (s.station (2 * n.toNat)).state,
              stationStateCode (s.station (2 * n.toNat + 1)).state]) fun t => t))
    ∧ (s.Takes p (queuedOrder 0x25 tag [n]) → exec .lookStation s = .next (
      if 95 < n.toNat then s.refusal p 0x25 tag .range []
      else
        let st := s.station n.toNat
        s.done p 0x25 tag
          ((match st.state with
              | .vacant => 0 :: bytes2 0 ++ bytes2 0
              | .challenged i _ _ deadline => 1 :: bytes2 i ++ bytes2 ((deadline - s.clock) / 1000)
              | .admitted i => 2 :: bytes2 i ++ bytes2 0
              | .holdOff deadline => 3 :: bytes2 0 ++ bytes2 ((deadline - s.clock) / 1000)
              | .locked => 4 :: bytes2 0 ++ bytes2 0)
            ++ [byteOf st.failures, byteOf st.deliver.length,
                if st.slot = none then 0 else 1]) fun t => t))

/-! ### Messages and indications of the line side (R50, R51, R54 to R69) -/

/-- R54, R58 to R60, R64, R66, R69, R70, R82, R83: REGISTER by the state of the position's record. -/
def Obligations.RegisterIsJudgedByTheStationRecord : Prop :=
  ∀ (s : State) (n : Fin 96) (identity : Word16),
    (¬s.Hears n.val → exec (.register n identity) s = .next s)
    ∧ (s.Hears n.val →
      ((s.station n.val).state = .vacant →
        exec (.register n identity) s = .next (s.registered n.val identity.toNat))
      ∧ (((∃ i h r d, (s.station n.val).state = .challenged i h r d)
            ∨ (∃ d, (s.station n.val).state = .holdOff d) ∨ (s.station n.val).state = .locked) →
        exec (.register n identity) s = .next s)
      ∧ ∀ i, (s.station n.val).state = .admitted i → TableLaw s → ∃ u,
        Retires s u (fun m => if m = n.val then (s.station n.val).withdrawn else s.station m)
            (fun c => c.fallsWith n.val) (s.withdrawalReport .reregister [n.val]) []
          ∧ exec (.register n identity) s = .next (u.registered n.val identity.toNat))

/-- R54, R61, R62, R66, R84: ANSWER by the state of the position's record; a correct one admits the
station after the withdrawal of the identity at another position. -/
def Obligations.AnswerAdmitsOrFails : Prop :=
  ∀ (s : State) (n : Fin 96) (response : Word16),
    let welcomed : State → Nat → Option Nat → State := fun u identity former =>
      (u.setStation n.val
        { u.station n.val with
          state := .admitted identity
          failures := 0
          slot := u.slotWith n.val (.welcome identity) }).post (.admitted n.val identity former)
    ((¬s.Hears n.val ∨ ∀ i h r d, (s.station n.val).state ≠ .challenged i h r d) →
      exec (.answer n response) s = .next s)
    ∧ ∀ i h r d, s.Hears n.val → (s.station n.val).state = .challenged i h r d →
      (response ≠ r → exec (.answer n response) s = .next (s.failedAt n.val i .badAnswer))
      ∧ (response = r → (∀ m, (s.station m).state ≠ .admitted i) →
          exec (.answer n response) s = .next (welcomed s i none))
      ∧ ∀ m, response = r → TableLaw s → (∀ k, (s.station k).state = .admitted i ↔ k = m) → ∃ u,
          Retires s u (fun k => if k = m then (s.station m).withdrawn else s.station k)
              (fun c => c.fallsWith m) (s.withdrawalReport .relocated [m]) []
            ∧ exec (.answer n response) s = .next (welcomed u i (some m))

/-- R54, R64, R66, R67, R69, R70, R179: LEAVE, SIGNAL and unfit messages by the state of the record. -/
def Obligations.LeaveSignalAndUnfitMessagesComplete : Prop :=
  ∀ (s : State) (n : Fin 96) (bytes : List Byte) (line : Fin 48),
    ((¬s.Hears n.val ∨ ((∀ i, (s.station n.val).state ≠ .admitted i)
        ∧ ∀ i h r d, (s.station n.val).state ≠ .challenged i h r d)) →
      exec (.leave n) s = .next s)
    ∧ (s.Hears n.val → (∃ i h r d, (s.station n.val).state = .challenged i h r d) →
      exec (.leave n) s = .next (s.setStation n.val { s.station n.val with state := .vacant }))
    ∧ (∀ i, s.Hears n.val → (s.station n.val).state = .admitted i → TableLaw s → ∃ u,
      exec (.leave n) s = .next u
        ∧ Retires s u (fun m => if m = n.val then (s.station n.val).withdrawn else s.station m)
            (fun c => c.fallsWith n.val) (s.withdrawalReport .left [n.val]) [])
    ∧ (∀ i, s.Hears n.val → (s.station n.val).state = .admitted i → 1 ≤ bytes.length →
        bytes.length ≤ 8 →
      exec (.signal n bytes) s = .next (s.post (.stationSignal n.val i bytes)))
    ∧ ((¬s.Hears n.val ∨ (∀ i, (s.station n.val).state ≠ .admitted i) ∨ bytes = []
        ∨ 8 < bytes.length) → exec (.signal n bytes) s = .next s)
    ∧ exec (.unfitStationMessage line bytes) s = .next s

/-- R63, R69: the answer deadline of a CHALLENGED record and the hold-off deadline of a HOLD_OFF record
expire with the effects the manual gives; no other record has such a deadline. The clock is the model's
(log entries 1 and 2). -/
def Obligations.StationDeadlinesExpire : Prop :=
  ∀ (s : State) (n : Fin 96),
    (∀ i h r d, (s.station n.val).state = .challenged i h r d →
      exec (.answerDeadlineExpiry n) s = .next
        (({ s with clock := max s.clock d } : State).failedAt n.val i .noAnswer))
    ∧ ((∀ i h r d, (s.station n.val).state ≠ .challenged i h r d) →
      exec (.answerDeadlineExpiry n) s = .next s)
    ∧ (∀ d, (s.station n.val).state = .holdOff d →
      exec (.holdOffExpiry n) s = .next
        (({ s with clock := max s.clock d } : State).setStation n.val
          { s.station n.val with state := .vacant }))
    ∧ ((∀ d, (s.station n.val).state ≠ .holdOff d) → exec (.holdOffExpiry n) s = .next s)

/-- R51, R172: LINK_UP and LINK_DOWN set the link and post LINK once, LINK_DOWN after the withdrawals of
both positions; a repeat, and an indication during RESTARTING, does nothing. -/
def Obligations.LinkIndicationsFollowTheLink : Prop :=
  ∀ (s : State) (n : Fin 48),
    let both : Nat → Bool := fun m => m == 2 * n.val || m == 2 * n.val + 1
    let leaves : Nat → Bool := fun m => both m && (s.station m).state.admittedIdentity.isSome
    (s.restart ≠ none → exec (.linkUp n) s = .next s ∧ exec (.linkDown n) s = .next s)
    ∧ ((s.line n.val).linkUp = true → exec (.linkUp n) s = .next s)
    ∧ ((s.line n.val).linkUp = false → exec (.linkDown n) s = .next s)
    ∧ (s.restart = none → (s.line n.val).linkUp = false → exec (.linkUp n) s = .next
        ((s.setLine n.val { s.line n.val with linkUp := true }).post (.link n.val true)))
    ∧ (s.restart = none → (s.line n.val).linkUp = true → TableLaw s → ∃ t,
      exec (.linkDown n) s = .next t
        ∧ Retires (s.setLine n.val { s.line n.val with linkUp := false, sending := none })
            t (fun m => if both m = true then (s.station m).lost else s.station m)
            (fun c => (List.range 96).any fun m => leaves m && c.fallsWith m)
            (s.withdrawalReport .linkLost [2 * n.val, 2 * n.val + 1]) [.link n.val false])

/-- R50, R172: BABBLE counts on an ENABLED port; the detection that passes the tolerance disables the
port for babble, clears both positions and posts PORT_DISABLED last. -/
def Obligations.BabbleCountsAndDisablesThePort : Prop :=
  ∀ (s : State) (n : Fin 48),
    let l := s.line n.val
    let both : Nat → Bool := fun m => m == 2 * n.val || m == 2 * n.val + 1
    let leaves : Nat → Bool := fun m => both m && (s.station m).state.admittedIdentity.isSome
    ((s.restart ≠ none ∨ l.condition ≠ .enabled) → exec (.babble n) s = .next s)
    ∧ (s.restart = none → l.condition = .enabled → l.babbleCount + 1 < l.tolerance + 1 →
      exec (.babble n) s = .next (s.setLine n.val { l with babbleCount := l.babbleCount + 1 }))
    ∧ (s.restart = none → l.condition = .enabled → l.tolerance + 1 ≤ l.babbleCount + 1 →
        TableLaw s → ∃ t, exec (.babble n) s = .next t
      ∧ Retires
          (s.setLine n.val
            { l with babbleCount := l.babbleCount + 1, condition := .disabled .babble })
          t (fun m => if both m = true then (s.station m).cleared else s.station m)
          (fun c => (List.range 96).any fun m => leaves m && c.fallsWith m)
          (s.withdrawalReport .babble [2 * n.val, 2 * n.val + 1]) [.portDisabled n.val .babble])

/-- R55, R57, R179: a free channel of an ENABLED port with its link UP begins to send the message of the
position that the last-served one lets pass, the admission message before the deliver queue; a completion
frees the channel. A channel that may not send does nothing (log entry 3). -/
def Obligations.ChannelsServeThePositionsInTurn : Prop :=
  ∀ (s : State) (n : Fin 48),
    let l := s.line n.val
    let waits : Nat → Prop := fun m => (s.station m).slot ≠ none ∨ (s.station m).deliver ≠ []
    let mine : Bool → Nat := fun second => 2 * n.val + (if second = true then 1 else 0)
    let may : Prop := s.restart = none ∧ l.sending = none ∧ l.linkUp = true ∧ l.condition = .enabled
    exec (.sendCompletion n) s = .next (s.setLine n.val { l with sending := none })
    ∧ ((¬may ∨ (¬waits (mine false) ∧ ¬waits (mine true))) → exec (.beginSend n) s = .next s)
    ∧ ∀ second : Bool, may → waits (mine second) → (waits (mine !second) → l.lastSecond = !second) →
      (∀ m, (s.station (mine second)).slot = some m →
        exec (.beginSend n) s = .next
          ((s.setStation (mine second) { s.station (mine second) with slot := none }).setLine n.val
            { l with lastSecond := second, sending := some (stationMessageBytes second m) }))
      ∧ ∀ bytes rest, (s.station (mine second)).slot = none →
          (s.station (mine second)).deliver = bytes :: rest →
          exec (.beginSend n) s = .next
            ((s.setStation (mine second) { s.station (mine second) with deliver := rest }).setLine
              n.val
              { l with
                lastSecond := second
                sending := some ((if second = true then 1 else 0) :: 0x14
                  :: byteOf bytes.length :: bytes) })

/-! ### The switching network (R88 to R101, R107, R108) -/

/-- R90, R91, R96, R97, R116, R134: a CONNECT that passes every check, with no slot to be preempted,
makes exactly one record, PENDING, at the lowest free id, with its leg, its key use and its newly busy
slots counted, and changes no other record. -/
def Obligations.ConnectMakesOnePendingRecord : Prop :=
  ∀ (s : State) (p : Port) (tag src dst hi lo cls marker index start preempt : Byte),
    let key := keyNamed marker index
    let k := s.classFor src.toNat dst.toNat cls.toNat
    TableLaw s → GroupLaw s → CongestionLaw s → AdmissionLaw s → s.HolderAt p →
    marker.toNat ≤ 1 → preempt.toNat ≤ 1 →
    s.Takes p (queuedOrder 0x30 tag (connectParams src dst hi lo cls marker index start preempt)) →
    s.PassesTo10 src.toNat dst.toNat cls.toNat key → s.Check11 src.toNat dst.toNat k →
    ∃ (t : State) (c : Connection) (es : List Event), exec .connect s = .next t
      ∧ s.Makes src.toNat dst.toNat (hi ++ lo) k key c
      ∧ OnlyCallTables (s.done p 0x30 tag (connectReply c 0) fun t => t) t
      ∧ (∀ q, t.port q = ((s.done p 0x30 tag (connectReply c 0) fun t => t).postAll es).port q)
      ∧ besideCongestion es = []
      ∧ (∀ g, congestionsOf g es = congestionReport g (s.group g) (t.group g))
      ∧ t.connections = tableWith c s.connections ∧ LegTaken s t start c
      ∧ t.watches = s.watches
      ∧ ∀ g n, g < 8 → s.NewlyCount src.toNat dst.toNat g n →
          t.group g = (s.group g).risenBy n

/-- R97, R116, R118 to R122, R157: a CONNECT with PREEMPT set whose newly busy slots pass, each alone or
with a victim noted, releases the records of the source's victim v and then of the destination's victim
w, each with RELEASED (PREEMPTED), and is then taken. A victim is the candidate of lowest holding class
and then of lowest slot number, by the table at the take (log entries 22 and 26). -/
def Obligations.ConnectPreemptsTheLowestHoldingSlot : Prop :=
  ∀ (s : State) (p : Port) (tag src dst hi lo cls marker index start : Byte) (v w : Option Nat),
    let a := src.toNat
    let b := dst.toNat
    let key := keyNamed marker index
    let k := s.classFor a b cls.toNat
    let first : Connection → Bool := fun c => v.any fun n => c.names (96 + n)
    let second : Connection → Bool := fun c => w.any fun n => c.names (96 + n)
    let gone : Connection → Bool := fun c => first c || second c
    let answered : Connection → State := fun c =>
      s.done p 0x30 tag (connectReply c (s.connections.countP gone)) fun t => t
    TableLaw s → PrivacyLaw s → AdmissionLaw s → s.HolderAt p → marker.toNat ≤ 1 →
    s.Takes p (queuedOrder 0x30 tag (connectParams src dst hi lo cls marker index start 1)) →
    s.PassesTo10 a b cls.toNat key → s.FirstPasses a b k true v → s.SecondPasses a b k true v w →
    ∃ (t u : State) (c : Connection) (es : List Event), exec .connect s = .next t
      ∧ OnlyCallTables s u ∧ Releases s u gone
      ∧ u.Makes a b (hi ++ lo) k key c
      ∧ t.connections = tableWith c u.connections ∧ LegTaken u t start c
      ∧ t.watches = u.watches
      ∧ OnlyCallTables (answered c) t
      ∧ (∀ q, t.port q = ((answered c).postAll es).port q)
      ∧ besideCongestion es = releasedReport s.connections first .preempted
          ++ releasedReport s.connections (fun c => second c && !first c) .preempted
      ∧ (GroupLaw s → CongestionLaw s → ∀ g,
          (∀ n, g < 8 → s.NewlyCount a b g n → t.group g = (u.group g).risenBy n)
            ∧ congestionsOf g es = congestionReport g (s.group g) (u.group g)
                ++ congestionReport g (u.group g) (t.group g))

/-- R92 to R96, R118 to R120: a well-formed CONNECT of the holder is refused with the outcome of the
first check that fails, and changes nothing. At check 11 the source's slot is judged first, and then the
destination's as R119 gives, by the table at the take (log entries 22 and 26). -/
def Obligations.ConnectIsRefusedByTheFirstFailingCheck : Prop :=
  ∀ (s : State) (p : Port) (tag src dst hi lo cls marker index start preempt : Byte),
    let key := keyNamed marker index
    let k := s.classFor src.toNat dst.toNat cls.toNat
    let a := src.toNat
    let b := dst.toNat
    let refused := fun outcome => exec .connect s = .next (s.refusal p 0x30 tag outcome [])
    AdmissionLaw s → s.HolderAt p → marker.toNat ≤ 1 → preempt.toNat ≤ 1 →
    s.Takes p (queuedOrder 0x30 tag (connectParams src dst hi lo cls marker index start preempt)) →
    (¬Check2 a b cls.toNat key → refused .range)
    ∧ (Check2 a b cls.toNat key →
      (¬s.Check3 b → refused .destBusy)
      ∧ (s.Check3 b →
        (¬s.Check4 a b → refused .notAdmitted)
        ∧ (s.Check4 a b →
          (¬s.Check5 a b → refused .trunkOut)
          ∧ (s.Check5 a b →
            (¬s.Check6 a b → refused .barred)
            ∧ (s.Check6 a b →
              (¬s.Check7 a b key → refused .privacy)
              ∧ (s.Check7 a b key →
                (¬s.Check8 a b key → refused .keyState)
                ∧ (s.Check8 a b key →
                  (¬s.Check9 → refused .full)
                  ∧ (s.Check9 → ¬s.Check10 key → refused .noLeg))))))))
    ∧ (s.PassesTo10 a b cls.toNat key →
      (∀ outcome, s.NewlyBusy a →
        s.SlotFails a b k (preempt == 1) (s.groupAt a) (s.group (s.groupAt a)).busy
          (fun _ => false) outcome → refused outcome)
      ∧ ∀ v outcome, s.FirstPasses a b k (preempt == 1) v → s.NewlyBusy b →
        s.SlotFails a b k (preempt == 1) (s.groupAt b) (s.countForSecond a b v) (s.freedBy v)
          outcome → refused outcome)

/-- R99 to R101, R148 to R152: RELEASE BY_ID releases the record it names, its leg, its key use, its
trunk slots and its trace, without RELEASED; RELEASE BY_TAG does so to every record of the tag that is
not trace-held. CONGESTION is posted at a transition. -/
def Obligations.ReleaseOrdersRunTheReleaseProcedure : Prop :=
  ∀ (s : State) (p : Port) (tag hi lo : Byte), s.HolderAt p →
    (s.Takes p (queuedOrder 0x31 tag [0, hi, lo]) →
      let id := (hi ++ lo : Word16).toNat
      (159 < id → exec .releaseById s = .next (s.refusal p 0x31 tag .range []))
      ∧ (id ≤ 159 → (∀ c ∈ s.connections, c.id ≠ id) →
          exec .releaseById s = .next (s.refusal p 0x31 tag .noEntry []))
      ∧ ∀ c ∈ s.connections, c.id = id → TableLaw s →
        (c.traceHeld = true → exec .releaseById s = .next (s.refusal p 0x31 tag .traceHold []))
        ∧ (c.traceHeld = false → GroupLaw s → CongestionLaw s → ∃ (t : State) (es : List Event),
          let answered := s.done p 0x31 tag
            (byteOf id :: bytesOfWord16 c.callTag ++ [if c.live = true then 1 else 0]) fun t => t
          exec .releaseById s = .next t
            ∧ OnlyCallTables answered t
            ∧ (∀ q, t.port q = (answered.postAll es).port q)
            ∧ besideCongestion es = []
            ∧ (∀ g, congestionsOf g es = congestionReport g (s.group g) (t.group g))
            ∧ t.connections = s.connections.filter (fun d => d.id != id)
            ∧ LegFreed s t c
            ∧ t.watches = s.watches.map (Watch.afterRelease id)
            ∧ ∀ g n, g < 8 → s.FreedCount c g n → t.group g = (s.group g).fallenBy n))
    ∧ (s.Takes p (queuedOrder 0x31 tag [1, hi, lo]) →
      let mine : Connection → Bool := fun c => c.callTag == (hi ++ lo : Word16)
      ((∀ c ∈ s.connections, mine c = false) →
        exec .releaseByTag s = .next (s.refusal p 0x31 tag .noEntry []))
      ∧ ((∃ c ∈ s.connections, mine c = true) → TableLaw s → ∃ (t : State) (es : List Event),
        let answered := s.done p 0x31 tag
          [hi, lo, byteOf (s.connections.countP fun c => mine c && !c.traceHeld),
            byteOf (s.connections.countP fun c => mine c && c.traceHeld)] fun t => t
        exec .releaseByTag s = .next t
          ∧ OnlyCallTables answered t
          ∧ (∀ q, t.port q = (answered.postAll es).port q)
          ∧ besideCongestion es = []
          ∧ (GroupLaw s → CongestionLaw s →
              ∀ g, congestionsOf g es = congestionReport g (s.group g) (t.group g))
          ∧ Releases s t (fun c => mine c && !c.traceHeld)))

/-- R107, R108, R112, R124: what the looks at records, endpoints, the network, trunks and groups report;
they change nothing. That the number of free ids takes one byte is the model's choice (log entry 28). -/
def Obligations.NetworkAndTrunkLooksReportAndChangeNothing : Prop :=
  ∀ (s : State) (p : Port) (tag n marker hi lo : Byte),
    (s.Takes p (queuedOrder 0x33 tag [n]) → exec .lookConnection s = .next (
      if 159 < n.toNat then s.refusal p 0x33 tag .range []
      else match s.connections.find? fun c => c.id == n.toNat with
        | some c => s.done p 0x33 tag (connectionReport c) fun t => t
        | none => s.refusal p 0x33 tag .noEntry []))
    ∧ (s.Takes p (queuedOrder 0x34 tag [n, marker, hi, lo]) → marker.toNat ≤ 1 →
      exec .lookNextConnection s = .next (
        if 159 < n.toNat then s.refusal p 0x34 tag .range []
        else match s.connections.find? fun c =>
            decide (n.toNat ≤ c.id) && (marker == 0 || c.callTag == (hi ++ lo : Word16)) with
          | some c => s.done p 0x34 tag (connectionReport c ++ s.tableCounts) fun t => t
          | none => s.refusal p 0x34 tag .noEntry s.tableCounts))
    ∧ (s.Takes p (queuedOrder 0x35 tag [n]) → exec .lookEndpoint s = .next (
      if 175 < n.toNat then s.refusal p 0x35 tag .range []
      else s.done p 0x35 tag
        ((if n.toNat < 96 then [0, 0xFF]
            else if n.toNat < 160 then [1, byteOf (n.toNat - 96)] else [2, 0xFF])
          ++ [((s.connections.find? fun c => c.destination == n.toNat).map
                fun c => byteOf c.id).getD 0xFF,
              byteOf (s.connections.countP fun c => c.source == n.toNat),
              ((s.connections.find? fun c => c.source == n.toNat).map
                fun c => byteOf c.id).getD 0xFF]) fun t => t))
    ∧ (s.Takes p (queuedOrder 0x36 tag []) → exec .lookNetwork s = .next (s.done p 0x36 tag
        (bytes4 s.frameCounter ++ s.muteCode :: s.tableCounts
          ++ [byteOf (160 - s.connections.length)]) fun t => t))
    ∧ (∀ holding : Option Nat, (∀ k, holding = some k ↔ s.Holds n.toNat k) →
      s.Takes p (queuedOrder 0x42 tag [n]) → exec .lookTrunk s = .next (
        if 63 < n.toNat then s.refusal p 0x42 tag .range []
        else s.done p 0x42 tag
          [n, byteOf (96 + n.toNat), trunkModeCode (s.slot n.toNat).mode,
            byteOf (s.slot n.toNat).group,
            if ∃ c ∈ s.connections, c.names (96 + n.toNat) = true then 1 else 0,
            byteOf (s.connections.countP fun c => c.names (96 + n.toNat)),
            (holding.map byteOf).getD 0xFF,
            if ∃ c ∈ s.connections, c.names (96 + n.toNat) = true ∧ c.traceHeld = true then 1
              else 0] fun t => t))
    ∧ ∀ lowest : Option Nat,
      let free : Nat → Nat → Prop := fun m k => m < 64 ∧ (s.slot m).group = n.toNat ∧ s.Holds m k
        ∧ ∀ c ∈ s.connections, c.names (96 + m) = true → c.traceHeld = false
      let members : TrunkMode → Nat := fun mode =>
        (List.range 64).countP fun m => (s.slot m).group == n.toNat && (s.slot m).mode == mode
      let g := s.group n.toNat
      (∀ k, lowest = some k ↔ (∃ m, free m k) ∧ ∀ m j, free m j → k ≤ j) →
      s.Takes p (queuedOrder 0x43 tag [n]) → exec .lookGroup s = .next (
        if 7 < n.toNat then s.refusal p 0x43 tag .range []
        else s.done p 0x43 tag
          [n, byteOf g.quota, byteOf g.reserve, byteOf g.reserveClass, byteOf g.onset,
            byteOf g.abatement, byteOf g.busy, if g.congested = true then 1 else 0,
            byteOf (members .outOfService), byteOf (members .publicTrunk), byteOf (members .tie),
            (lowest.map byteOf).getD 0xFF] fun t => t)

/-! ### Trunk groups (R110 to R124) -/

/-- R111, R114, R122, R123: SET TRUNK sets a slot that no record names; SET GROUP stores the clamped
settings, re-evaluates the congestion state at once and posts CONGESTION at a transition. -/
def Obligations.SetTrunkAndSetGroupStoreTheirSettings : Prop :=
  ∀ (s : State) (p : Port) (tag n mode g q rv r on ab : Byte), s.HolderAt p →
    (s.Takes p (queuedOrder 0x40 tag [n, mode, g]) → mode.toNat ≤ 2 → exec .setTrunk s = .next (
      if 63 < n.toNat ∨ 7 < g.toNat then s.refusal p 0x40 tag .range []
      else if ∃ c ∈ s.connections, c.names (96 + n.toNat) = true then
        s.refusal p 0x40 tag .inUse []
      else s.done p 0x40 tag [n, mode, g] fun t => t.setSlot n.toNat
        ⟨if mode = 0 then .outOfService else if mode = 1 then .publicTrunk else .tie, g.toNat⟩))
    ∧ (s.Takes p (queuedOrder 0x41 tag [g, q, rv, r, on, ab]) →
      let old := s.group g.toNat
      let quota := min 64 q.toNat
      let reserve := min quota rv.toNat
      let onset := max 1 (min 64 on.toNat)
      let abatement := min (onset - 1) ab.toNat
      let congested : Bool :=
        if old.congested = true then decide (abatement < old.busy) else decide (onset ≤ old.busy)
      let stored := s.done p 0x41 tag
        [g, byteOf quota, byteOf reserve, r, byteOf onset, byteOf abatement, byteOf old.busy,
          if congested = true then 1 else 0]
        fun t => t.setGroup g.toNat ⟨quota, reserve, r.toNat, onset, abatement, old.busy, congested⟩
      exec .setGroup s = .next (
        if 7 < g.toNat ∨ r.toNat = 0 ∨ 3 < r.toNat then s.refusal p 0x41 tag .range []
        else if congested = old.congested then stored
        else stored.post (.congestion g.toNat congested old.busy)))

/-! ### Call privacy (R127 to R145) -/

/-- R76, R129, R130, R131: LOAD KEY and ERASE KEY change one context that is not in use, with the
increment forced odd and the limits clamped; LOOK KEY reports; neither seed nor increment is reported.
That a use count takes one byte is the model's choice (log entry 28). -/
def Obligations.KeyOrdersChangeOneFreeContext : Prop :=
  ∀ (s : State) (p : Port) (tag n a b c d marker confirm loss : Byte),
    let old := s.key n.toNat
    let stateByte : Byte := if old.material = none then 0 else 1
    let increment : Word16 := if (c ++ d : Word16).toNat % 2 = 1 then c ++ d else (c ++ d) + 1
    let cc := if marker = 1 then max 2 (min 4 confirm.toNat) else 2
    let ll := if marker = 1 then max 2 (min 8 loss.toNat) else 3
    (s.Takes p (queuedOrder 0x50 tag [n, a, b, c, d, marker, confirm, loss]) → s.HolderAt p →
        marker.toNat ≤ 1 → exec .loadKey s = .next (
      if 31 < n.toNat then s.refusal p 0x50 tag .range []
      else if 0 < old.useCount then s.refusal p 0x50 tag .inUse []
      else s.done p 0x50 tag [n, 1, byteOf cc, byteOf ll, 0, stateByte] fun t =>
        t.setKey n.toNat ⟨some ⟨a ++ b, increment⟩, cc, ll, 0⟩))
    ∧ (s.Takes p (queuedOrder 0x51 tag [n]) → s.HolderAt p → exec .eraseKey s = .next (
      if 31 < n.toNat then s.refusal p 0x51 tag .range []
      else if 0 < old.useCount then s.refusal p 0x51 tag .inUse []
      else s.done p 0x51 tag [n, stateByte] fun t => t.setKey n.toNat ⟨none, 2, 3, 0⟩))
    ∧ (s.Takes p (queuedOrder 0x52 tag [n]) → exec .lookKey s = .next (
      if 31 < n.toNat then s.refusal p 0x52 tag .range []
      else s.done p 0x52 tag
        [n, stateByte, byteOf old.confirmCount, byteOf old.lossLimit, byteOf old.useCount,
          byteOf ((List.range 64).countP fun m => (s.leg m).isNone)] fun t => t))

/-- R142, R145: RESYNC returns a SYNCED or HUNT leg to a cleared hunt and leaves a WAITING one; LOOK LEG
reports a leg. The two bytes of the count of valid hunt entries are free outside HUNT (log entry 9), and
the greatest match count takes one byte (log entry 28). -/
def Obligations.ResyncAndLookLegActOnOneLeg : Prop :=
  ∀ (s : State) (p : Port) (tag n : Byte) (c : Connection) (part : PrivacyPart) (leg : Leg),
    let old : List Byte := match leg.state with
      | .waitingScramble _ | .waitingDescramble => [0, 0xFF]
      | .running .. => [1, 0xFF]
      | .hunt .. => [2, 0xFF]
      | .synced _ _ _ misses _ => [3, byteOf misses]
    ((s.Takes p (queuedOrder 0x53 tag [n]) → s.HolderAt p →
        (159 < n.toNat → exec .resync s = .next (s.refusal p 0x53 tag .range []))
        ∧ (n.toNat ≤ 159 → (∀ d ∈ s.connections, d.id = n.toNat → d.privacy = none
              ∨ ∃ q, d.privacy = some q ∧ q.direction = .scramble) →
            exec .resync s = .next (s.refusal p 0x53 tag .noEntry [])))
      ∧ (s.Takes p (queuedOrder 0x54 tag [n]) →
        (159 < n.toNat → exec .lookLeg s = .next (s.refusal p 0x54 tag .range []))
        ∧ (n.toNat ≤ 159 → (∀ d ∈ s.connections, d.id = n.toNat → d.privacy = none) →
            exec .lookLeg s = .next (s.refusal p 0x54 tag .noEntry []))))
    ∧ (TableLaw s → c ∈ s.connections → c.id = n.toNat → c.privacy = some part →
        s.leg part.leg = some leg →
      (s.Takes p (queuedOrder 0x53 tag [n]) → s.HolderAt p → part.direction = .descramble →
        exec .resync s = .next (s.done p 0x53 tag (n :: byteOf part.leg :: old) fun t =>
          t.setLeg part.leg (some
            { leg with
              state := match leg.state with
                | .synced .. | .hunt .. => .hunt 0 (List.replicate 256 ⟨none, 0⟩)
                | other => other })))
      ∧ (s.Takes p (queuedOrder 0x54 tag [n]) →
        let head : List Byte :=
          [n, byteOf part.leg, if part.direction = .scramble then 0 else 1, byteOf leg.key]
        (∀ h table, leg.state = .hunt h table → exec .lookLeg s = .next (s.done p 0x54 tag
          (head ++ [2, 0xFF, 0xFF, 0xFF, 0xFF, h]
            ++ bytes2 (table.countP fun e => e.sample.isSome)
            ++ [byteOf ((table.map fun e => e.matchCount).foldl max 0)]) fun t => t))
        ∧ ((∀ h table, leg.state ≠ .hunt h table) → ∃ free : List Byte, free.length = 2
          ∧ exec .lookLeg s = .next (s.done p 0x54 tag
            (head ++ (match leg.state with
              | .waitingScramble start => [0, 0xFF, 0xFF, start, 0xFF, 0xFF]
              | .waitingDescramble => [0, 0xFF, 0xFF, 0xFF, 0xFF, 0xFF]
              | .running q j _ => [1, q, j, 0xFF, 0xFF, 0xFF]
              | .synced q j _ misses _ => [3, q, j, 0xFF, byteOf misses, 0xFF]
              | .hunt _ _ => []) ++ free ++ [0xFF])
            fun t => { t with freeIndex := s.freeIndex + 2 }))))

/-! ### Call trace (R160 to R167) -/

/-- R161, R163, R164, R166: ARM WATCH takes the idle watch of lowest index; RELEASE HOLD, CLEAR TRACE and
DISARM WATCH end the hold, the last two returning the watch to ARMED and to IDLE. The last byte of
RELEASE HOLD's reply is that of log entry 25. -/
def Obligations.WatchOrdersArmClearAndDisarm : Prop :=
  ∀ (s : State) (tag iHi iLo request n : Byte),
    let identity := (iHi ++ iLo : Word16).toNat
    (s.Takes .m (queuedOrder 0x60 tag [iHi, iLo, request]) → request.toNat ≤ 1 →
      (identity = 0 ∨ 9999 < identity →
        exec .armWatch s = .next (s.refusal .m 0x60 tag .range []))
      ∧ (1 ≤ identity → identity ≤ 9999 → (∃ m, (s.watch m).watched = some identity) →
        exec .armWatch s = .next (s.refusal .m 0x60 tag .alreadyExists []))
      ∧ (1 ≤ identity → identity ≤ 9999 → (∀ m, (s.watch m).watched ≠ some identity) →
        ((∀ m, m < 4 → s.watch m ≠ .idle) →
          exec .armWatch s = .next (s.refusal .m 0x60 tag .full []))
        ∧ ∀ m, m < 4 → s.watch m = .idle → (∀ l, l < m → s.watch l ≠ .idle) →
          exec .armWatch s = .next
            (s.done .m 0x60 tag (byteOf m :: bytes2 identity ++ [request]) fun t =>
              t.setWatch m (.armed identity (request == 1)))))
    ∧ ((3 < n.toNat →
        (s.Takes .m (queuedOrder 0x61 tag [n]) →
          exec .disarmWatch s = .next (s.refusal .m 0x61 tag .range []))
        ∧ (s.Takes .m (queuedOrder 0x62 tag [n]) →
          exec .clearTrace s = .next (s.refusal .m 0x62 tag .range []))
        ∧ (s.Takes .m (queuedOrder 0x63 tag [n]) →
          exec .releaseHold s = .next (s.refusal .m 0x63 tag .range [])))
      ∧ (n.toNat ≤ 3 →
        (s.watch n.toNat = .idle → s.Takes .m (queuedOrder 0x62 tag [n]) →
          exec .clearTrace s = .next (s.refusal .m 0x62 tag .noEntry []))
        ∧ ((s.watch n.toNat).trace = none → s.Takes .m (queuedOrder 0x63 tag [n]) →
          exec .releaseHold s = .next (s.refusal .m 0x63 tag .noEntry []))
        ∧ (∀ i r, s.watch n.toNat = .armed i r → s.Takes .m (queuedOrder 0x62 tag [n]) →
          exec .clearTrace s = .next (s.done .m 0x62 tag [n, 1, 0] fun t => t))))
    ∧ (n.toNat ≤ 3 →
      let before : List Byte := match s.watch n.toNat with
        | .idle => [n, 0, 0]
        | .armed .. => [n, 1, 0]
        | .tripped _ _ hold _ => [n, 2, if hold = true then 1 else 0]
      (s.Takes .m (queuedOrder 0x61 tag [n]) → ∃ u, HoldCleared s u n.toNat .idle
        ∧ exec .disarmWatch s = .next (s.done .m 0x61 tag before fun t =>
            { t with watches := u.watches, connections := u.connections }))
      ∧ ∀ i r hold tr, s.watch n.toNat = .tripped i r hold tr →
        (s.Takes .m (queuedOrder 0x62 tag [n]) → ∃ u, HoldCleared s u n.toNat (.armed i r)
          ∧ exec .clearTrace s = .next (s.done .m 0x62 tag before fun t =>
              { t with watches := u.watches, connections := u.connections }))
        ∧ (s.Takes .m (queuedOrder 0x63 tag [n]) → WatchLaw s → TableLaw s →
          ∃ u, HoldCleared s u n.toNat (.tripped i r false tr)
            ∧ exec .releaseHold s = .next (s.done .m 0x63 tag
                [n, if hold = true then 1 else 0,
                  if (!tr.releasedSince && (List.range 4).any fun m => m != n.toNat
                      && match s.watch m with
                        | .tripped _ _ true other => other.connectionId == tr.connectionId
                        | _ => false) = true then 1
                    else 0] fun t =>
                { t with watches := u.watches, connections := u.connections })))

/-- R167: LOOK WATCH reports a watch and changes nothing. The six bytes of an absent call tag and an
absent frame number are free (log entry 9). -/
def Obligations.LookWatchReportsTheTraceRecord : Prop :=
  ∀ (s : State) (tag n : Byte), s.Takes .m (queuedOrder 0x64 tag [n]) →
    (3 < n.toNat → exec .lookWatch s = .next (s.refusal .m 0x64 tag .range []))
    ∧ (n.toNat ≤ 3 →
      (∀ i r hold tr, s.watch n.toNat = .tripped i r hold tr →
        exec .lookWatch s = .next (s.done .m 0x64 tag
          ([n, 2] ++ bytes2 i ++ [if r = true then 1 else 0, if hold = true then 1 else 0,
              byteOf tr.connectionId] ++ bytesOfWord16 tr.callTag
            ++ [byteOf tr.watchedPosition, if tr.role = .source then 0 else 1,
                byteOf tr.otherEndpoint] ++ bytes2 (tr.otherIdentity.getD 0)
            ++ bytes4 tr.frameNumber ++ [if tr.releasedSince = true then 1 else 0]) fun t => t))
      ∧ ((s.watch n.toNat).trace = none → ∃ free : List Byte, free.length = 6
        ∧ exec .lookWatch s = .next (s.done .m 0x64 tag
          ((match s.watch n.toNat with
              | .armed i r => [n, 1] ++ bytes2 i ++ [if r = true then 1 else 0, 0]
              | _ => [n, 0, 0, 0, 0xFF, 0])
            ++ [0xFF] ++ free.take 2 ++ [0xFF, 0xFF, 0xFF, 0, 0] ++ free.drop 2 ++ [0xFF])
          fun t => { t with freeIndex := s.freeIndex + 6 })))

/-! ### Port orders and restarts (R13, R170 to R175) -/

/-- R13, R175, R12: READ CAUSES reports and empties the issuing port's cause set, SET PORT MODE sets its
mode; no other port changes. The attention line follows the mode and the queues. -/
def Obligations.ReadCausesAndSetPortModeActOnTheirPort : Prop :=
  ∀ (s : State) (p : Port) (tag mode : Byte),
    let c := (s.port p).causes
    (s.Takes p (queuedOrder 0x72 tag []) → exec .readCauses s = .next (s.done p 0x72 tag
      [byteOf ((if c.powerOn = true then 1 else 0) + (if c.pin = true then 2 else 0)
        + (if c.orderCold = true then 4 else 0) + (if c.orderKeep = true then 8 else 0))]
      fun t => t.setPort p { t.port p with causes := ⟨false, false, false, false⟩ }))
    ∧ (s.Takes p (queuedOrder 0x73 tag [mode]) →
      exec .setPortMode s = .next (
        if 1 < mode.toNat then s.refusal p 0x73 tag .badOrder []
        else s.done p 0x73 tag [mode] fun t =>
          t.setPort p { t.port p with mode := if mode = 0 then .ungated else .gated }))
    ∧ (attentionLine (s.port p) = true ↔
        (s.port p).out ≠ [] ∧ ((s.port p).mode = .gated → (s.port p).orders = []))
    ∧ (QueueLaw s → s.restart ≠ none → attentionLine (s.port p) = false)

/-- R170, R173, R175: power-on, the assertion of the reset pin and an accepted RESTART COLD begin a cold
restart at once: every block takes its cold values, and each port's queues, mode, flag and cause set
change as R1 and R175 give. What a cold restart does not name stands: a message being sent, the outgoing
samples until the next frame start, the pin, the time base and the model's own fields (log entries 11 to
13). -/
def Obligations.ColdRestartGivesEveryBlockItsColdValues : Prop :=
  ∀ (s : State) (p : Port) (tag : Byte),
    let port : (CauseSet → CauseSet) → PortState → PortState := fun f q =>
      { q with
        orders := [], out := [], mode := .ungated, missed := false, causes := f q.causes
        transfer := q.transfer.map fun t => { t with restartSince := true } }
    let cold : (CauseSet → CauseSet) → State → State := fun f u =>
      { State.reset with
        portA := port f u.portA, portB := port f u.portB, portM := port f u.portM
        lines := u.lines.map fun l => { LinePort.reset with sending := l.sending }
        outgoing := u.outgoing, restartSince := u.clock, resetPin := u.resetPin
        clock := u.clock, freeIndex := u.freeIndex, pending := u.pending }
    exec .powerOn s = .next (cold (fun _ => ⟨true, false, false, false⟩) s)
    ∧ (s.resetPin = false → exec .resetPin s = .next
        { cold (fun c => { c with pin := true }) s with resetPin := true })
    ∧ (s.resetPin = true → exec .resetPin s = .next s)
    ∧ (s.Takes p (queuedOrder 0x70 tag []) → s.HolderOrM p → exec .restartCold s = .next
        (cold (fun c => { c with orderCold := true }) s))

/-- R1, R16, R53, R109, R126, R127, R147, R169, R170, R173, R175: an accepted RESTART KEEP keeps the LIVE
records with their legs, the ADMITTED and LOCKED stations, the watches and every setting, discards the
PENDING records, with their legs, key uses and busy slots, and every queue, and gives up mastership. What
a processor has been sent, a message being sent, the outgoing samples and the model's own fields stand
(log entries 11 to 13). -/
def Obligations.KeepRestartKeepsLiveRecordsAndAdmittedStations : Prop :=
  ∀ (s : State) (p : Port) (tag : Byte),
    s.Takes p (queuedOrder 0x71 tag []) → s.HolderOrM p → TableLaw s →
    ∃ t, exec .restartKeep s = .next t
      ∧ Releases s t (fun c => !c.live)
      ∧ (∀ q, (t.port q).orders = [] ∧ (t.port q).out = [] ∧ (t.port q).mode = (s.port q).mode
          ∧ (t.port q).causes = { (s.port q).causes with orderKeep := true }
          ∧ (t.port q).sent = (s.port q).sent
          ∧ ((t.port q).missed = true → q ≠ .m ∧ ∃ c ∈ s.connections, c.live = false)
          ∧ ∀ u ∈ (t.port q).transfer, u.restartSince = true)
      ∧ (∀ n, t.station n =
          { s.station n with
            state := (match (s.station n).state with
              | .admitted i => .admitted i
              | .locked => .locked
              | _ => .vacant)
            slot := none
            deliver := [] })
      ∧ (∀ n, n < 48 → t.line n = { s.line n with lastSecond := true })
      ∧ t = { s with
          portA := t.portA, portB := t.portB, portM := t.portM, lastServed := .m
          mastership := .vacant, lines := t.lines, stations := t.stations
          connections := t.connections, legs := t.legs, keys := t.keys, groups := t.groups
          watches := t.watches, restart := some .keep, restartSince := s.clock }
      ∧ (GroupLaw s → CongestionLaw s → ∀ q, (t.port q).missed = true ↔
          q ≠ .m ∧ ∃ g, (s.group g).congested = true ∧ (t.group g).congested = false)
      ∧ (PrivacyLaw s → ∀ c ∈ s.connections, c.live = true → ∀ part ∈ c.privacy,
          t.leg part.leg = s.leg part.leg)
      ∧ (WatchLaw s → t.watches = s.watches)

/-- R51, R170, R174: the release of the pin starts the measured period; the completion ends RESTARTING,
places RESTARTED first in every out queue, and acts on each port whose reported link differs, in
ascending order: RELEASED and WITHDRAWN of its stations, and then LINK. With no restart in progress, or
while the pin is asserted, it does not happen (log entries 3 and 15). -/
def Obligations.RestartCompletionPlacesRestartedFirst : Prop :=
  ∀ (s : State) (links : List Bool),
    (s.resetPin = true → exec .resetPinRelease s = .next
        { s with resetPin := false, restartSince := s.clock }
      ∧ exec (.restartComplete links) s = .next s)
    ∧ (s.resetPin = false → exec .resetPinRelease s = .next s)
    ∧ (s.restart = none → exec (.restartComplete links) s = .next s)
    ∧ ∀ mode, s.restart = some mode → s.resetPin = false → QueueLaw s → TableLaw s →
        links.length = 48 →
      let began : State :=
        ((({ s with restart := none } : State).append .a (.event (.restarted mode))).append .b
          (.event (.restarted mode))).append .m (.event (.restarted mode))
      ∃ t, exec (.restartComplete links) s = .next t
      ∧ t.restart = none
      ∧ (∀ q, ∃ es : List Event,
          (t.port q).out = .event (.restarted mode) :: es.map .event
            ∧ (q = .m → es = [] ∧ (t.port q).missed = (s.port q).missed))
      ∧ (∃ es : List Event, (∀ q, t.port q = (began.postAll es).port q)
          ∧ besideCongestion es = s.linkReport links
          ∧ (GroupLaw s → CongestionLaw s →
              ∀ g, congestionsOf g es = congestionReport g (s.group g) (t.group g)))
      ∧ (∀ n, n < 48 → (t.line n).linkUp = links.getD n false)
      ∧ (∀ n, n < 48 → links.getD n false = true ∨ (s.line n).linkUp = false →
          t.line n = { s.line n with linkUp := links.getD n false })
      ∧ (∀ m, m < 96 → t.station m =
          if (s.line (m / 2)).linkUp = true ∧ links.getD (m / 2) false = false then
            (s.station m).lost
          else s.station m)
      ∧ Releases s t (fun c => (List.range 96).any fun m =>
          (s.line (m / 2)).linkUp && !links.getD (m / 2) false
            && (s.station m).state.admittedIdentity.isSome && c.fallsWith m)
      ∧ t = { s with
          portA := t.portA, portB := t.portB, portM := t.portM, restart := none
          lines := t.lines, stations := t.stations, connections := t.connections
          legs := t.legs, keys := t.keys, groups := t.groups, watches := t.watches }
      ∧ ((∀ n, n < 48 → (s.line n).linkUp = links.getD n false) → t = began)

/-! ### Frames (R86, R87, R102 to R106, R135 to R141, R162) -/

/-- R86: at the end of a frame every received sample is replaced by the one that arrived, or by the mute
code at a station position whose link is DOWN; nothing else changes. While the reset pin is asserted this
goes on by log entry 10. -/
def Obligations.EndOfFrameReplacesReceivedSamples : Prop :=
  ∀ (s : State) (samples : List Byte), samples.length = 176 →
    ∃ t, exec (.sampleArrival samples) s = .next t
      ∧ t = { s with received := t.received }
      ∧ ∀ e, e < 176 → t.receivedSample e =
          if e < 96 ∧ (s.line (e / 2)).linkUp = false then s.muteCode else samples.getD e 0

/-- R102 to R106, R135 to R141, R144, R162, R163, R167: a frame start counts, promotes every PENDING
record and starts its leg, lets the ARMED watches examine the promoted records, and hands every
destination the sample of the record that feeds it, through its leg, or the mute code. TRACE_TRIPPED is
posted for each trip and the legs' events for each leg that locks or loses its lock, by ascending id
(R105, log entry 21). While the reset pin is asserted the counter goes on by log entry 10; the clock
stands (log entry 14). -/
def Obligations.FrameStartPromotesAndCarries : Prop :=
  ∀ s : State, TableLaw s → PrivacyLaw s → ∃ (t : State) (es : List Event),
    exec .frameStart s = .next t
      ∧ t.frameCounter = s.frameCounter + 1
      ∧ t.connections = s.connections.map (fun c =>
          { c with live := true, traceHeld := c.traceHeld || (!c.live && s.heldAtFrame c) })
      ∧ (∀ n, n < 4 → t.watch n = s.watchAfterFrame (s.frameCounter + 1) (s.watch n))
      ∧ (∀ e, e < 160 → (∀ c ∈ s.connections, c.destination ≠ e) →
          t.outgoingSample e = s.muteCode)
      ∧ (∀ c ∈ s.connections, c.privacy = none →
          t.outgoingSample c.destination = s.receivedSample c.source)
      ∧ (∀ c ∈ s.connections, ∀ part leg state sample events,
          s.legAtFrame c = some (part, leg, state, sample, events) →
          t.outgoingSample c.destination = sample
            ∧ t.leg part.leg = some { leg with state := state })
      ∧ (∀ c ∈ s.connections, c.privacy ≠ none → s.legAtFrame c ≠ none)
      ∧ (∀ n, s.leg n = none → t.leg n = none)
      ∧ (∀ q, t.port q = (s.postAll es).port q)
      ∧ es = s.tripReport (s.frameCounter + 1) ++ s.syncReport
      ∧ t = { s with
          portA := t.portA, portB := t.portB, portM := t.portM
          frameCounter := t.frameCounter, connections := t.connections, legs := t.legs
          watches := t.watches, outgoing := t.outgoing }

/-! ### Keystream and legs (R74, R75, R77 to R82, R136 to R140) -/

/-- R74, R76, R83: for every odd increment the generator step is one-to-one and passes through all 65536
states before it returns; and no increment that enters the part is even. -/
def Obligations.GeneratorPassesThroughEveryState : Prop :=
  (∀ c : Word16, c.getLsbD 0 = true →
    (∀ s : Word16, generatorStep c s = BitVec.ofNat 16 (5 * s.toNat + c.toNat))
      ∧ (∀ s s' : Word16, generatorStep c s = generatorStep c s' → s = s')
      ∧ (∀ s' : Word16, ∃ s, generatorStep c s = s')
      ∧ (∀ s s' : Word16, ∃ n, n < 65536 ∧ (generatorStep c)^[n] s = s')
      ∧ ∀ (s : Word16) (n : Nat), 0 < n → n < 65536 → (generatorStep c)^[n] s ≠ s)
    ∧ (∀ (params : List Byte) (m : KeyMaterial), (loadedKey params).material = some m →
        m.increment.getLsbD 0 = true)
    ∧ ∀ u : Word16, (challengeValue u).getLsbD 0 = true

/-- R75, R77, R78, R80, R136: over one period a RUNNING leg gives back the period number in the clear and
then each sample with the keystream byte of the position added, and stands at the next period. -/
def Obligations.ScrambleLegFollowsItsPeriodSeed : Prop :=
  ∀ (key : KeyContext) (m : KeyMaterial) (mute q : Byte) (s : Word16) (xs : List Byte),
    key.material = some m → xs.length = 256 →
    let r := legRun key mute (.running q 0 s) xs
    let state : Nat → Word16 := fun j =>
      (generatorStep m.increment)^[j] (m.seed + 257 * q.setWidth 16)
    r.1.length = 256 ∧ r.1.getD 0 0 = q
      ∧ (∀ j, 1 ≤ j → j ≤ 255 →
          r.1.getD j 0 = BitVec.ofNat 8 ((xs.getD j 0).toNat + (state j).toNat / 256))
      ∧ r.2 = .running (q + 1) 0 (state 255)

/-- R81, R139, R140: a DESCRAMBLE leg in step with the far site's SCRAMBLE leg, with the same seed and
increment, gives back every sample but those of period position 0, in whose place it repeats the last
one; the legs stay in step and the lock is not lost, over any number of frames. -/
def Obligations.LegsInStepRecoverTheVoice : Prop :=
  ∀ (near far : KeyContext) (m : KeyMaterial) (mute mute' q j : Byte) (s : Word16) (misses : Nat)
      (last : Byte) (xs : List Byte),
    near.material = some m → far.material = some m →
    let sent := legRun far mute' (.running q j s) xs
    let received := legRun near mute (.synced q j s misses last) sent.1
    received.1 = heard j last xs ∧ InStep sent.2 received.2

/-! ### What the part keeps to itself (R34, R40, R43, R45, R60) -/

/-- R34, R40, R60, R73, R178: two states that agree in everything but the secrets of the directory and
the expected responses of CHALLENGED stations stay so at every step, and show the same outside. An ANSWER
is compared with the expected response and is apart (R61, R62). -/
def Obligations.NoCommandShowsASecret : Prop :=
  ∀ (s t s' : State), SameButSecrets s t →
    (∀ position response, s.pending.head? ≠ some (.answer position response)) →
    step s = .next s' →
    ∃ t', step t = .next t' ∧ SameButSecrets s' t' ∧ SameOutside s' t'

/-! ### Frames and transfers as bytes (R2, R54, R177, R179) -/

/-- R2, R54, R177, R179: every well-formed station message is read back from its frame, on its line port, and
every well-formed transfer is read back from the bytes that its processor sends, on its port. -/
def Obligations.StationFramesDecodeToTheirMessages : Prop :=
  (∀ (i : Instr) (line : Fin 48) (frame : List Byte), WellFormed i = true →
    encodeStationFrame i = some (line, frame) → decodeStationFrame line frame = i)
  ∧ ∀ (i : Instr) (port : Port) (bytes : List Byte), WellFormed i = true →
    encodeTransfer i = some (port, bytes) → decodeTransfer port bytes = i

/-! ### Laws that every step keeps -/

/-- R1, R3, R7: the queues keep their sizes, an admitted record finds room, and the queues are empty
during RESTARTING. -/
def Obligations.EveryStepKeepsTheQueueLaw : Prop :=
  ∀ s t, QueueLaw s → step s = .next t → QueueLaw t

/-- R42, R88, R90: ids rise and are in range, endpoints are legal, no endpoint is the destination of two
records, and classes are 0 to 3. -/
def Obligations.EveryStepKeepsTheConnectionTableLaw : Prop :=
  ∀ s t, TableLaw s ∧ ClassLaw s → step s = .next t → TableLaw t ∧ ClassLaw t

/-- R113, R114, R122: the settings of slots and groups stay legal, and a CONGESTED group is above its
abatement, a CLEAR one below its onset. -/
def Obligations.EveryStepKeepsTheCongestionHysteresis : Prop :=
  ∀ s t, GroupLaw s ∧ CongestionLaw s → step s = .next t → GroupLaw t ∧ CongestionLaw t

/-- R116: the busy count of every group is the number of its slots that some record names. -/
def Obligations.EveryStepKeepsTheBusyCounts : Prop :=
  ∀ s t, TableLaw s ∧ GroupLaw s ∧ BusyLaw s → step s = .next t → BusyLaw t

/-- R76, R91, R128, R133, R146: use counts are the numbers of records, a context named by a record is
LOADED, stored increments are odd, and every record with a privacy part holds one leg of its own. -/
def Obligations.EveryStepKeepsKeysAndLegsWithTheirRecords : Prop :=
  ∀ s t, TableLaw s ∧ PrivacyLaw s → step s = .next t → PrivacyLaw t

/-- R30, R32, R37: the directory stays in ascending order with legal fields. -/
def Obligations.EveryStepKeepsTheDirectoryInOrder : Prop :=
  ∀ s t, QueueLaw s ∧ DirectoryLaw s → step s = .next t → DirectoryLaw t

/-- R39, R44, R56, R61: the identity of every ADMITTED or CHALLENGED station is present, ENABLED and at
home there, no identity is ADMITTED twice, and only ADMITTED stations have deliveries waiting, up to
4. -/
def Obligations.EveryStepKeepsTheAdmissionLaw : Prop :=
  ∀ s t, AdmissionLaw s ∧ DeliverLaw s → step s = .next t → AdmissionLaw t ∧ DeliverLaw t

/-- R89, R94: stations named in records are ADMITTED, and every record of a station to a trunk conforms
to the directory. -/
def Obligations.EveryStepKeepsCallsConformingToTheDirectory : Prop :=
  ∀ s t, TableLaw s ∧ AdmissionLaw s ∧ StationLaw s ∧ ServiceLaw s → step s = .next t →
    StationLaw t ∧ ServiceLaw t

/-- R160, R163, R165: no identity is watched twice, a trace record names a LIVE record until it is
marked, and a record is trace-held exactly while a watch holds it. -/
def Obligations.EveryStepKeepsTraceHoldsWithTheirRecords : Prop :=
  ∀ s t, TableLaw s ∧ WatchLaw s → step s = .next t → WatchLaw t

/-- R109, R171, R172, R174: during RESTARTING mastership is vacant, no station is CHALLENGED or HOLD_OFF,
no message waits, and no record is PENDING; and the measured period lasts 4 ms at most, on the model's
time base (log entries 1 and 15). -/
def Obligations.EveryStepKeepsTheRestartingPeriodQuiet : Prop :=
  (∀ s t, RestartLaw s → step s = .next t → RestartLaw t)
    ∧ ∀ s t, RestartLaw s → RestartBoundLaw s → step s = .next t → RestartBoundLaw t
end

