-- ==== Sys2Proof/Laws/State.lean ====
section
/-! SUPPORT. What each update of one record does to each field of the state and to each record that is
read back: one lemma a field, so that no later proof unfolds a record update. -/

namespace Sys2Proof.Machine

/-! ### The other fields -/

section fields

variable (s : State)

@[simp] theorem State.setPort_lastServed (p : Port) (v : PortState) :
    (s.setPort p v).lastServed = s.lastServed := by cases p <;> rfl
@[simp] theorem State.setPort_mastership (p : Port) (v : PortState) :
    (s.setPort p v).mastership = s.mastership := by cases p <;> rfl
@[simp] theorem State.setPort_lapseInterval (p : Port) (v : PortState) :
    (s.setPort p v).lapseInterval = s.lapseInterval := by cases p <;> rfl
@[simp] theorem State.setPort_directory (p : Port) (v : PortState) :
    (s.setPort p v).directory = s.directory := by cases p <;> rfl
@[simp] theorem State.setPort_precedenceMap (p : Port) (v : PortState) :
    (s.setPort p v).precedenceMap = s.precedenceMap := by cases p <;> rfl
@[simp] theorem State.setPort_lines (p : Port) (v : PortState) :
    (s.setPort p v).lines = s.lines := by cases p <;> rfl
@[simp] theorem State.setPort_stations (p : Port) (v : PortState) :
    (s.setPort p v).stations = s.stations := by cases p <;> rfl
@[simp] theorem State.setPort_answerWindow (p : Port) (v : PortState) :
    (s.setPort p v).answerWindow = s.answerWindow := by cases p <;> rfl
@[simp] theorem State.setPort_holdOffTime (p : Port) (v : PortState) :
    (s.setPort p v).holdOffTime = s.holdOffTime := by cases p <;> rfl
@[simp] theorem State.setPort_lockoutCount (p : Port) (v : PortState) :
    (s.setPort p v).lockoutCount = s.lockoutCount := by cases p <;> rfl
@[simp] theorem State.setPort_challengeSequence (p : Port) (v : PortState) :
    (s.setPort p v).challengeSequence = s.challengeSequence := by cases p <;> rfl
@[simp] theorem State.setPort_connections (p : Port) (v : PortState) :
    (s.setPort p v).connections = s.connections := by cases p <;> rfl
@[simp] theorem State.setPort_frameCounter (p : Port) (v : PortState) :
    (s.setPort p v).frameCounter = s.frameCounter := by cases p <;> rfl
@[simp] theorem State.setPort_muteCode (p : Port) (v : PortState) :
    (s.setPort p v).muteCode = s.muteCode := by cases p <;> rfl
@[simp] theorem State.setPort_received (p : Port) (v : PortState) :
    (s.setPort p v).received = s.received := by cases p <;> rfl
@[simp] theorem State.setPort_outgoing (p : Port) (v : PortState) :
    (s.setPort p v).outgoing = s.outgoing := by cases p <;> rfl
@[simp] theorem State.setPort_slots (p : Port) (v : PortState) :
    (s.setPort p v).slots = s.slots := by cases p <;> rfl
@[simp] theorem State.setPort_groups (p : Port) (v : PortState) :
    (s.setPort p v).groups = s.groups := by cases p <;> rfl
@[simp] theorem State.setPort_keys (p : Port) (v : PortState) :
    (s.setPort p v).keys = s.keys := by cases p <;> rfl
@[simp] theorem State.setPort_legs (p : Port) (v : PortState) :
    (s.setPort p v).legs = s.legs := by cases p <;> rfl
@[simp] theorem State.setPort_watches (p : Port) (v : PortState) :
    (s.setPort p v).watches = s.watches := by cases p <;> rfl
@[simp] theorem State.setPort_restart (p : Port) (v : PortState) :
    (s.setPort p v).restart = s.restart := by cases p <;> rfl
@[simp] theorem State.setPort_restartSince (p : Port) (v : PortState) :
    (s.setPort p v).restartSince = s.restartSince := by cases p <;> rfl
@[simp] theorem State.setPort_resetPin (p : Port) (v : PortState) :
    (s.setPort p v).resetPin = s.resetPin := by cases p <;> rfl
@[simp] theorem State.setPort_clock (p : Port) (v : PortState) :
    (s.setPort p v).clock = s.clock := by cases p <;> rfl
@[simp] theorem State.setPort_freeIndex (p : Port) (v : PortState) :
    (s.setPort p v).freeIndex = s.freeIndex := by cases p <;> rfl
@[simp] theorem State.setPort_pending (p : Port) (v : PortState) :
    (s.setPort p v).pending = s.pending := by cases p <;> rfl
@[simp] theorem State.setLine_portA (n : Nat) (v : LinePort) :
    (s.setLine n v).portA = s.portA := rfl
@[simp] theorem State.setLine_portB (n : Nat) (v : LinePort) :
    (s.setLine n v).portB = s.portB := rfl
@[simp] theorem State.setLine_portM (n : Nat) (v : LinePort) :
    (s.setLine n v).portM = s.portM := rfl
@[simp] theorem State.setLine_lastServed (n : Nat) (v : LinePort) :
    (s.setLine n v).lastServed = s.lastServed := rfl
@[simp] theorem State.setLine_mastership (n : Nat) (v : LinePort) :
    (s.setLine n v).mastership = s.mastership := rfl
@[simp] theorem State.setLine_lapseInterval (n : Nat) (v : LinePort) :
    (s.setLine n v).lapseInterval = s.lapseInterval := rfl
@[simp] theorem State.setLine_directory (n : Nat) (v : LinePort) :
    (s.setLine n v).directory = s.directory := rfl
@[simp] theorem State.setLine_precedenceMap (n : Nat) (v : LinePort) :
    (s.setLine n v).precedenceMap = s.precedenceMap := rfl
@[simp] theorem State.setLine_stations (n : Nat) (v : LinePort) :
    (s.setLine n v).stations = s.stations := rfl
@[simp] theorem State.setLine_answerWindow (n : Nat) (v : LinePort) :
    (s.setLine n v).answerWindow = s.answerWindow := rfl
@[simp] theorem State.setLine_holdOffTime (n : Nat) (v : LinePort) :
    (s.setLine n v).holdOffTime = s.holdOffTime := rfl
@[simp] theorem State.setLine_lockoutCount (n : Nat) (v : LinePort) :
    (s.setLine n v).lockoutCount = s.lockoutCount := rfl
@[simp] theorem State.setLine_challengeSequence (n : Nat) (v : LinePort) :
    (s.setLine n v).challengeSequence = s.challengeSequence := rfl
@[simp] theorem State.setLine_connections (n : Nat) (v : LinePort) :
    (s.setLine n v).connections = s.connections := rfl
@[simp] theorem State.setLine_frameCounter (n : Nat) (v : LinePort) :
    (s.setLine n v).frameCounter = s.frameCounter := rfl
@[simp] theorem State.setLine_muteCode (n : Nat) (v : LinePort) :
    (s.setLine n v).muteCode = s.muteCode := rfl
@[simp] theorem State.setLine_received (n : Nat) (v : LinePort) :
    (s.setLine n v).received = s.received := rfl
@[simp] theorem State.setLine_outgoing (n : Nat) (v : LinePort) :
    (s.setLine n v).outgoing = s.outgoing := rfl
@[simp] theorem State.setLine_slots (n : Nat) (v : LinePort) :
    (s.setLine n v).slots = s.slots := rfl
@[simp] theorem State.setLine_groups (n : Nat) (v : LinePort) :
    (s.setLine n v).groups = s.groups := rfl
@[simp] theorem State.setLine_keys (n : Nat) (v : LinePort) : (s.setLine n v).keys = s.keys := rfl
@[simp] theorem State.setLine_legs (n : Nat) (v : LinePort) : (s.setLine n v).legs = s.legs := rfl
@[simp] theorem State.setLine_watches (n : Nat) (v : LinePort) :
    (s.setLine n v).watches = s.watches := rfl
@[simp] theorem State.setLine_restart (n : Nat) (v : LinePort) :
    (s.setLine n v).restart = s.restart := rfl
@[simp] theorem State.setLine_restartSince (n : Nat) (v : LinePort) :
    (s.setLine n v).restartSince = s.restartSince := rfl
@[simp] theorem State.setLine_resetPin (n : Nat) (v : LinePort) :
    (s.setLine n v).resetPin = s.resetPin := rfl
@[simp] theorem State.setLine_clock (n : Nat) (v : LinePort) :
    (s.setLine n v).clock = s.clock := rfl
@[simp] theorem State.setLine_freeIndex (n : Nat) (v : LinePort) :
    (s.setLine n v).freeIndex = s.freeIndex := rfl
@[simp] theorem State.setLine_pending (n : Nat) (v : LinePort) :
    (s.setLine n v).pending = s.pending := rfl
@[simp] theorem State.setStation_portA (n : Nat) (v : Station) :
    (s.setStation n v).portA = s.portA := rfl
@[simp] theorem State.setStation_portB (n : Nat) (v : Station) :
    (s.setStation n v).portB = s.portB := rfl
@[simp] theorem State.setStation_portM (n : Nat) (v : Station) :
    (s.setStation n v).portM = s.portM := rfl
@[simp] theorem State.setStation_lastServed (n : Nat) (v : Station) :
    (s.setStation n v).lastServed = s.lastServed := rfl
@[simp] theorem State.setStation_mastership (n : Nat) (v : Station) :
    (s.setStation n v).mastership = s.mastership := rfl
@[simp] theorem State.setStation_lapseInterval (n : Nat) (v : Station) :
    (s.setStation n v).lapseInterval = s.lapseInterval := rfl
@[simp] theorem State.setStation_directory (n : Nat) (v : Station) :
    (s.setStation n v).directory = s.directory := rfl
@[simp] theorem State.setStation_precedenceMap (n : Nat) (v : Station) :
    (s.setStation n v).precedenceMap = s.precedenceMap := rfl
@[simp] theorem State.setStation_lines (n : Nat) (v : Station) :
    (s.setStation n v).lines = s.lines := rfl
@[simp] theorem State.setStation_answerWindow (n : Nat) (v : Station) :
    (s.setStation n v).answerWindow = s.answerWindow := rfl
@[simp] theorem State.setStation_holdOffTime (n : Nat) (v : Station) :
    (s.setStation n v).holdOffTime = s.holdOffTime := rfl
@[simp] theorem State.setStation_lockoutCount (n : Nat) (v : Station) :
    (s.setStation n v).lockoutCount = s.lockoutCount := rfl
@[simp] theorem State.setStation_challengeSequence (n : Nat) (v : Station) :
    (s.setStation n v).challengeSequence = s.challengeSequence := rfl
@[simp] theorem State.setStation_connections (n : Nat) (v : Station) :
    (s.setStation n v).connections = s.connections := rfl
@[simp] theorem State.setStation_frameCounter (n : Nat) (v : Station) :
    (s.setStation n v).frameCounter = s.frameCounter := rfl
@[simp] theorem State.setStation_muteCode (n : Nat) (v : Station) :
    (s.setStation n v).muteCode = s.muteCode := rfl
@[simp] theorem State.setStation_received (n : Nat) (v : Station) :
    (s.setStation n v).received = s.received := rfl
@[simp] theorem State.setStation_outgoing (n : Nat) (v : Station) :
    (s.setStation n v).outgoing = s.outgoing := rfl
@[simp] theorem State.setStation_slots (n : Nat) (v : Station) :
    (s.setStation n v).slots = s.slots := rfl
@[simp] theorem State.setStation_groups (n : Nat) (v : Station) :
    (s.setStation n v).groups = s.groups := rfl
@[simp] theorem State.setStation_keys (n : Nat) (v : Station) :
    (s.setStation n v).keys = s.keys := rfl
@[simp] theorem State.setStation_legs (n : Nat) (v : Station) :
    (s.setStation n v).legs = s.legs := rfl
@[simp] theorem State.setStation_watches (n : Nat) (v : Station) :
    (s.setStation n v).watches = s.watches := rfl
@[simp] theorem State.setStation_restart (n : Nat) (v : Station) :
    (s.setStation n v).restart = s.restart := rfl
@[simp] theorem State.setStation_restartSince (n : Nat) (v : Station) :
    (s.setStation n v).restartSince = s.restartSince := rfl
@[simp] theorem State.setStation_resetPin (n : Nat) (v : Station) :
    (s.setStation n v).resetPin = s.resetPin := rfl
@[simp] theorem State.setStation_clock (n : Nat) (v : Station) :
    (s.setStation n v).clock = s.clock := rfl
@[simp] theorem State.setStation_freeIndex (n : Nat) (v : Station) :
    (s.setStation n v).freeIndex = s.freeIndex := rfl
@[simp] theorem State.setStation_pending (n : Nat) (v : Station) :
    (s.setStation n v).pending = s.pending := rfl
@[simp] theorem State.setSlot_portA (n : Nat) (v : TrunkSlot) :
    (s.setSlot n v).portA = s.portA := rfl
@[simp] theorem State.setSlot_portB (n : Nat) (v : TrunkSlot) :
    (s.setSlot n v).portB = s.portB := rfl
@[simp] theorem State.setSlot_portM (n : Nat) (v : TrunkSlot) :
    (s.setSlot n v).portM = s.portM := rfl
@[simp] theorem State.setSlot_lastServed (n : Nat) (v : TrunkSlot) :
    (s.setSlot n v).lastServed = s.lastServed := rfl
@[simp] theorem State.setSlot_mastership (n : Nat) (v : TrunkSlot) :
    (s.setSlot n v).mastership = s.mastership := rfl
@[simp] theorem State.setSlot_lapseInterval (n : Nat) (v : TrunkSlot) :
    (s.setSlot n v).lapseInterval = s.lapseInterval := rfl
@[simp] theorem State.setSlot_directory (n : Nat) (v : TrunkSlot) :
    (s.setSlot n v).directory = s.directory := rfl
@[simp] theorem State.setSlot_precedenceMap (n : Nat) (v : TrunkSlot) :
    (s.setSlot n v).precedenceMap = s.precedenceMap := rfl
@[simp] theorem State.setSlot_lines (n : Nat) (v : TrunkSlot) :
    (s.setSlot n v).lines = s.lines := rfl
@[simp] theorem State.setSlot_stations (n : Nat) (v : TrunkSlot) :
    (s.setSlot n v).stations = s.stations := rfl
@[simp] theorem State.setSlot_answerWindow (n : Nat) (v : TrunkSlot) :
    (s.setSlot n v).answerWindow = s.answerWindow := rfl
@[simp] theorem State.setSlot_holdOffTime (n : Nat) (v : TrunkSlot) :
    (s.setSlot n v).holdOffTime = s.holdOffTime := rfl
@[simp] theorem State.setSlot_lockoutCount (n : Nat) (v : TrunkSlot) :
    (s.setSlot n v).lockoutCount = s.lockoutCount := rfl
@[simp] theorem State.setSlot_challengeSequence (n : Nat) (v : TrunkSlot) :
    (s.setSlot n v).challengeSequence = s.challengeSequence := rfl
@[simp] theorem State.setSlot_connections (n : Nat) (v : TrunkSlot) :
    (s.setSlot n v).connections = s.connections := rfl
@[simp] theorem State.setSlot_frameCounter (n : Nat) (v : TrunkSlot) :
    (s.setSlot n v).frameCounter = s.frameCounter := rfl
@[simp] theorem State.setSlot_muteCode (n : Nat) (v : TrunkSlot) :
    (s.setSlot n v).muteCode = s.muteCode := rfl
@[simp] theorem State.setSlot_received (n : Nat) (v : TrunkSlot) :
    (s.setSlot n v).received = s.received := rfl
@[simp] theorem State.setSlot_outgoing (n : Nat) (v : TrunkSlot) :
    (s.setSlot n v).outgoing = s.outgoing := rfl
@[simp] theorem State.setSlot_groups (n : Nat) (v : TrunkSlot) :
    (s.setSlot n v).groups = s.groups := rfl
@[simp] theorem State.setSlot_keys (n : Nat) (v : TrunkSlot) : (s.setSlot n v).keys = s.keys := rfl
@[simp] theorem State.setSlot_legs (n : Nat) (v : TrunkSlot) : (s.setSlot n v).legs = s.legs := rfl
@[simp] theorem State.setSlot_watches (n : Nat) (v : TrunkSlot) :
    (s.setSlot n v).watches = s.watches := rfl
@[simp] theorem State.setSlot_restart (n : Nat) (v : TrunkSlot) :
    (s.setSlot n v).restart = s.restart := rfl
@[simp] theorem State.setSlot_restartSince (n : Nat) (v : TrunkSlot) :
    (s.setSlot n v).restartSince = s.restartSince := rfl
@[simp] theorem State.setSlot_resetPin (n : Nat) (v : TrunkSlot) :
    (s.setSlot n v).resetPin = s.resetPin := rfl
@[simp] theorem State.setSlot_clock (n : Nat) (v : TrunkSlot) :
    (s.setSlot n v).clock = s.clock := rfl
@[simp] theorem State.setSlot_freeIndex (n : Nat) (v : TrunkSlot) :
    (s.setSlot n v).freeIndex = s.freeIndex := rfl
@[simp] theorem State.setSlot_pending (n : Nat) (v : TrunkSlot) :
    (s.setSlot n v).pending = s.pending := rfl
@[simp] theorem State.setGroup_portA (n : Nat) (v : Group) : (s.setGroup n v).portA = s.portA := rfl
@[simp] theorem State.setGroup_portB (n : Nat) (v : Group) : (s.setGroup n v).portB = s.portB := rfl
@[simp] theorem State.setGroup_portM (n : Nat) (v : Group) : (s.setGroup n v).portM = s.portM := rfl
@[simp] theorem State.setGroup_lastServed (n : Nat) (v : Group) :
    (s.setGroup n v).lastServed = s.lastServed := rfl
@[simp] theorem State.setGroup_mastership (n : Nat) (v : Group) :
    (s.setGroup n v).mastership = s.mastership := rfl
@[simp] theorem State.setGroup_lapseInterval (n : Nat) (v : Group) :
    (s.setGroup n v).lapseInterval = s.lapseInterval := rfl
@[simp] theorem State.setGroup_directory (n : Nat) (v : Group) :
    (s.setGroup n v).directory = s.directory := rfl
@[simp] theorem State.setGroup_precedenceMap (n : Nat) (v : Group) :
    (s.setGroup n v).precedenceMap = s.precedenceMap := rfl
@[simp] theorem State.setGroup_lines (n : Nat) (v : Group) : (s.setGroup n v).lines = s.lines := rfl
@[simp] theorem State.setGroup_stations (n : Nat) (v : Group) :
    (s.setGroup n v).stations = s.stations := rfl
@[simp] theorem State.setGroup_answerWindow (n : Nat) (v : Group) :
    (s.setGroup n v).answerWindow = s.answerWindow := rfl
@[simp] theorem State.setGroup_holdOffTime (n : Nat) (v : Group) :
    (s.setGroup n v).holdOffTime = s.holdOffTime := rfl
@[simp] theorem State.setGroup_lockoutCount (n : Nat) (v : Group) :
    (s.setGroup n v).lockoutCount = s.lockoutCount := rfl
@[simp] theorem State.setGroup_challengeSequence (n : Nat) (v : Group) :
    (s.setGroup n v).challengeSequence = s.challengeSequence := rfl
@[simp] theorem State.setGroup_connections (n : Nat) (v : Group) :
    (s.setGroup n v).connections = s.connections := rfl
@[simp] theorem State.setGroup_frameCounter (n : Nat) (v : Group) :
    (s.setGroup n v).frameCounter = s.frameCounter := rfl
@[simp] theorem State.setGroup_muteCode (n : Nat) (v : Group) :
    (s.setGroup n v).muteCode = s.muteCode := rfl
@[simp] theorem State.setGroup_received (n : Nat) (v : Group) :
    (s.setGroup n v).received = s.received := rfl
@[simp] theorem State.setGroup_outgoing (n : Nat) (v : Group) :
    (s.setGroup n v).outgoing = s.outgoing := rfl
@[simp] theorem State.setGroup_slots (n : Nat) (v : Group) : (s.setGroup n v).slots = s.slots := rfl
@[simp] theorem State.setGroup_keys (n : Nat) (v : Group) : (s.setGroup n v).keys = s.keys := rfl
@[simp] theorem State.setGroup_legs (n : Nat) (v : Group) : (s.setGroup n v).legs = s.legs := rfl
@[simp] theorem State.setGroup_watches (n : Nat) (v : Group) :
    (s.setGroup n v).watches = s.watches := rfl
@[simp] theorem State.setGroup_restart (n : Nat) (v : Group) :
    (s.setGroup n v).restart = s.restart := rfl
@[simp] theorem State.setGroup_restartSince (n : Nat) (v : Group) :
    (s.setGroup n v).restartSince = s.restartSince := rfl
@[simp] theorem State.setGroup_resetPin (n : Nat) (v : Group) :
    (s.setGroup n v).resetPin = s.resetPin := rfl
@[simp] theorem State.setGroup_clock (n : Nat) (v : Group) : (s.setGroup n v).clock = s.clock := rfl
@[simp] theorem State.setGroup_freeIndex (n : Nat) (v : Group) :
    (s.setGroup n v).freeIndex = s.freeIndex := rfl
@[simp] theorem State.setGroup_pending (n : Nat) (v : Group) :
    (s.setGroup n v).pending = s.pending := rfl
@[simp] theorem State.setKey_portA (n : Nat) (v : KeyContext) :
    (s.setKey n v).portA = s.portA := rfl
@[simp] theorem State.setKey_portB (n : Nat) (v : KeyContext) :
    (s.setKey n v).portB = s.portB := rfl
@[simp] theorem State.setKey_portM (n : Nat) (v : KeyContext) :
    (s.setKey n v).portM = s.portM := rfl
@[simp] theorem State.setKey_lastServed (n : Nat) (v : KeyContext) :
    (s.setKey n v).lastServed = s.lastServed := rfl
@[simp] theorem State.setKey_mastership (n : Nat) (v : KeyContext) :
    (s.setKey n v).mastership = s.mastership := rfl
@[simp] theorem State.setKey_lapseInterval (n : Nat) (v : KeyContext) :
    (s.setKey n v).lapseInterval = s.lapseInterval := rfl
@[simp] theorem State.setKey_directory (n : Nat) (v : KeyContext) :
    (s.setKey n v).directory = s.directory := rfl
@[simp] theorem State.setKey_precedenceMap (n : Nat) (v : KeyContext) :
    (s.setKey n v).precedenceMap = s.precedenceMap := rfl
@[simp] theorem State.setKey_lines (n : Nat) (v : KeyContext) :
    (s.setKey n v).lines = s.lines := rfl
@[simp] theorem State.setKey_stations (n : Nat) (v : KeyContext) :
    (s.setKey n v).stations = s.stations := rfl
@[simp] theorem State.setKey_answerWindow (n : Nat) (v : KeyContext) :
    (s.setKey n v).answerWindow = s.answerWindow := rfl
@[simp] theorem State.setKey_holdOffTime (n : Nat) (v : KeyContext) :
    (s.setKey n v).holdOffTime = s.holdOffTime := rfl
@[simp] theorem State.setKey_lockoutCount (n : Nat) (v : KeyContext) :
    (s.setKey n v).lockoutCount = s.lockoutCount := rfl
@[simp] theorem State.setKey_challengeSequence (n : Nat) (v : KeyContext) :
    (s.setKey n v).challengeSequence = s.challengeSequence := rfl
@[simp] theorem State.setKey_connections (n : Nat) (v : KeyContext) :
    (s.setKey n v).connections = s.connections := rfl
@[simp] theorem State.setKey_frameCounter (n : Nat) (v : KeyContext) :
    (s.setKey n v).frameCounter = s.frameCounter := rfl
@[simp] theorem State.setKey_muteCode (n : Nat) (v : KeyContext) :
    (s.setKey n v).muteCode = s.muteCode := rfl
@[simp] theorem State.setKey_received (n : Nat) (v : KeyContext) :
    (s.setKey n v).received = s.received := rfl
@[simp] theorem State.setKey_outgoing (n : Nat) (v : KeyContext) :
    (s.setKey n v).outgoing = s.outgoing := rfl
@[simp] theorem State.setKey_slots (n : Nat) (v : KeyContext) :
    (s.setKey n v).slots = s.slots := rfl
@[simp] theorem State.setKey_groups (n : Nat) (v : KeyContext) :
    (s.setKey n v).groups = s.groups := rfl
@[simp] theorem State.setKey_legs (n : Nat) (v : KeyContext) : (s.setKey n v).legs = s.legs := rfl
@[simp] theorem State.setKey_watches (n : Nat) (v : KeyContext) :
    (s.setKey n v).watches = s.watches := rfl
@[simp] theorem State.setKey_restart (n : Nat) (v : KeyContext) :
    (s.setKey n v).restart = s.restart := rfl
@[simp] theorem State.setKey_restartSince (n : Nat) (v : KeyContext) :
    (s.setKey n v).restartSince = s.restartSince := rfl
@[simp] theorem State.setKey_resetPin (n : Nat) (v : KeyContext) :
    (s.setKey n v).resetPin = s.resetPin := rfl
@[simp] theorem State.setKey_clock (n : Nat) (v : KeyContext) :
    (s.setKey n v).clock = s.clock := rfl
@[simp] theorem State.setKey_freeIndex (n : Nat) (v : KeyContext) :
    (s.setKey n v).freeIndex = s.freeIndex := rfl
@[simp] theorem State.setKey_pending (n : Nat) (v : KeyContext) :
    (s.setKey n v).pending = s.pending := rfl
@[simp] theorem State.setLeg_portA (n : Nat) (v : Option Leg) :
    (s.setLeg n v).portA = s.portA := rfl
@[simp] theorem State.setLeg_portB (n : Nat) (v : Option Leg) :
    (s.setLeg n v).portB = s.portB := rfl
@[simp] theorem State.setLeg_portM (n : Nat) (v : Option Leg) :
    (s.setLeg n v).portM = s.portM := rfl
@[simp] theorem State.setLeg_lastServed (n : Nat) (v : Option Leg) :
    (s.setLeg n v).lastServed = s.lastServed := rfl
@[simp] theorem State.setLeg_mastership (n : Nat) (v : Option Leg) :
    (s.setLeg n v).mastership = s.mastership := rfl
@[simp] theorem State.setLeg_lapseInterval (n : Nat) (v : Option Leg) :
    (s.setLeg n v).lapseInterval = s.lapseInterval := rfl
@[simp] theorem State.setLeg_directory (n : Nat) (v : Option Leg) :
    (s.setLeg n v).directory = s.directory := rfl
@[simp] theorem State.setLeg_precedenceMap (n : Nat) (v : Option Leg) :
    (s.setLeg n v).precedenceMap = s.precedenceMap := rfl
@[simp] theorem State.setLeg_lines (n : Nat) (v : Option Leg) :
    (s.setLeg n v).lines = s.lines := rfl
@[simp] theorem State.setLeg_stations (n : Nat) (v : Option Leg) :
    (s.setLeg n v).stations = s.stations := rfl
@[simp] theorem State.setLeg_answerWindow (n : Nat) (v : Option Leg) :
    (s.setLeg n v).answerWindow = s.answerWindow := rfl
@[simp] theorem State.setLeg_holdOffTime (n : Nat) (v : Option Leg) :
    (s.setLeg n v).holdOffTime = s.holdOffTime := rfl
@[simp] theorem State.setLeg_lockoutCount (n : Nat) (v : Option Leg) :
    (s.setLeg n v).lockoutCount = s.lockoutCount := rfl
@[simp] theorem State.setLeg_challengeSequence (n : Nat) (v : Option Leg) :
    (s.setLeg n v).challengeSequence = s.challengeSequence := rfl
@[simp] theorem State.setLeg_connections (n : Nat) (v : Option Leg) :
    (s.setLeg n v).connections = s.connections := rfl
@[simp] theorem State.setLeg_frameCounter (n : Nat) (v : Option Leg) :
    (s.setLeg n v).frameCounter = s.frameCounter := rfl
@[simp] theorem State.setLeg_muteCode (n : Nat) (v : Option Leg) :
    (s.setLeg n v).muteCode = s.muteCode := rfl
@[simp] theorem State.setLeg_received (n : Nat) (v : Option Leg) :
    (s.setLeg n v).received = s.received := rfl
@[simp] theorem State.setLeg_outgoing (n : Nat) (v : Option Leg) :
    (s.setLeg n v).outgoing = s.outgoing := rfl
@[simp] theorem State.setLeg_slots (n : Nat) (v : Option Leg) :
    (s.setLeg n v).slots = s.slots := rfl
@[simp] theorem State.setLeg_groups (n : Nat) (v : Option Leg) :
    (s.setLeg n v).groups = s.groups := rfl
@[simp] theorem State.setLeg_keys (n : Nat) (v : Option Leg) : (s.setLeg n v).keys = s.keys := rfl
@[simp] theorem State.setLeg_watches (n : Nat) (v : Option Leg) :
    (s.setLeg n v).watches = s.watches := rfl
@[simp] theorem State.setLeg_restart (n : Nat) (v : Option Leg) :
    (s.setLeg n v).restart = s.restart := rfl
@[simp] theorem State.setLeg_restartSince (n : Nat) (v : Option Leg) :
    (s.setLeg n v).restartSince = s.restartSince := rfl
@[simp] theorem State.setLeg_resetPin (n : Nat) (v : Option Leg) :
    (s.setLeg n v).resetPin = s.resetPin := rfl
@[simp] theorem State.setLeg_clock (n : Nat) (v : Option Leg) :
    (s.setLeg n v).clock = s.clock := rfl
@[simp] theorem State.setLeg_freeIndex (n : Nat) (v : Option Leg) :
    (s.setLeg n v).freeIndex = s.freeIndex := rfl
@[simp] theorem State.setLeg_pending (n : Nat) (v : Option Leg) :
    (s.setLeg n v).pending = s.pending := rfl
@[simp] theorem State.setWatch_portA (n : Nat) (v : Watch) : (s.setWatch n v).portA = s.portA := rfl
@[simp] theorem State.setWatch_portB (n : Nat) (v : Watch) : (s.setWatch n v).portB = s.portB := rfl
@[simp] theorem State.setWatch_portM (n : Nat) (v : Watch) : (s.setWatch n v).portM = s.portM := rfl
@[simp] theorem State.setWatch_lastServed (n : Nat) (v : Watch) :
    (s.setWatch n v).lastServed = s.lastServed := rfl
@[simp] theorem State.setWatch_mastership (n : Nat) (v : Watch) :
    (s.setWatch n v).mastership = s.mastership := rfl
@[simp] theorem State.setWatch_lapseInterval (n : Nat) (v : Watch) :
    (s.setWatch n v).lapseInterval = s.lapseInterval := rfl
@[simp] theorem State.setWatch_directory (n : Nat) (v : Watch) :
    (s.setWatch n v).directory = s.directory := rfl
@[simp] theorem State.setWatch_precedenceMap (n : Nat) (v : Watch) :
    (s.setWatch n v).precedenceMap = s.precedenceMap := rfl
@[simp] theorem State.setWatch_lines (n : Nat) (v : Watch) : (s.setWatch n v).lines = s.lines := rfl
@[simp] theorem State.setWatch_stations (n : Nat) (v : Watch) :
    (s.setWatch n v).stations = s.stations := rfl
@[simp] theorem State.setWatch_answerWindow (n : Nat) (v : Watch) :
    (s.setWatch n v).answerWindow = s.answerWindow := rfl
@[simp] theorem State.setWatch_holdOffTime (n : Nat) (v : Watch) :
    (s.setWatch n v).holdOffTime = s.holdOffTime := rfl
@[simp] theorem State.setWatch_lockoutCount (n : Nat) (v : Watch) :
    (s.setWatch n v).lockoutCount = s.lockoutCount := rfl
@[simp] theorem State.setWatch_challengeSequence (n : Nat) (v : Watch) :
    (s.setWatch n v).challengeSequence = s.challengeSequence := rfl
@[simp] theorem State.setWatch_connections (n : Nat) (v : Watch) :
    (s.setWatch n v).connections = s.connections := rfl
@[simp] theorem State.setWatch_frameCounter (n : Nat) (v : Watch) :
    (s.setWatch n v).frameCounter = s.frameCounter := rfl
@[simp] theorem State.setWatch_muteCode (n : Nat) (v : Watch) :
    (s.setWatch n v).muteCode = s.muteCode := rfl
@[simp] theorem State.setWatch_received (n : Nat) (v : Watch) :
    (s.setWatch n v).received = s.received := rfl
@[simp] theorem State.setWatch_outgoing (n : Nat) (v : Watch) :
    (s.setWatch n v).outgoing = s.outgoing := rfl
@[simp] theorem State.setWatch_slots (n : Nat) (v : Watch) : (s.setWatch n v).slots = s.slots := rfl
@[simp] theorem State.setWatch_groups (n : Nat) (v : Watch) :
    (s.setWatch n v).groups = s.groups := rfl
@[simp] theorem State.setWatch_keys (n : Nat) (v : Watch) : (s.setWatch n v).keys = s.keys := rfl
@[simp] theorem State.setWatch_legs (n : Nat) (v : Watch) : (s.setWatch n v).legs = s.legs := rfl
@[simp] theorem State.setWatch_restart (n : Nat) (v : Watch) :
    (s.setWatch n v).restart = s.restart := rfl
@[simp] theorem State.setWatch_restartSince (n : Nat) (v : Watch) :
    (s.setWatch n v).restartSince = s.restartSince := rfl
@[simp] theorem State.setWatch_resetPin (n : Nat) (v : Watch) :
    (s.setWatch n v).resetPin = s.resetPin := rfl
@[simp] theorem State.setWatch_clock (n : Nat) (v : Watch) : (s.setWatch n v).clock = s.clock := rfl
@[simp] theorem State.setWatch_freeIndex (n : Nat) (v : Watch) :
    (s.setWatch n v).freeIndex = s.freeIndex := rfl
@[simp] theorem State.setWatch_pending (n : Nat) (v : Watch) :
    (s.setWatch n v).pending = s.pending := rfl
@[simp] theorem State.setOutgoing_portA (n : Nat) (v : Byte) :
    (s.setOutgoing n v).portA = s.portA := rfl
@[simp] theorem State.setOutgoing_portB (n : Nat) (v : Byte) :
    (s.setOutgoing n v).portB = s.portB := rfl
@[simp] theorem State.setOutgoing_portM (n : Nat) (v : Byte) :
    (s.setOutgoing n v).portM = s.portM := rfl
@[simp] theorem State.setOutgoing_lastServed (n : Nat) (v : Byte) :
    (s.setOutgoing n v).lastServed = s.lastServed := rfl
@[simp] theorem State.setOutgoing_mastership (n : Nat) (v : Byte) :
    (s.setOutgoing n v).mastership = s.mastership := rfl
@[simp] theorem State.setOutgoing_lapseInterval (n : Nat) (v : Byte) :
    (s.setOutgoing n v).lapseInterval = s.lapseInterval := rfl
@[simp] theorem State.setOutgoing_directory (n : Nat) (v : Byte) :
    (s.setOutgoing n v).directory = s.directory := rfl
@[simp] theorem State.setOutgoing_precedenceMap (n : Nat) (v : Byte) :
    (s.setOutgoing n v).precedenceMap = s.precedenceMap := rfl
@[simp] theorem State.setOutgoing_lines (n : Nat) (v : Byte) :
    (s.setOutgoing n v).lines = s.lines := rfl
@[simp] theorem State.setOutgoing_stations (n : Nat) (v : Byte) :
    (s.setOutgoing n v).stations = s.stations := rfl
@[simp] theorem State.setOutgoing_answerWindow (n : Nat) (v : Byte) :
    (s.setOutgoing n v).answerWindow = s.answerWindow := rfl
@[simp] theorem State.setOutgoing_holdOffTime (n : Nat) (v : Byte) :
    (s.setOutgoing n v).holdOffTime = s.holdOffTime := rfl
@[simp] theorem State.setOutgoing_lockoutCount (n : Nat) (v : Byte) :
    (s.setOutgoing n v).lockoutCount = s.lockoutCount := rfl
@[simp] theorem State.setOutgoing_challengeSequence (n : Nat) (v : Byte) :
    (s.setOutgoing n v).challengeSequence = s.challengeSequence := rfl
@[simp] theorem State.setOutgoing_connections (n : Nat) (v : Byte) :
    (s.setOutgoing n v).connections = s.connections := rfl
@[simp] theorem State.setOutgoing_frameCounter (n : Nat) (v : Byte) :
    (s.setOutgoing n v).frameCounter = s.frameCounter := rfl
@[simp] theorem State.setOutgoing_muteCode (n : Nat) (v : Byte) :
    (s.setOutgoing n v).muteCode = s.muteCode := rfl
@[simp] theorem State.setOutgoing_received (n : Nat) (v : Byte) :
    (s.setOutgoing n v).received = s.received := rfl
@[simp] theorem State.setOutgoing_slots (n : Nat) (v : Byte) :
    (s.setOutgoing n v).slots = s.slots := rfl
@[simp] theorem State.setOutgoing_groups (n : Nat) (v : Byte) :
    (s.setOutgoing n v).groups = s.groups := rfl
@[simp] theorem State.setOutgoing_keys (n : Nat) (v : Byte) :
    (s.setOutgoing n v).keys = s.keys := rfl
@[simp] theorem State.setOutgoing_legs (n : Nat) (v : Byte) :
    (s.setOutgoing n v).legs = s.legs := rfl
@[simp] theorem State.setOutgoing_watches (n : Nat) (v : Byte) :
    (s.setOutgoing n v).watches = s.watches := rfl
@[simp] theorem State.setOutgoing_restart (n : Nat) (v : Byte) :
    (s.setOutgoing n v).restart = s.restart := rfl
@[simp] theorem State.setOutgoing_restartSince (n : Nat) (v : Byte) :
    (s.setOutgoing n v).restartSince = s.restartSince := rfl
@[simp] theorem State.setOutgoing_resetPin (n : Nat) (v : Byte) :
    (s.setOutgoing n v).resetPin = s.resetPin := rfl
@[simp] theorem State.setOutgoing_clock (n : Nat) (v : Byte) :
    (s.setOutgoing n v).clock = s.clock := rfl
@[simp] theorem State.setOutgoing_freeIndex (n : Nat) (v : Byte) :
    (s.setOutgoing n v).freeIndex = s.freeIndex := rfl
@[simp] theorem State.setOutgoing_pending (n : Nat) (v : Byte) :
    (s.setOutgoing n v).pending = s.pending := rfl
@[simp] theorem State.mapConnection_portA (n : Nat) (f : Connection → Connection) :
    (s.mapConnection n f).portA = s.portA := rfl
@[simp] theorem State.mapConnection_portB (n : Nat) (f : Connection → Connection) :
    (s.mapConnection n f).portB = s.portB := rfl
@[simp] theorem State.mapConnection_portM (n : Nat) (f : Connection → Connection) :
    (s.mapConnection n f).portM = s.portM := rfl
@[simp] theorem State.mapConnection_lastServed (n : Nat) (f : Connection → Connection) :
    (s.mapConnection n f).lastServed = s.lastServed := rfl
@[simp] theorem State.mapConnection_mastership (n : Nat) (f : Connection → Connection) :
    (s.mapConnection n f).mastership = s.mastership := rfl
@[simp] theorem State.mapConnection_lapseInterval (n : Nat) (f : Connection → Connection) :
    (s.mapConnection n f).lapseInterval = s.lapseInterval := rfl
@[simp] theorem State.mapConnection_directory (n : Nat) (f : Connection → Connection) :
    (s.mapConnection n f).directory = s.directory := rfl
@[simp] theorem State.mapConnection_precedenceMap (n : Nat) (f : Connection → Connection) :
    (s.mapConnection n f).precedenceMap = s.precedenceMap := rfl
@[simp] theorem State.mapConnection_lines (n : Nat) (f : Connection → Connection) :
    (s.mapConnection n f).lines = s.lines := rfl
@[simp] theorem State.mapConnection_stations (n : Nat) (f : Connection → Connection) :
    (s.mapConnection n f).stations = s.stations := rfl
@[simp] theorem State.mapConnection_answerWindow (n : Nat) (f : Connection → Connection) :
    (s.mapConnection n f).answerWindow = s.answerWindow := rfl
@[simp] theorem State.mapConnection_holdOffTime (n : Nat) (f : Connection → Connection) :
    (s.mapConnection n f).holdOffTime = s.holdOffTime := rfl
@[simp] theorem State.mapConnection_lockoutCount (n : Nat) (f : Connection → Connection) :
    (s.mapConnection n f).lockoutCount = s.lockoutCount := rfl
@[simp] theorem State.mapConnection_challengeSequence (n : Nat) (f : Connection → Connection) :
    (s.mapConnection n f).challengeSequence = s.challengeSequence := rfl
@[simp] theorem State.mapConnection_frameCounter (n : Nat) (f : Connection → Connection) :
    (s.mapConnection n f).frameCounter = s.frameCounter := rfl
@[simp] theorem State.mapConnection_muteCode (n : Nat) (f : Connection → Connection) :
    (s.mapConnection n f).muteCode = s.muteCode := rfl
@[simp] theorem State.mapConnection_received (n : Nat) (f : Connection → Connection) :
    (s.mapConnection n f).received = s.received := rfl
@[simp] theorem State.mapConnection_outgoing (n : Nat) (f : Connection → Connection) :
    (s.mapConnection n f).outgoing = s.outgoing := rfl
@[simp] theorem State.mapConnection_slots (n : Nat) (f : Connection → Connection) :
    (s.mapConnection n f).slots = s.slots := rfl
@[simp] theorem State.mapConnection_groups (n : Nat) (f : Connection → Connection) :
    (s.mapConnection n f).groups = s.groups := rfl
@[simp] theorem State.mapConnection_keys (n : Nat) (f : Connection → Connection) :
    (s.mapConnection n f).keys = s.keys := rfl
@[simp] theorem State.mapConnection_legs (n : Nat) (f : Connection → Connection) :
    (s.mapConnection n f).legs = s.legs := rfl
@[simp] theorem State.mapConnection_watches (n : Nat) (f : Connection → Connection) :
    (s.mapConnection n f).watches = s.watches := rfl
@[simp] theorem State.mapConnection_restart (n : Nat) (f : Connection → Connection) :
    (s.mapConnection n f).restart = s.restart := rfl
@[simp] theorem State.mapConnection_restartSince (n : Nat) (f : Connection → Connection) :
    (s.mapConnection n f).restartSince = s.restartSince := rfl
@[simp] theorem State.mapConnection_resetPin (n : Nat) (f : Connection → Connection) :
    (s.mapConnection n f).resetPin = s.resetPin := rfl
@[simp] theorem State.mapConnection_clock (n : Nat) (f : Connection → Connection) :
    (s.mapConnection n f).clock = s.clock := rfl
@[simp] theorem State.mapConnection_freeIndex (n : Nat) (f : Connection → Connection) :
    (s.mapConnection n f).freeIndex = s.freeIndex := rfl
@[simp] theorem State.mapConnection_pending (n : Nat) (f : Connection → Connection) :
    (s.mapConnection n f).pending = s.pending := rfl
@[simp] theorem State.dropConnection_portA (n : Nat) : (s.dropConnection n).portA = s.portA := rfl
@[simp] theorem State.dropConnection_portB (n : Nat) : (s.dropConnection n).portB = s.portB := rfl
@[simp] theorem State.dropConnection_portM (n : Nat) : (s.dropConnection n).portM = s.portM := rfl
@[simp] theorem State.dropConnection_lastServed (n : Nat) :
    (s.dropConnection n).lastServed = s.lastServed := rfl
@[simp] theorem State.dropConnection_mastership (n : Nat) :
    (s.dropConnection n).mastership = s.mastership := rfl
@[simp] theorem State.dropConnection_lapseInterval (n : Nat) :
    (s.dropConnection n).lapseInterval = s.lapseInterval := rfl
@[simp] theorem State.dropConnection_directory (n : Nat) :
    (s.dropConnection n).directory = s.directory := rfl
@[simp] theorem State.dropConnection_precedenceMap (n : Nat) :
    (s.dropConnection n).precedenceMap = s.precedenceMap := rfl
@[simp] theorem State.dropConnection_lines (n : Nat) : (s.dropConnection n).lines = s.lines := rfl
@[simp] theorem State.dropConnection_stations (n : Nat) :
    (s.dropConnection n).stations = s.stations := rfl
@[simp] theorem State.dropConnection_answerWindow (n : Nat) :
    (s.dropConnection n).answerWindow = s.answerWindow := rfl
@[simp] theorem State.dropConnection_holdOffTime (n : Nat) :
    (s.dropConnection n).holdOffTime = s.holdOffTime := rfl
@[simp] theorem State.dropConnection_lockoutCount (n : Nat) :
    (s.dropConnection n).lockoutCount = s.lockoutCount := rfl
@[simp] theorem State.dropConnection_challengeSequence (n : Nat) :
    (s.dropConnection n).challengeSequence = s.challengeSequence := rfl
@[simp] theorem State.dropConnection_frameCounter (n : Nat) :
    (s.dropConnection n).frameCounter = s.frameCounter := rfl
@[simp] theorem State.dropConnection_muteCode (n : Nat) :
    (s.dropConnection n).muteCode = s.muteCode := rfl
@[simp] theorem State.dropConnection_received (n : Nat) :
    (s.dropConnection n).received = s.received := rfl
@[simp] theorem State.dropConnection_outgoing (n : Nat) :
    (s.dropConnection n).outgoing = s.outgoing := rfl
@[simp] theorem State.dropConnection_slots (n : Nat) : (s.dropConnection n).slots = s.slots := rfl
@[simp] theorem State.dropConnection_groups (n : Nat) :
    (s.dropConnection n).groups = s.groups := rfl
@[simp] theorem State.dropConnection_keys (n : Nat) : (s.dropConnection n).keys = s.keys := rfl
@[simp] theorem State.dropConnection_legs (n : Nat) : (s.dropConnection n).legs = s.legs := rfl
@[simp] theorem State.dropConnection_watches (n : Nat) :
    (s.dropConnection n).watches = s.watches := rfl
@[simp] theorem State.dropConnection_restart (n : Nat) :
    (s.dropConnection n).restart = s.restart := rfl
@[simp] theorem State.dropConnection_restartSince (n : Nat) :
    (s.dropConnection n).restartSince = s.restartSince := rfl
@[simp] theorem State.dropConnection_resetPin (n : Nat) :
    (s.dropConnection n).resetPin = s.resetPin := rfl
@[simp] theorem State.dropConnection_clock (n : Nat) : (s.dropConnection n).clock = s.clock := rfl
@[simp] theorem State.dropConnection_freeIndex (n : Nat) :
    (s.dropConnection n).freeIndex = s.freeIndex := rfl
@[simp] theorem State.dropConnection_pending (n : Nat) :
    (s.dropConnection n).pending = s.pending := rfl
@[simp] theorem State.mapEntry_portA (n : Nat) (f : DirectoryEntry → DirectoryEntry) :
    (s.mapEntry n f).portA = s.portA := rfl
@[simp] theorem State.mapEntry_portB (n : Nat) (f : DirectoryEntry → DirectoryEntry) :
    (s.mapEntry n f).portB = s.portB := rfl
@[simp] theorem State.mapEntry_portM (n : Nat) (f : DirectoryEntry → DirectoryEntry) :
    (s.mapEntry n f).portM = s.portM := rfl
@[simp] theorem State.mapEntry_lastServed (n : Nat) (f : DirectoryEntry → DirectoryEntry) :
    (s.mapEntry n f).lastServed = s.lastServed := rfl
@[simp] theorem State.mapEntry_mastership (n : Nat) (f : DirectoryEntry → DirectoryEntry) :
    (s.mapEntry n f).mastership = s.mastership := rfl
@[simp] theorem State.mapEntry_lapseInterval (n : Nat) (f : DirectoryEntry → DirectoryEntry) :
    (s.mapEntry n f).lapseInterval = s.lapseInterval := rfl
@[simp] theorem State.mapEntry_precedenceMap (n : Nat) (f : DirectoryEntry → DirectoryEntry) :
    (s.mapEntry n f).precedenceMap = s.precedenceMap := rfl
@[simp] theorem State.mapEntry_lines (n : Nat) (f : DirectoryEntry → DirectoryEntry) :
    (s.mapEntry n f).lines = s.lines := rfl
@[simp] theorem State.mapEntry_stations (n : Nat) (f : DirectoryEntry → DirectoryEntry) :
    (s.mapEntry n f).stations = s.stations := rfl
@[simp] theorem State.mapEntry_answerWindow (n : Nat) (f : DirectoryEntry → DirectoryEntry) :
    (s.mapEntry n f).answerWindow = s.answerWindow := rfl
@[simp] theorem State.mapEntry_holdOffTime (n : Nat) (f : DirectoryEntry → DirectoryEntry) :
    (s.mapEntry n f).holdOffTime = s.holdOffTime := rfl
@[simp] theorem State.mapEntry_lockoutCount (n : Nat) (f : DirectoryEntry → DirectoryEntry) :
    (s.mapEntry n f).lockoutCount = s.lockoutCount := rfl
@[simp] theorem State.mapEntry_challengeSequence (n : Nat) (f : DirectoryEntry → DirectoryEntry) :
    (s.mapEntry n f).challengeSequence = s.challengeSequence := rfl
@[simp] theorem State.mapEntry_connections (n : Nat) (f : DirectoryEntry → DirectoryEntry) :
    (s.mapEntry n f).connections = s.connections := rfl
@[simp] theorem State.mapEntry_frameCounter (n : Nat) (f : DirectoryEntry → DirectoryEntry) :
    (s.mapEntry n f).frameCounter = s.frameCounter := rfl
@[simp] theorem State.mapEntry_muteCode (n : Nat) (f : DirectoryEntry → DirectoryEntry) :
    (s.mapEntry n f).muteCode = s.muteCode := rfl
@[simp] theorem State.mapEntry_received (n : Nat) (f : DirectoryEntry → DirectoryEntry) :
    (s.mapEntry n f).received = s.received := rfl
@[simp] theorem State.mapEntry_outgoing (n : Nat) (f : DirectoryEntry → DirectoryEntry) :
    (s.mapEntry n f).outgoing = s.outgoing := rfl
@[simp] theorem State.mapEntry_slots (n : Nat) (f : DirectoryEntry → DirectoryEntry) :
    (s.mapEntry n f).slots = s.slots := rfl
@[simp] theorem State.mapEntry_groups (n : Nat) (f : DirectoryEntry → DirectoryEntry) :
    (s.mapEntry n f).groups = s.groups := rfl
@[simp] theorem State.mapEntry_keys (n : Nat) (f : DirectoryEntry → DirectoryEntry) :
    (s.mapEntry n f).keys = s.keys := rfl
@[simp] theorem State.mapEntry_legs (n : Nat) (f : DirectoryEntry → DirectoryEntry) :
    (s.mapEntry n f).legs = s.legs := rfl
@[simp] theorem State.mapEntry_watches (n : Nat) (f : DirectoryEntry → DirectoryEntry) :
    (s.mapEntry n f).watches = s.watches := rfl
@[simp] theorem State.mapEntry_restart (n : Nat) (f : DirectoryEntry → DirectoryEntry) :
    (s.mapEntry n f).restart = s.restart := rfl
@[simp] theorem State.mapEntry_restartSince (n : Nat) (f : DirectoryEntry → DirectoryEntry) :
    (s.mapEntry n f).restartSince = s.restartSince := rfl
@[simp] theorem State.mapEntry_resetPin (n : Nat) (f : DirectoryEntry → DirectoryEntry) :
    (s.mapEntry n f).resetPin = s.resetPin := rfl
@[simp] theorem State.mapEntry_clock (n : Nat) (f : DirectoryEntry → DirectoryEntry) :
    (s.mapEntry n f).clock = s.clock := rfl
@[simp] theorem State.mapEntry_freeIndex (n : Nat) (f : DirectoryEntry → DirectoryEntry) :
    (s.mapEntry n f).freeIndex = s.freeIndex := rfl
@[simp] theorem State.mapEntry_pending (n : Nat) (f : DirectoryEntry → DirectoryEntry) :
    (s.mapEntry n f).pending = s.pending := rfl
@[simp] theorem State.dropEntry_portA (n : Nat) : (s.dropEntry n).portA = s.portA := rfl
@[simp] theorem State.dropEntry_portB (n : Nat) : (s.dropEntry n).portB = s.portB := rfl
@[simp] theorem State.dropEntry_portM (n : Nat) : (s.dropEntry n).portM = s.portM := rfl
@[simp] theorem State.dropEntry_lastServed (n : Nat) :
    (s.dropEntry n).lastServed = s.lastServed := rfl
@[simp] theorem State.dropEntry_mastership (n : Nat) :
    (s.dropEntry n).mastership = s.mastership := rfl
@[simp] theorem State.dropEntry_lapseInterval (n : Nat) :
    (s.dropEntry n).lapseInterval = s.lapseInterval := rfl
@[simp] theorem State.dropEntry_precedenceMap (n : Nat) :
    (s.dropEntry n).precedenceMap = s.precedenceMap := rfl
@[simp] theorem State.dropEntry_lines (n : Nat) : (s.dropEntry n).lines = s.lines := rfl
@[simp] theorem State.dropEntry_stations (n : Nat) : (s.dropEntry n).stations = s.stations := rfl
@[simp] theorem State.dropEntry_answerWindow (n : Nat) :
    (s.dropEntry n).answerWindow = s.answerWindow := rfl
@[simp] theorem State.dropEntry_holdOffTime (n : Nat) :
    (s.dropEntry n).holdOffTime = s.holdOffTime := rfl
@[simp] theorem State.dropEntry_lockoutCount (n : Nat) :
    (s.dropEntry n).lockoutCount = s.lockoutCount := rfl
@[simp] theorem State.dropEntry_challengeSequence (n : Nat) :
    (s.dropEntry n).challengeSequence = s.challengeSequence := rfl
@[simp] theorem State.dropEntry_connections (n : Nat) :
    (s.dropEntry n).connections = s.connections := rfl
@[simp] theorem State.dropEntry_frameCounter (n : Nat) :
    (s.dropEntry n).frameCounter = s.frameCounter := rfl
@[simp] theorem State.dropEntry_muteCode (n : Nat) : (s.dropEntry n).muteCode = s.muteCode := rfl
@[simp] theorem State.dropEntry_received (n : Nat) : (s.dropEntry n).received = s.received := rfl
@[simp] theorem State.dropEntry_outgoing (n : Nat) : (s.dropEntry n).outgoing = s.outgoing := rfl
@[simp] theorem State.dropEntry_slots (n : Nat) : (s.dropEntry n).slots = s.slots := rfl
@[simp] theorem State.dropEntry_groups (n : Nat) : (s.dropEntry n).groups = s.groups := rfl
@[simp] theorem State.dropEntry_keys (n : Nat) : (s.dropEntry n).keys = s.keys := rfl
@[simp] theorem State.dropEntry_legs (n : Nat) : (s.dropEntry n).legs = s.legs := rfl
@[simp] theorem State.dropEntry_watches (n : Nat) : (s.dropEntry n).watches = s.watches := rfl
@[simp] theorem State.dropEntry_restart (n : Nat) : (s.dropEntry n).restart = s.restart := rfl
@[simp] theorem State.dropEntry_restartSince (n : Nat) :
    (s.dropEntry n).restartSince = s.restartSince := rfl
@[simp] theorem State.dropEntry_resetPin (n : Nat) : (s.dropEntry n).resetPin = s.resetPin := rfl
@[simp] theorem State.dropEntry_clock (n : Nat) : (s.dropEntry n).clock = s.clock := rfl
@[simp] theorem State.dropEntry_freeIndex (n : Nat) : (s.dropEntry n).freeIndex = s.freeIndex := rfl
@[simp] theorem State.dropEntry_pending (n : Nat) : (s.dropEntry n).pending = s.pending := rfl
@[simp] theorem State.holdMastership_portA (x : Controller) :
    (s.holdMastership x).portA = s.portA := rfl
@[simp] theorem State.holdMastership_portB (x : Controller) :
    (s.holdMastership x).portB = s.portB := rfl
@[simp] theorem State.holdMastership_portM (x : Controller) :
    (s.holdMastership x).portM = s.portM := rfl
@[simp] theorem State.holdMastership_lastServed (x : Controller) :
    (s.holdMastership x).lastServed = s.lastServed := rfl
@[simp] theorem State.holdMastership_lapseInterval (x : Controller) :
    (s.holdMastership x).lapseInterval = s.lapseInterval := rfl
@[simp] theorem State.holdMastership_directory (x : Controller) :
    (s.holdMastership x).directory = s.directory := rfl
@[simp] theorem State.holdMastership_precedenceMap (x : Controller) :
    (s.holdMastership x).precedenceMap = s.precedenceMap := rfl
@[simp] theorem State.holdMastership_lines (x : Controller) :
    (s.holdMastership x).lines = s.lines := rfl
@[simp] theorem State.holdMastership_stations (x : Controller) :
    (s.holdMastership x).stations = s.stations := rfl
@[simp] theorem State.holdMastership_answerWindow (x : Controller) :
    (s.holdMastership x).answerWindow = s.answerWindow := rfl
@[simp] theorem State.holdMastership_holdOffTime (x : Controller) :
    (s.holdMastership x).holdOffTime = s.holdOffTime := rfl
@[simp] theorem State.holdMastership_lockoutCount (x : Controller) :
    (s.holdMastership x).lockoutCount = s.lockoutCount := rfl
@[simp] theorem State.holdMastership_challengeSequence (x : Controller) :
    (s.holdMastership x).challengeSequence = s.challengeSequence := rfl
@[simp] theorem State.holdMastership_connections (x : Controller) :
    (s.holdMastership x).connections = s.connections := rfl
@[simp] theorem State.holdMastership_frameCounter (x : Controller) :
    (s.holdMastership x).frameCounter = s.frameCounter := rfl
@[simp] theorem State.holdMastership_muteCode (x : Controller) :
    (s.holdMastership x).muteCode = s.muteCode := rfl
@[simp] theorem State.holdMastership_received (x : Controller) :
    (s.holdMastership x).received = s.received := rfl
@[simp] theorem State.holdMastership_outgoing (x : Controller) :
    (s.holdMastership x).outgoing = s.outgoing := rfl
@[simp] theorem State.holdMastership_slots (x : Controller) :
    (s.holdMastership x).slots = s.slots := rfl
@[simp] theorem State.holdMastership_groups (x : Controller) :
    (s.holdMastership x).groups = s.groups := rfl
@[simp] theorem State.holdMastership_keys (x : Controller) :
    (s.holdMastership x).keys = s.keys := rfl
@[simp] theorem State.holdMastership_legs (x : Controller) :
    (s.holdMastership x).legs = s.legs := rfl
@[simp] theorem State.holdMastership_watches (x : Controller) :
    (s.holdMastership x).watches = s.watches := rfl
@[simp] theorem State.holdMastership_restart (x : Controller) :
    (s.holdMastership x).restart = s.restart := rfl
@[simp] theorem State.holdMastership_restartSince (x : Controller) :
    (s.holdMastership x).restartSince = s.restartSince := rfl
@[simp] theorem State.holdMastership_resetPin (x : Controller) :
    (s.holdMastership x).resetPin = s.resetPin := rfl
@[simp] theorem State.holdMastership_clock (x : Controller) :
    (s.holdMastership x).clock = s.clock := rfl
@[simp] theorem State.holdMastership_freeIndex (x : Controller) :
    (s.holdMastership x).freeIndex = s.freeIndex := rfl
@[simp] theorem State.holdMastership_pending (x : Controller) :
    (s.holdMastership x).pending = s.pending := rfl
@[simp] theorem State.drawn_portA (n : Nat) : (s.drawn n).portA = s.portA := rfl
@[simp] theorem State.drawn_portB (n : Nat) : (s.drawn n).portB = s.portB := rfl
@[simp] theorem State.drawn_portM (n : Nat) : (s.drawn n).portM = s.portM := rfl
@[simp] theorem State.drawn_lastServed (n : Nat) : (s.drawn n).lastServed = s.lastServed := rfl
@[simp] theorem State.drawn_mastership (n : Nat) : (s.drawn n).mastership = s.mastership := rfl
@[simp] theorem State.drawn_lapseInterval (n : Nat) :
    (s.drawn n).lapseInterval = s.lapseInterval := rfl
@[simp] theorem State.drawn_directory (n : Nat) : (s.drawn n).directory = s.directory := rfl
@[simp] theorem State.drawn_precedenceMap (n : Nat) :
    (s.drawn n).precedenceMap = s.precedenceMap := rfl
@[simp] theorem State.drawn_lines (n : Nat) : (s.drawn n).lines = s.lines := rfl
@[simp] theorem State.drawn_stations (n : Nat) : (s.drawn n).stations = s.stations := rfl
@[simp] theorem State.drawn_answerWindow (n : Nat) :
    (s.drawn n).answerWindow = s.answerWindow := rfl
@[simp] theorem State.drawn_holdOffTime (n : Nat) : (s.drawn n).holdOffTime = s.holdOffTime := rfl
@[simp] theorem State.drawn_lockoutCount (n : Nat) :
    (s.drawn n).lockoutCount = s.lockoutCount := rfl
@[simp] theorem State.drawn_challengeSequence (n : Nat) :
    (s.drawn n).challengeSequence = s.challengeSequence := rfl
@[simp] theorem State.drawn_connections (n : Nat) : (s.drawn n).connections = s.connections := rfl
@[simp] theorem State.drawn_frameCounter (n : Nat) :
    (s.drawn n).frameCounter = s.frameCounter := rfl
@[simp] theorem State.drawn_muteCode (n : Nat) : (s.drawn n).muteCode = s.muteCode := rfl
@[simp] theorem State.drawn_received (n : Nat) : (s.drawn n).received = s.received := rfl
@[simp] theorem State.drawn_outgoing (n : Nat) : (s.drawn n).outgoing = s.outgoing := rfl
@[simp] theorem State.drawn_slots (n : Nat) : (s.drawn n).slots = s.slots := rfl
@[simp] theorem State.drawn_groups (n : Nat) : (s.drawn n).groups = s.groups := rfl
@[simp] theorem State.drawn_keys (n : Nat) : (s.drawn n).keys = s.keys := rfl
@[simp] theorem State.drawn_legs (n : Nat) : (s.drawn n).legs = s.legs := rfl
@[simp] theorem State.drawn_watches (n : Nat) : (s.drawn n).watches = s.watches := rfl
@[simp] theorem State.drawn_restart (n : Nat) : (s.drawn n).restart = s.restart := rfl
@[simp] theorem State.drawn_restartSince (n : Nat) :
    (s.drawn n).restartSince = s.restartSince := rfl
@[simp] theorem State.drawn_resetPin (n : Nat) : (s.drawn n).resetPin = s.resetPin := rfl
@[simp] theorem State.drawn_clock (n : Nat) : (s.drawn n).clock = s.clock := rfl
@[simp] theorem State.drawn_pending (n : Nat) : (s.drawn n).pending = s.pending := rfl

end fields

/-! ### The records of the other blocks -/

section records

variable (s : State)

@[simp] theorem State.setPort_line (p : Port) (v : PortState) (m : Nat) :
    (s.setPort p v).line m = s.line m := by cases p <;> rfl
@[simp] theorem State.setPort_station (p : Port) (v : PortState) (m : Nat) :
    (s.setPort p v).station m = s.station m := by cases p <;> rfl
@[simp] theorem State.setPort_slot (p : Port) (v : PortState) (m : Nat) :
    (s.setPort p v).slot m = s.slot m := by cases p <;> rfl
@[simp] theorem State.setPort_group (p : Port) (v : PortState) (m : Nat) :
    (s.setPort p v).group m = s.group m := by cases p <;> rfl
@[simp] theorem State.setPort_key (p : Port) (v : PortState) (m : Nat) :
    (s.setPort p v).key m = s.key m := by cases p <;> rfl
@[simp] theorem State.setPort_leg (p : Port) (v : PortState) (m : Nat) :
    (s.setPort p v).leg m = s.leg m := by cases p <;> rfl
@[simp] theorem State.setPort_watch (p : Port) (v : PortState) (m : Nat) :
    (s.setPort p v).watch m = s.watch m := by cases p <;> rfl
@[simp] theorem State.setLine_port (n : Nat) (v : LinePort) (q : Port) :
    (s.setLine n v).port q = s.port q := by cases q <;> rfl
@[simp] theorem State.setLine_station (n : Nat) (v : LinePort) (m : Nat) :
    (s.setLine n v).station m = s.station m := rfl
@[simp] theorem State.setLine_slot (n : Nat) (v : LinePort) (m : Nat) :
    (s.setLine n v).slot m = s.slot m := rfl
@[simp] theorem State.setLine_group (n : Nat) (v : LinePort) (m : Nat) :
    (s.setLine n v).group m = s.group m := rfl
@[simp] theorem State.setLine_key (n : Nat) (v : LinePort) (m : Nat) :
    (s.setLine n v).key m = s.key m := rfl
@[simp] theorem State.setLine_leg (n : Nat) (v : LinePort) (m : Nat) :
    (s.setLine n v).leg m = s.leg m := rfl
@[simp] theorem State.setLine_watch (n : Nat) (v : LinePort) (m : Nat) :
    (s.setLine n v).watch m = s.watch m := rfl
@[simp] theorem State.setStation_port (n : Nat) (v : Station) (q : Port) :
    (s.setStation n v).port q = s.port q := by cases q <;> rfl
@[simp] theorem State.setStation_line (n : Nat) (v : Station) (m : Nat) :
    (s.setStation n v).line m = s.line m := rfl
@[simp] theorem State.setStation_slot (n : Nat) (v : Station) (m : Nat) :
    (s.setStation n v).slot m = s.slot m := rfl
@[simp] theorem State.setStation_group (n : Nat) (v : Station) (m : Nat) :
    (s.setStation n v).group m = s.group m := rfl
@[simp] theorem State.setStation_key (n : Nat) (v : Station) (m : Nat) :
    (s.setStation n v).key m = s.key m := rfl
@[simp] theorem State.setStation_leg (n : Nat) (v : Station) (m : Nat) :
    (s.setStation n v).leg m = s.leg m := rfl
@[simp] theorem State.setStation_watch (n : Nat) (v : Station) (m : Nat) :
    (s.setStation n v).watch m = s.watch m := rfl
@[simp] theorem State.setSlot_port (n : Nat) (v : TrunkSlot) (q : Port) :
    (s.setSlot n v).port q = s.port q := by cases q <;> rfl
@[simp] theorem State.setSlot_line (n : Nat) (v : TrunkSlot) (m : Nat) :
    (s.setSlot n v).line m = s.line m := rfl
@[simp] theorem State.setSlot_station (n : Nat) (v : TrunkSlot) (m : Nat) :
    (s.setSlot n v).station m = s.station m := rfl
@[simp] theorem State.setSlot_group (n : Nat) (v : TrunkSlot) (m : Nat) :
    (s.setSlot n v).group m = s.group m := rfl
@[simp] theorem State.setSlot_key (n : Nat) (v : TrunkSlot) (m : Nat) :
    (s.setSlot n v).key m = s.key m := rfl
@[simp] theorem State.setSlot_leg (n : Nat) (v : TrunkSlot) (m : Nat) :
    (s.setSlot n v).leg m = s.leg m := rfl
@[simp] theorem State.setSlot_watch (n : Nat) (v : TrunkSlot) (m : Nat) :
    (s.setSlot n v).watch m = s.watch m := rfl
@[simp] theorem State.setGroup_port (n : Nat) (v : Group) (q : Port) :
    (s.setGroup n v).port q = s.port q := by cases q <;> rfl
@[simp] theorem State.setGroup_line (n : Nat) (v : Group) (m : Nat) :
    (s.setGroup n v).line m = s.line m := rfl
@[simp] theorem State.setGroup_station (n : Nat) (v : Group) (m : Nat) :
    (s.setGroup n v).station m = s.station m := rfl
@[simp] theorem State.setGroup_slot (n : Nat) (v : Group) (m : Nat) :
    (s.setGroup n v).slot m = s.slot m := rfl
@[simp] theorem State.setGroup_key (n : Nat) (v : Group) (m : Nat) :
    (s.setGroup n v).key m = s.key m := rfl
@[simp] theorem State.setGroup_leg (n : Nat) (v : Group) (m : Nat) :
    (s.setGroup n v).leg m = s.leg m := rfl
@[simp] theorem State.setGroup_watch (n : Nat) (v : Group) (m : Nat) :
    (s.setGroup n v).watch m = s.watch m := rfl
@[simp] theorem State.setKey_port (n : Nat) (v : KeyContext) (q : Port) :
    (s.setKey n v).port q = s.port q := by cases q <;> rfl
@[simp] theorem State.setKey_line (n : Nat) (v : KeyContext) (m : Nat) :
    (s.setKey n v).line m = s.line m := rfl
@[simp] theorem State.setKey_station (n : Nat) (v : KeyContext) (m : Nat) :
    (s.setKey n v).station m = s.station m := rfl
@[simp] theorem State.setKey_slot (n : Nat) (v : KeyContext) (m : Nat) :
    (s.setKey n v).slot m = s.slot m := rfl
@[simp] theorem State.setKey_group (n : Nat) (v : KeyContext) (m : Nat) :
    (s.setKey n v).group m = s.group m := rfl
@[simp] theorem State.setKey_leg (n : Nat) (v : KeyContext) (m : Nat) :
    (s.setKey n v).leg m = s.leg m := rfl
@[simp] theorem State.setKey_watch (n : Nat) (v : KeyContext) (m : Nat) :
    (s.setKey n v).watch m = s.watch m := rfl
@[simp] theorem State.setLeg_port (n : Nat) (v : Option Leg) (q : Port) :
    (s.setLeg n v).port q = s.port q := by cases q <;> rfl
@[simp] theorem State.setLeg_line (n : Nat) (v : Option Leg) (m : Nat) :
    (s.setLeg n v).line m = s.line m := rfl
@[simp] theorem State.setLeg_station (n : Nat) (v : Option Leg) (m : Nat) :
    (s.setLeg n v).station m = s.station m := rfl
@[simp] theorem State.setLeg_slot (n : Nat) (v : Option Leg) (m : Nat) :
    (s.setLeg n v).slot m = s.slot m := rfl
@[simp] theorem State.setLeg_group (n : Nat) (v : Option Leg) (m : Nat) :
    (s.setLeg n v).group m = s.group m := rfl
@[simp] theorem State.setLeg_key (n : Nat) (v : Option Leg) (m : Nat) :
    (s.setLeg n v).key m = s.key m := rfl
@[simp] theorem State.setLeg_watch (n : Nat) (v : Option Leg) (m : Nat) :
    (s.setLeg n v).watch m = s.watch m := rfl
@[simp] theorem State.setWatch_port (n : Nat) (v : Watch) (q : Port) :
    (s.setWatch n v).port q = s.port q := by cases q <;> rfl
@[simp] theorem State.setWatch_line (n : Nat) (v : Watch) (m : Nat) :
    (s.setWatch n v).line m = s.line m := rfl
@[simp] theorem State.setWatch_station (n : Nat) (v : Watch) (m : Nat) :
    (s.setWatch n v).station m = s.station m := rfl
@[simp] theorem State.setWatch_slot (n : Nat) (v : Watch) (m : Nat) :
    (s.setWatch n v).slot m = s.slot m := rfl
@[simp] theorem State.setWatch_group (n : Nat) (v : Watch) (m : Nat) :
    (s.setWatch n v).group m = s.group m := rfl
@[simp] theorem State.setWatch_key (n : Nat) (v : Watch) (m : Nat) :
    (s.setWatch n v).key m = s.key m := rfl
@[simp] theorem State.setWatch_leg (n : Nat) (v : Watch) (m : Nat) :
    (s.setWatch n v).leg m = s.leg m := rfl
@[simp] theorem State.setOutgoing_port (n : Nat) (v : Byte) (q : Port) :
    (s.setOutgoing n v).port q = s.port q := by cases q <;> rfl
@[simp] theorem State.setOutgoing_line (n : Nat) (v : Byte) (m : Nat) :
    (s.setOutgoing n v).line m = s.line m := rfl
@[simp] theorem State.setOutgoing_station (n : Nat) (v : Byte) (m : Nat) :
    (s.setOutgoing n v).station m = s.station m := rfl
@[simp] theorem State.setOutgoing_slot (n : Nat) (v : Byte) (m : Nat) :
    (s.setOutgoing n v).slot m = s.slot m := rfl
@[simp] theorem State.setOutgoing_group (n : Nat) (v : Byte) (m : Nat) :
    (s.setOutgoing n v).group m = s.group m := rfl
@[simp] theorem State.setOutgoing_key (n : Nat) (v : Byte) (m : Nat) :
    (s.setOutgoing n v).key m = s.key m := rfl
@[simp] theorem State.setOutgoing_leg (n : Nat) (v : Byte) (m : Nat) :
    (s.setOutgoing n v).leg m = s.leg m := rfl
@[simp] theorem State.setOutgoing_watch (n : Nat) (v : Byte) (m : Nat) :
    (s.setOutgoing n v).watch m = s.watch m := rfl
@[simp] theorem State.mapConnection_port (n : Nat) (f : Connection → Connection) (q : Port) :
    (s.mapConnection n f).port q = s.port q := by cases q <;> rfl
@[simp] theorem State.mapConnection_line (n : Nat) (f : Connection → Connection) (m : Nat) :
    (s.mapConnection n f).line m = s.line m := rfl
@[simp] theorem State.mapConnection_station (n : Nat) (f : Connection → Connection) (m : Nat) :
    (s.mapConnection n f).station m = s.station m := rfl
@[simp] theorem State.mapConnection_slot (n : Nat) (f : Connection → Connection) (m : Nat) :
    (s.mapConnection n f).slot m = s.slot m := rfl
@[simp] theorem State.mapConnection_group (n : Nat) (f : Connection → Connection) (m : Nat) :
    (s.mapConnection n f).group m = s.group m := rfl
@[simp] theorem State.mapConnection_key (n : Nat) (f : Connection → Connection) (m : Nat) :
    (s.mapConnection n f).key m = s.key m := rfl
@[simp] theorem State.mapConnection_leg (n : Nat) (f : Connection → Connection) (m : Nat) :
    (s.mapConnection n f).leg m = s.leg m := rfl
@[simp] theorem State.mapConnection_watch (n : Nat) (f : Connection → Connection) (m : Nat) :
    (s.mapConnection n f).watch m = s.watch m := rfl
@[simp] theorem State.dropConnection_port (n : Nat) (q : Port) :
    (s.dropConnection n).port q = s.port q := by cases q <;> rfl
@[simp] theorem State.dropConnection_line (n : Nat) (m : Nat) :
    (s.dropConnection n).line m = s.line m := rfl
@[simp] theorem State.dropConnection_station (n : Nat) (m : Nat) :
    (s.dropConnection n).station m = s.station m := rfl
@[simp] theorem State.dropConnection_slot (n : Nat) (m : Nat) :
    (s.dropConnection n).slot m = s.slot m := rfl
@[simp] theorem State.dropConnection_group (n : Nat) (m : Nat) :
    (s.dropConnection n).group m = s.group m := rfl
@[simp] theorem State.dropConnection_key (n : Nat) (m : Nat) :
    (s.dropConnection n).key m = s.key m := rfl
@[simp] theorem State.dropConnection_leg (n : Nat) (m : Nat) :
    (s.dropConnection n).leg m = s.leg m := rfl
@[simp] theorem State.dropConnection_watch (n : Nat) (m : Nat) :
    (s.dropConnection n).watch m = s.watch m := rfl
@[simp] theorem State.mapEntry_port (n : Nat) (f : DirectoryEntry → DirectoryEntry) (q : Port) :
    (s.mapEntry n f).port q = s.port q := by cases q <;> rfl
@[simp] theorem State.mapEntry_line (n : Nat) (f : DirectoryEntry → DirectoryEntry) (m : Nat) :
    (s.mapEntry n f).line m = s.line m := rfl
@[simp] theorem State.mapEntry_station (n : Nat) (f : DirectoryEntry → DirectoryEntry) (m : Nat) :
    (s.mapEntry n f).station m = s.station m := rfl
@[simp] theorem State.mapEntry_slot (n : Nat) (f : DirectoryEntry → DirectoryEntry) (m : Nat) :
    (s.mapEntry n f).slot m = s.slot m := rfl
@[simp] theorem State.mapEntry_group (n : Nat) (f : DirectoryEntry → DirectoryEntry) (m : Nat) :
    (s.mapEntry n f).group m = s.group m := rfl
@[simp] theorem State.mapEntry_key (n : Nat) (f : DirectoryEntry → DirectoryEntry) (m : Nat) :
    (s.mapEntry n f).key m = s.key m := rfl
@[simp] theorem State.mapEntry_leg (n : Nat) (f : DirectoryEntry → DirectoryEntry) (m : Nat) :
    (s.mapEntry n f).leg m = s.leg m := rfl
@[simp] theorem State.mapEntry_watch (n : Nat) (f : DirectoryEntry → DirectoryEntry) (m : Nat) :
    (s.mapEntry n f).watch m = s.watch m := rfl
@[simp] theorem State.dropEntry_port (n : Nat) (q : Port) :
    (s.dropEntry n).port q = s.port q := by cases q <;> rfl
@[simp] theorem State.dropEntry_line (n : Nat) (m : Nat) :
    (s.dropEntry n).line m = s.line m := rfl
@[simp] theorem State.dropEntry_station (n : Nat) (m : Nat) :
    (s.dropEntry n).station m = s.station m := rfl
@[simp] theorem State.dropEntry_slot (n : Nat) (m : Nat) :
    (s.dropEntry n).slot m = s.slot m := rfl
@[simp] theorem State.dropEntry_group (n : Nat) (m : Nat) :
    (s.dropEntry n).group m = s.group m := rfl
@[simp] theorem State.dropEntry_key (n : Nat) (m : Nat) :
    (s.dropEntry n).key m = s.key m := rfl
@[simp] theorem State.dropEntry_leg (n : Nat) (m : Nat) :
    (s.dropEntry n).leg m = s.leg m := rfl
@[simp] theorem State.dropEntry_watch (n : Nat) (m : Nat) :
    (s.dropEntry n).watch m = s.watch m := rfl
@[simp] theorem State.holdMastership_port (x : Controller) (q : Port) :
    (s.holdMastership x).port q = s.port q := by cases q <;> rfl
@[simp] theorem State.holdMastership_line (x : Controller) (m : Nat) :
    (s.holdMastership x).line m = s.line m := rfl
@[simp] theorem State.holdMastership_station (x : Controller) (m : Nat) :
    (s.holdMastership x).station m = s.station m := rfl
@[simp] theorem State.holdMastership_slot (x : Controller) (m : Nat) :
    (s.holdMastership x).slot m = s.slot m := rfl
@[simp] theorem State.holdMastership_group (x : Controller) (m : Nat) :
    (s.holdMastership x).group m = s.group m := rfl
@[simp] theorem State.holdMastership_key (x : Controller) (m : Nat) :
    (s.holdMastership x).key m = s.key m := rfl
@[simp] theorem State.holdMastership_leg (x : Controller) (m : Nat) :
    (s.holdMastership x).leg m = s.leg m := rfl
@[simp] theorem State.holdMastership_watch (x : Controller) (m : Nat) :
    (s.holdMastership x).watch m = s.watch m := rfl
@[simp] theorem State.drawn_port (n : Nat) (q : Port) :
    (s.drawn n).port q = s.port q := by cases q <;> rfl
@[simp] theorem State.drawn_line (n : Nat) (m : Nat) :
    (s.drawn n).line m = s.line m := rfl
@[simp] theorem State.drawn_station (n : Nat) (m : Nat) :
    (s.drawn n).station m = s.station m := rfl
@[simp] theorem State.drawn_slot (n : Nat) (m : Nat) :
    (s.drawn n).slot m = s.slot m := rfl
@[simp] theorem State.drawn_group (n : Nat) (m : Nat) :
    (s.drawn n).group m = s.group m := rfl
@[simp] theorem State.drawn_key (n : Nat) (m : Nat) :
    (s.drawn n).key m = s.key m := rfl
@[simp] theorem State.drawn_leg (n : Nat) (m : Nat) :
    (s.drawn n).leg m = s.leg m := rfl
@[simp] theorem State.drawn_watch (n : Nat) (m : Nat) :
    (s.drawn n).watch m = s.watch m := rfl

end records

/-! ### The record itself, read back -/

section readBack

variable (s : State)

@[simp] theorem State.port_setPort_same (p : Port) (v : PortState) :
    (s.setPort p v).port p = v := by
  cases p <;> rfl

theorem State.port_setPort (p q : Port) (v : PortState) :
    (s.setPort p v).port q = if q = p then v else s.port q := by
  cases p <;> cases q <;> rfl

theorem State.port_setPort_ne {p q : Port} (h : q ≠ p) (v : PortState) :
    (s.setPort p v).port q = s.port q := by simp [State.port_setPort, h]

@[simp] theorem State.setPort_setPort (p : Port) (v w : PortState) :
    (s.setPort p v).setPort p w = s.setPort p w := by cases p <;> rfl

@[simp] theorem State.setPort_port (p : Port) : s.setPort p (s.port p) = s := by cases p <;> rfl

theorem State.line_setLine (n m : Nat) (v : LinePort) :
    (s.setLine n v).line m = if m = n ∧ n < 48 then v else s.line m := by
  unfold State.line State.setLine
  by_cases h : m = n
  · subst h
    by_cases hn : m < 48 <;> simp [hn]
  · simp [h, Ne.symm h]

theorem State.line_setLine_same {n : Nat} (h : n < 48) (v : LinePort) :
    (s.setLine n v).line n = v := by simp [State.line_setLine, h]

theorem State.line_setLine_ne {n m : Nat} (h : m ≠ n) (v : LinePort) :
    (s.setLine n v).line m = s.line m := by simp [State.line_setLine, h]

theorem State.station_setStation (n m : Nat) (v : Station) :
    (s.setStation n v).station m = if m = n ∧ n < 96 then v else s.station m := by
  unfold State.station State.setStation
  by_cases h : m = n
  · subst h
    by_cases hn : m < 96 <;> simp [hn]
  · simp [h, Ne.symm h]

theorem State.station_setStation_same {n : Nat} (h : n < 96) (v : Station) :
    (s.setStation n v).station n = v := by simp [State.station_setStation, h]

theorem State.station_setStation_ne {n m : Nat} (h : m ≠ n) (v : Station) :
    (s.setStation n v).station m = s.station m := by simp [State.station_setStation, h]

theorem State.slot_setSlot (n m : Nat) (v : TrunkSlot) :
    (s.setSlot n v).slot m = if m = n ∧ n < 64 then v else s.slot m := by
  unfold State.slot State.setSlot
  by_cases h : m = n
  · subst h
    by_cases hn : m < 64 <;> simp [hn]
  · simp [h, Ne.symm h]

theorem State.slot_setSlot_same {n : Nat} (h : n < 64) (v : TrunkSlot) :
    (s.setSlot n v).slot n = v := by simp [State.slot_setSlot, h]

theorem State.slot_setSlot_ne {n m : Nat} (h : m ≠ n) (v : TrunkSlot) :
    (s.setSlot n v).slot m = s.slot m := by simp [State.slot_setSlot, h]

theorem State.group_setGroup (n m : Nat) (v : Group) :
    (s.setGroup n v).group m = if m = n ∧ n < 8 then v else s.group m := by
  unfold State.group State.setGroup
  by_cases h : m = n
  · subst h
    by_cases hn : m < 8 <;> simp [hn]
  · simp [h, Ne.symm h]

theorem State.group_setGroup_same {n : Nat} (h : n < 8) (v : Group) :
    (s.setGroup n v).group n = v := by simp [State.group_setGroup, h]

theorem State.group_setGroup_ne {n m : Nat} (h : m ≠ n) (v : Group) :
    (s.setGroup n v).group m = s.group m := by simp [State.group_setGroup, h]

theorem State.key_setKey (n m : Nat) (v : KeyContext) :
    (s.setKey n v).key m = if m = n ∧ n < 32 then v else s.key m := by
  unfold State.key State.setKey
  by_cases h : m = n
  · subst h
    by_cases hn : m < 32 <;> simp [hn]
  · simp [h, Ne.symm h]

theorem State.key_setKey_same {n : Nat} (h : n < 32) (v : KeyContext) :
    (s.setKey n v).key n = v := by simp [State.key_setKey, h]

theorem State.key_setKey_ne {n m : Nat} (h : m ≠ n) (v : KeyContext) :
    (s.setKey n v).key m = s.key m := by simp [State.key_setKey, h]

theorem State.leg_setLeg (n m : Nat) (v : Option Leg) :
    (s.setLeg n v).leg m = if m = n ∧ n < 64 then v else s.leg m := by
  unfold State.leg State.setLeg
  by_cases h : m = n
  · subst h
    by_cases hn : m < 64 <;> simp [hn]
  · simp [h, Ne.symm h]

theorem State.leg_setLeg_same {n : Nat} (h : n < 64) (v : Option Leg) :
    (s.setLeg n v).leg n = v := by simp [State.leg_setLeg, h]

theorem State.leg_setLeg_ne {n m : Nat} (h : m ≠ n) (v : Option Leg) :
    (s.setLeg n v).leg m = s.leg m := by simp [State.leg_setLeg, h]

theorem State.watch_setWatch (n m : Nat) (v : Watch) :
    (s.setWatch n v).watch m = if m = n ∧ n < 4 then v else s.watch m := by
  unfold State.watch State.setWatch
  by_cases h : m = n
  · subst h
    by_cases hn : m < 4 <;> simp [hn]
  · simp [h, Ne.symm h]

theorem State.watch_setWatch_same {n : Nat} (h : n < 4) (v : Watch) :
    (s.setWatch n v).watch n = v := by simp [State.watch_setWatch, h]

theorem State.watch_setWatch_ne {n m : Nat} (h : m ≠ n) (v : Watch) :
    (s.setWatch n v).watch m = s.watch m := by simp [State.watch_setWatch, h]

end readBack

end Sys2Proof.Machine
end

