-- ==== Sys2Proof/Laws/Posts.lean ====
section
/-! SUPPORT. What appending an entry and posting events can do: nothing but to the out queues, the
missed-events flags and what transfers in progress have learnt. -/

namespace Sys2Proof.Machine

/-! ### The relations "differs at most in posts" are preorders -/

theorem SamePortButPosts.refl (p : PortState) : SamePortButPosts p p := rfl

theorem SamePortButPosts.trans {p q r : PortState} (h : SamePortButPosts p q)
    (h' : SamePortButPosts q r) : SamePortButPosts p r := by
  unfold SamePortButPosts at *
  rw [h', h]

theorem SamePortsButPosts.refl (s : State) : SamePortsButPosts s s := fun _ => rfl

theorem SamePortsButPosts.trans {s t u : State} (h : SamePortsButPosts s t)
    (h' : SamePortsButPosts t u) : SamePortsButPosts s u := fun p => (h p).trans (h' p)

/-! ### States that differ in their ports alone -/

/-- t is s with other ports. -/
def OnlyPorts (s t : State) : Prop :=
  t = { s with portA := t.portA, portB := t.portB, portM := t.portM }

theorem OnlyPorts.refl (s : State) : OnlyPorts s s := rfl

theorem OnlyPorts.trans {s t u : State} (h : OnlyPorts s t) (h' : OnlyPorts t u) : OnlyPorts s u := by
  unfold OnlyPorts at *
  rw [h', h]

theorem State.setPort_onlyPorts (s : State) (p : Port) (v : PortState) :
    OnlyPorts s (s.setPort p v) := by cases p <;> rfl

/-! ### Posting -/

theorem State.append_onlyPorts (s : State) (p : Port) (e : Entry) : OnlyPorts s (s.append p e) :=
  s.setPort_onlyPorts p _

theorem State.loseEvent_onlyPorts (s : State) (p : Port) : OnlyPorts s (s.loseEvent p) :=
  s.setPort_onlyPorts p _

theorem State.postTo_onlyPorts (s : State) (e : Event) (p : Port) : OnlyPorts s (s.postTo e p) := by
  unfold State.postTo
  split
  · exact s.loseEvent_onlyPorts p
  · exact s.append_onlyPorts p _

theorem State.post_onlyPorts (s : State) (e : Event) : OnlyPorts s (s.post e) := by
  unfold State.post
  generalize destinations e = ps
  induction ps generalizing s with
  | nil => exact OnlyPorts.refl s
  | cons p ps ih => exact (s.postTo_onlyPorts e p).trans (ih _)

theorem State.postAll_onlyPorts (s : State) (es : List Event) : OnlyPorts s (s.postAll es) := by
  unfold State.postAll
  induction es generalizing s with
  | nil => exact OnlyPorts.refl s
  | cons e es ih => exact (s.post_onlyPorts e).trans (ih _)

@[simp] theorem State.postAll_nil (s : State) : s.postAll [] = s := rfl

theorem State.postAll_append (s : State) (es fs : List Event) :
    s.postAll (es ++ fs) = (s.postAll es).postAll fs := by
  simp [State.postAll]

theorem State.append_port_same (s : State) (p : Port) (e : Entry) :
    (s.append p e).port p = { s.port p with out := (s.port p).out ++ [e] } := by
  simp [State.append]

theorem State.append_port_ne (s : State) {p q : Port} (h : q ≠ p) (e : Entry) :
    (s.append p e).port q = s.port q := by
  simp [State.append, State.port_setPort, h]

/-- What posting an event to one port does to every port. -/
theorem State.postTo_port (s : State) (e : Event) (p q : Port) :
    (s.postTo e p).port q =
      if q = p then
        if s.restarting || decide (32 ≤ (s.port p).out.length) then
          { s.port p with
            missed := true
            transfer := (s.port p).transfer.map fun t => { t with lostSince := true } }
        else { s.port p with out := (s.port p).out ++ [.event e] }
      else s.port q := by
  unfold State.postTo Config.outQueueSize
  split <;> by_cases h : q = p <;> simp [State.loseEvent, State.append, State.port_setPort, h]

theorem State.postTo_samePorts (s : State) (e : Event) (p : Port) :
    SamePortsButPosts s (s.postTo e p) := by
  intro q
  rw [State.postTo_port]
  by_cases h : q = p
  · subst h
    simp only [if_true]
    split <;> rfl
  · simp only [h, if_false]
    rfl

theorem State.post_samePorts (s : State) (e : Event) : SamePortsButPosts s (s.post e) := by
  unfold State.post
  generalize destinations e = ps
  induction ps generalizing s with
  | nil => exact SamePortsButPosts.refl s
  | cons p ps ih => exact (s.postTo_samePorts e p).trans (ih _)

/-- All that posting events can do. -/
theorem State.postAll_samePorts (s : State) (es : List Event) :
    SamePortsButPosts s (s.postAll es) := by
  unfold State.postAll
  induction es generalizing s with
  | nil => exact SamePortsButPosts.refl s
  | cons e es ih => exact (s.post_samePorts e).trans (ih _)

/-! ### Every field that posting leaves -/

section fields

variable (s : State)

@[simp] theorem State.append_lastServed (p : Port) (e : Entry) :
    (s.append p e).lastServed = s.lastServed := by
  rw [State.append_onlyPorts s p e]
@[simp] theorem State.postAll_lastServed (es : List Event) :
    (s.postAll es).lastServed = s.lastServed := by
  rw [State.postAll_onlyPorts s es]
@[simp] theorem State.append_mastership (p : Port) (e : Entry) :
    (s.append p e).mastership = s.mastership := by
  rw [State.append_onlyPorts s p e]
@[simp] theorem State.postAll_mastership (es : List Event) :
    (s.postAll es).mastership = s.mastership := by
  rw [State.postAll_onlyPorts s es]
@[simp] theorem State.append_lapseInterval (p : Port) (e : Entry) :
    (s.append p e).lapseInterval = s.lapseInterval := by
  rw [State.append_onlyPorts s p e]
@[simp] theorem State.postAll_lapseInterval (es : List Event) :
    (s.postAll es).lapseInterval = s.lapseInterval := by
  rw [State.postAll_onlyPorts s es]
@[simp] theorem State.append_directory (p : Port) (e : Entry) :
    (s.append p e).directory = s.directory := by
  rw [State.append_onlyPorts s p e]
@[simp] theorem State.postAll_directory (es : List Event) :
    (s.postAll es).directory = s.directory := by
  rw [State.postAll_onlyPorts s es]
@[simp] theorem State.append_precedenceMap (p : Port) (e : Entry) :
    (s.append p e).precedenceMap = s.precedenceMap := by
  rw [State.append_onlyPorts s p e]
@[simp] theorem State.postAll_precedenceMap (es : List Event) :
    (s.postAll es).precedenceMap = s.precedenceMap := by
  rw [State.postAll_onlyPorts s es]
@[simp] theorem State.append_lines (p : Port) (e : Entry) : (s.append p e).lines = s.lines := by
  rw [State.append_onlyPorts s p e]
@[simp] theorem State.postAll_lines (es : List Event) : (s.postAll es).lines = s.lines := by
  rw [State.postAll_onlyPorts s es]
@[simp] theorem State.append_stations (p : Port) (e : Entry) :
    (s.append p e).stations = s.stations := by
  rw [State.append_onlyPorts s p e]
@[simp] theorem State.postAll_stations (es : List Event) :
    (s.postAll es).stations = s.stations := by
  rw [State.postAll_onlyPorts s es]
@[simp] theorem State.append_answerWindow (p : Port) (e : Entry) :
    (s.append p e).answerWindow = s.answerWindow := by
  rw [State.append_onlyPorts s p e]
@[simp] theorem State.postAll_answerWindow (es : List Event) :
    (s.postAll es).answerWindow = s.answerWindow := by
  rw [State.postAll_onlyPorts s es]
@[simp] theorem State.append_holdOffTime (p : Port) (e : Entry) :
    (s.append p e).holdOffTime = s.holdOffTime := by
  rw [State.append_onlyPorts s p e]
@[simp] theorem State.postAll_holdOffTime (es : List Event) :
    (s.postAll es).holdOffTime = s.holdOffTime := by
  rw [State.postAll_onlyPorts s es]
@[simp] theorem State.append_lockoutCount (p : Port) (e : Entry) :
    (s.append p e).lockoutCount = s.lockoutCount := by
  rw [State.append_onlyPorts s p e]
@[simp] theorem State.postAll_lockoutCount (es : List Event) :
    (s.postAll es).lockoutCount = s.lockoutCount := by
  rw [State.postAll_onlyPorts s es]
@[simp] theorem State.append_challengeSequence (p : Port) (e : Entry) :
    (s.append p e).challengeSequence = s.challengeSequence := by
  rw [State.append_onlyPorts s p e]
@[simp] theorem State.postAll_challengeSequence (es : List Event) :
    (s.postAll es).challengeSequence = s.challengeSequence := by
  rw [State.postAll_onlyPorts s es]
@[simp] theorem State.append_connections (p : Port) (e : Entry) :
    (s.append p e).connections = s.connections := by
  rw [State.append_onlyPorts s p e]
@[simp] theorem State.postAll_connections (es : List Event) :
    (s.postAll es).connections = s.connections := by
  rw [State.postAll_onlyPorts s es]
@[simp] theorem State.append_frameCounter (p : Port) (e : Entry) :
    (s.append p e).frameCounter = s.frameCounter := by
  rw [State.append_onlyPorts s p e]
@[simp] theorem State.postAll_frameCounter (es : List Event) :
    (s.postAll es).frameCounter = s.frameCounter := by
  rw [State.postAll_onlyPorts s es]
@[simp] theorem State.append_muteCode (p : Port) (e : Entry) :
    (s.append p e).muteCode = s.muteCode := by
  rw [State.append_onlyPorts s p e]
@[simp] theorem State.postAll_muteCode (es : List Event) :
    (s.postAll es).muteCode = s.muteCode := by
  rw [State.postAll_onlyPorts s es]
@[simp] theorem State.append_received (p : Port) (e : Entry) :
    (s.append p e).received = s.received := by
  rw [State.append_onlyPorts s p e]
@[simp] theorem State.postAll_received (es : List Event) :
    (s.postAll es).received = s.received := by
  rw [State.postAll_onlyPorts s es]
@[simp] theorem State.append_outgoing (p : Port) (e : Entry) :
    (s.append p e).outgoing = s.outgoing := by
  rw [State.append_onlyPorts s p e]
@[simp] theorem State.postAll_outgoing (es : List Event) :
    (s.postAll es).outgoing = s.outgoing := by
  rw [State.postAll_onlyPorts s es]
@[simp] theorem State.append_slots (p : Port) (e : Entry) : (s.append p e).slots = s.slots := by
  rw [State.append_onlyPorts s p e]
@[simp] theorem State.postAll_slots (es : List Event) : (s.postAll es).slots = s.slots := by
  rw [State.postAll_onlyPorts s es]
@[simp] theorem State.append_groups (p : Port) (e : Entry) : (s.append p e).groups = s.groups := by
  rw [State.append_onlyPorts s p e]
@[simp] theorem State.postAll_groups (es : List Event) : (s.postAll es).groups = s.groups := by
  rw [State.postAll_onlyPorts s es]
@[simp] theorem State.append_keys (p : Port) (e : Entry) : (s.append p e).keys = s.keys := by
  rw [State.append_onlyPorts s p e]
@[simp] theorem State.postAll_keys (es : List Event) : (s.postAll es).keys = s.keys := by
  rw [State.postAll_onlyPorts s es]
@[simp] theorem State.append_legs (p : Port) (e : Entry) : (s.append p e).legs = s.legs := by
  rw [State.append_onlyPorts s p e]
@[simp] theorem State.postAll_legs (es : List Event) : (s.postAll es).legs = s.legs := by
  rw [State.postAll_onlyPorts s es]
@[simp] theorem State.append_watches (p : Port) (e : Entry) :
    (s.append p e).watches = s.watches := by
  rw [State.append_onlyPorts s p e]
@[simp] theorem State.postAll_watches (es : List Event) : (s.postAll es).watches = s.watches := by
  rw [State.postAll_onlyPorts s es]
@[simp] theorem State.append_restart (p : Port) (e : Entry) :
    (s.append p e).restart = s.restart := by
  rw [State.append_onlyPorts s p e]
@[simp] theorem State.postAll_restart (es : List Event) : (s.postAll es).restart = s.restart := by
  rw [State.postAll_onlyPorts s es]
@[simp] theorem State.append_restartSince (p : Port) (e : Entry) :
    (s.append p e).restartSince = s.restartSince := by
  rw [State.append_onlyPorts s p e]
@[simp] theorem State.postAll_restartSince (es : List Event) :
    (s.postAll es).restartSince = s.restartSince := by
  rw [State.postAll_onlyPorts s es]
@[simp] theorem State.append_resetPin (p : Port) (e : Entry) :
    (s.append p e).resetPin = s.resetPin := by
  rw [State.append_onlyPorts s p e]
@[simp] theorem State.postAll_resetPin (es : List Event) :
    (s.postAll es).resetPin = s.resetPin := by
  rw [State.postAll_onlyPorts s es]
@[simp] theorem State.append_clock (p : Port) (e : Entry) : (s.append p e).clock = s.clock := by
  rw [State.append_onlyPorts s p e]
@[simp] theorem State.postAll_clock (es : List Event) : (s.postAll es).clock = s.clock := by
  rw [State.postAll_onlyPorts s es]
@[simp] theorem State.append_freeIndex (p : Port) (e : Entry) :
    (s.append p e).freeIndex = s.freeIndex := by
  rw [State.append_onlyPorts s p e]
@[simp] theorem State.postAll_freeIndex (es : List Event) :
    (s.postAll es).freeIndex = s.freeIndex := by
  rw [State.postAll_onlyPorts s es]
@[simp] theorem State.append_pending (p : Port) (e : Entry) :
    (s.append p e).pending = s.pending := by
  rw [State.append_onlyPorts s p e]
@[simp] theorem State.postAll_pending (es : List Event) : (s.postAll es).pending = s.pending := by
  rw [State.postAll_onlyPorts s es]
@[simp] theorem State.append_line (p : Port) (e : Entry) (n : Nat) :
    (s.append p e).line n = s.line n := by simp [State.line]
@[simp] theorem State.postAll_line (es : List Event) (n : Nat) :
    (s.postAll es).line n = s.line n := by simp [State.line]
@[simp] theorem State.append_station (p : Port) (e : Entry) (n : Nat) :
    (s.append p e).station n = s.station n := by simp [State.station]
@[simp] theorem State.postAll_station (es : List Event) (n : Nat) :
    (s.postAll es).station n = s.station n := by simp [State.station]
@[simp] theorem State.append_slot (p : Port) (e : Entry) (n : Nat) :
    (s.append p e).slot n = s.slot n := by simp [State.slot]
@[simp] theorem State.postAll_slot (es : List Event) (n : Nat) :
    (s.postAll es).slot n = s.slot n := by simp [State.slot]
@[simp] theorem State.append_group (p : Port) (e : Entry) (n : Nat) :
    (s.append p e).group n = s.group n := by simp [State.group]
@[simp] theorem State.postAll_group (es : List Event) (n : Nat) :
    (s.postAll es).group n = s.group n := by simp [State.group]
@[simp] theorem State.append_key (p : Port) (e : Entry) (n : Nat) :
    (s.append p e).key n = s.key n := by simp [State.key]
@[simp] theorem State.postAll_key (es : List Event) (n : Nat) :
    (s.postAll es).key n = s.key n := by simp [State.key]
@[simp] theorem State.append_leg (p : Port) (e : Entry) (n : Nat) :
    (s.append p e).leg n = s.leg n := by simp [State.leg]
@[simp] theorem State.postAll_leg (es : List Event) (n : Nat) :
    (s.postAll es).leg n = s.leg n := by simp [State.leg]
@[simp] theorem State.append_watch (p : Port) (e : Entry) (n : Nat) :
    (s.append p e).watch n = s.watch n := by simp [State.watch]
@[simp] theorem State.postAll_watch (es : List Event) (n : Nat) :
    (s.postAll es).watch n = s.watch n := by simp [State.watch]

end fields

/-! ### Work -/

@[simp] theorem Work.start_state (s : State) : (Work.start s).state = s := rfl
@[simp] theorem Work.start_events (s : State) : (Work.start s).events = [] := rfl
@[simp] theorem Work.raise_state (w : Work) (e : Event) : (w.raise e).state = w.state := rfl
@[simp] theorem Work.raise_events (w : Work) (e : Event) :
    (w.raise e).events = w.events ++ [e] := rfl
@[simp] theorem Work.update_state (w : Work) (f : State → State) :
    (w.update f).state = f w.state := rfl
@[simp] theorem Work.update_events (w : Work) (f : State → State) :
    (w.update f).events = w.events := rfl

theorem Work.finish_onlyPorts (w : Work) : OnlyPorts w.state w.finish :=
  w.state.postAll_onlyPorts w.events

theorem Work.finish_samePorts (w : Work) : SamePortsButPosts w.state w.finish :=
  w.state.postAll_samePorts w.events

end Sys2Proof.Machine
end

