-- ==== Sys2Proof/Laws/Take.lean ====
section
/-! SUPPORT. What the arbiter's grant and the take of an order can do (R7, R8). -/

namespace Sys2Proof.Machine

/-! ### Ports and replies -/

theorem State.taken_port_same (s : State) (p : Port) :
    (s.taken p).port p = { s.port p with orders := (s.port p).orders.tail } := by
  cases p <;> rfl

theorem State.taken_port_ne (s : State) {p q : Port} (h : q ≠ p) :
    (s.taken p).port q = s.port q := by
  cases p <;> cases q <;> first | rfl | exact absurd rfl h

theorem State.reply_eq_append (s : State) (p : Port) (code tag : Byte) (outcome : OutcomeCode)
    (fields : List Byte) :
    s.reply p code tag outcome fields = s.append p (.reply code tag outcome fields) := rfl

/-! ### The grant -/

theorem eligible_eq_true (p : PortState) :
    eligible p = true ↔ p.orders ≠ [] ∧ p.out.length < 32 := by
  have : Config.outQueueSize = 32 := rfl
  simp [eligible, this]

theorem State.not_eligible_iff (s : State) (q : Port) :
    eligible (s.port q) = false ↔ (s.port q).orders = [] ∨ 32 ≤ (s.port q).out.length := by
  rw [← Bool.not_eq_true, eligible_eq_true]
  by_cases h : (s.port q).orders = [] <;> simp [h]

/-- The arbiter grants p exactly when p is eligible, nothing considered before it is, and no restart is
in progress. -/
theorem State.grant_eq_some (s : State) (p : Port) :
    s.grant = some p ↔ s.restart = none ∧ eligible (s.port p) = true
      ∧ ∀ q ∈ consideredBefore s.lastServed p, eligible (s.port q) = false := by
  unfold State.grant State.restarting
  cases hr : s.restart with
  | some m => simp
  | none =>
    cases hl : s.lastServed <;> cases p <;>
      cases ha : eligible (s.port .a) <;> cases hb : eligible (s.port .b) <;>
      cases hm : eligible (s.port .m) <;>
      simp [arbiterOrder, consideredBefore, ha, hb, hm]

/-- All that the next take can be. -/
theorem State.takeHead_eq_some (s : State) (p : Port) (order : OrderRecord) (t : State) :
    s.takeHead = some (p, order, t) ↔ s.Takes p order ∧ t = s.taken p := by
  unfold State.takeHead
  constructor
  · intro h
    split at h
    · rename_i q hq
      split at h
      · rename_i o rest ho
        simp only [Option.some.injEq, Prod.mk.injEq] at h
        obtain ⟨rfl, rfl, rfl⟩ := h
        obtain ⟨hr, he, hn⟩ := (s.grant_eq_some _).1 hq
        refine ⟨⟨hr, by simp [ho], ((eligible_eq_true _).1 he).2, fun q' hq' => ?_⟩, ?_⟩
        · exact (s.not_eligible_iff q').1 (hn q' hq')
        · simp [State.taken, ho]
      · cases h
    · cases h
  · rintro ⟨⟨hr, ho, hl, hn⟩, rfl⟩
    have hne : (s.port p).orders ≠ [] := by intro h; simp [h] at ho
    have hg : s.grant = some p := (s.grant_eq_some p).2
      ⟨hr, (eligible_eq_true _).2 ⟨hne, hl⟩, fun q hq => (s.not_eligible_iff q).2 (hn q hq)⟩
    rw [hg]
    cases hc : (s.port p).orders with
    | nil => exact absurd hc hne
    | cons o rest =>
      simp [hc] at ho
      subst ho
      simp [hc, State.taken]

theorem State.takeHead_of_takes {s : State} {p : Port} {order : OrderRecord}
    (h : s.Takes p order) : s.takeHead = some (p, order, s.taken p) :=
  (s.takeHead_eq_some p order _).2 ⟨h, rfl⟩

/-- One order at most is taken next. -/
theorem State.Takes.unique {s : State} {p q : Port} {o o' : OrderRecord} (h : s.Takes p o)
    (h' : s.Takes q o') : p = q ∧ o = o' := by
  have := (State.takeHead_of_takes h).symm.trans (State.takeHead_of_takes h')
  simp only [Option.some.injEq, Prod.mk.injEq] at this
  exact ⟨this.1, this.2.1⟩

/-! ### The take -/

section takeOrder

variable {mine : OrderRecord → Bool} {codesFit : List Byte → Bool} {authority : Authority}
  {body : Port → List Byte → State → Answer} {s : State}

/-- A take whose order is the row's. -/
theorem takeOrder_mine {p : Port} {order : OrderRecord} (h : s.Takes p order)
    (hm : mine order = true) :
    takeOrder mine codesFit authority body s = .next ((s.taken p).replied p order
      (answerTo order codesFit authority p (s.taken p) (body p order.params (s.taken p)))) := by
  simp [takeOrder, State.takeHead_of_takes h, hm]

/-- A take that passes the checks of R8: the answer is the row's own. -/
theorem takeOrder_own {p : Port} {order : OrderRecord} (h : s.Takes p order)
    (hm : mine order = true) (hl : lengthFits order = true) (hc : codesFit order.params = true)
    (ha : authorityCheck authority p s.mastership = none) :
    takeOrder mine codesFit authority body s = .next ((s.taken p).replied p order
      (body p order.params (s.taken p))) := by
  have hs : (s.taken p).mastership = s.mastership := by cases p <;> rfl
  simp [takeOrder, State.takeHead_of_takes h, hm, answerTo, hl, hc, ha, hs]

/-- A take whose order is another row's. -/
theorem takeOrder_other {p : Port} {order : OrderRecord} (h : s.Takes p order)
    (hm : mine order = false) : takeOrder mine codesFit authority body s = .next s := by
  simp [takeOrder, State.takeHead_of_takes h, hm]

/-- No order is taken next. -/
theorem takeOrder_idle (h : ∀ p order, ¬s.Takes p order) :
    takeOrder mine codesFit authority body s = .next s := by
  unfold takeOrder
  cases ht : s.takeHead with
  | none => rfl
  | some v =>
    obtain ⟨p, order, t⟩ := v
    exact absurd ((s.takeHead_eq_some p order t).1 ht).1 (h p order)

/-- All that the take of a row can do: nothing, or the answer to the row's own order. -/
theorem takeOrder_cases {t : State} (h : takeOrder mine codesFit authority body s = .next t) :
    t = s ∨ ∃ p order, s.Takes p order ∧ mine order = true
      ∧ t = (s.taken p).replied p order
        (answerTo order codesFit authority p (s.taken p) (body p order.params (s.taken p))) := by
  unfold takeOrder at h
  split at h
  · rename_i p order u hu
    obtain ⟨ht, rfl⟩ := (s.takeHead_eq_some p order u).1 hu
    split at h
    · rename_i hm
      exact .inr ⟨p, order, ht, hm, by simpa using h.symm⟩
    · exact .inl (by simpa using h.symm)
  · exact .inl (by simpa using h.symm)

/-- The take of a row always answers a next state. -/
theorem takeOrder_next : ∃ t, takeOrder mine codesFit authority body s = .next t := by
  unfold takeOrder
  split
  · split <;> exact ⟨_, rfl⟩
  · exact ⟨_, rfl⟩

end takeOrder

/-- The answer to an order is its own once the length, the codes and the authority pass. -/
theorem answerTo_own {order : OrderRecord} {codesFit : List Byte → Bool} {authority : Authority}
    {p : Port} {s : State} {own : Answer} (hl : lengthFits order = true)
    (hc : codesFit order.params = true) (ha : authorityCheck authority p s.mastership = none) :
    answerTo order codesFit authority p s own = own := by
  simp [answerTo, hl, hc, ha]

/-- Who passes the holder check (R26). -/
theorem authorityCheck_holder {s : State} {p : Port} (h : s.HolderAt p) :
    authorityCheck .holderOnly p s.mastership = none := by
  cases p <;> cases hm : s.mastership <;> simp_all [State.HolderAt, authorityCheck, controllerOf,
    holderCheck]
  all_goals rename_i x _; cases x <;> simp_all

theorem authorityCheck_holderOrM {s : State} {p : Port} (h : s.HolderOrM p) :
    authorityCheck .holderOrPortM p s.mastership = none := by
  rcases h with rfl | h
  · rfl
  · have := authorityCheck_holder h
    cases p
    · exact this
    · exact this
    · rfl

/-! ### The replies -/

@[simp] theorem queuedOrder_code (code tag : Byte) (params : List Byte) :
    (queuedOrder code tag params).code = code := rfl
@[simp] theorem queuedOrder_tag (code tag : Byte) (params : List Byte) :
    (queuedOrder code tag params).tag = tag := rfl
@[simp] theorem queuedOrder_params (code tag : Byte) (params : List Byte) :
    (queuedOrder code tag params).params = params := rfl
@[simp] theorem queuedOrder_overLength (code tag : Byte) (params : List Byte) :
    (queuedOrder code tag params).overLength = false := rfl

/-- A refusal is replied to and changes nothing else (R8). -/
theorem State.replied_refuse (s : State) (p : Port) (o : OrderRecord) (outcome : OutcomeCode)
    (fields : List Byte) :
    (s.taken p).replied p o (.refuse outcome fields)
      = s.refusal p o.code o.tag outcome fields := rfl

/-- A take that raises no event is replied to with DONE and its change (R8). -/
theorem State.replied_plain (s : State) (p : Port) (o : OrderRecord) (fields : List Byte)
    (f : State → State) :
    (s.taken p).replied p o (.plain fields (f (s.taken p)))
      = s.done p o.code o.tag fields f := rfl

/-- A take that raises events is replied to first (R8). -/
theorem State.replied_done (s : State) (p : Port) (o : OrderRecord) (fields : List Byte)
    (w : Work) :
    (s.taken p).replied p o (.done fields w)
      = (w.state.append p (.reply o.code o.tag .done fields)).postAll w.events := rfl

/-- The start of a restart is not replied to (R8). -/
theorem State.replied_restart (s : State) (p : Port) (o : OrderRecord) (t : State) :
    (s.taken p).replied p o (.restart t) = t := rfl

/-! ### Fields of the states of a take -/

section fields

variable (s : State) (p : Port)

/-- Everything but a port and the last-served port stands when an order leaves its queue. -/
theorem State.taken_eq :
    s.taken p = { s with
      portA := (s.taken p).portA, portB := (s.taken p).portB, portM := (s.taken p).portM
      lastServed := p } := by cases p <;> rfl

@[simp] theorem State.taken_lastServed : (s.taken p).lastServed = p := by cases p <;> rfl
@[simp] theorem State.taken_mastership : (s.taken p).mastership = s.mastership := by cases p <;> rfl
@[simp] theorem State.taken_lapseInterval :
    (s.taken p).lapseInterval = s.lapseInterval := by cases p <;> rfl
@[simp] theorem State.taken_directory : (s.taken p).directory = s.directory := by cases p <;> rfl
@[simp] theorem State.taken_precedenceMap :
    (s.taken p).precedenceMap = s.precedenceMap := by cases p <;> rfl
@[simp] theorem State.taken_lines : (s.taken p).lines = s.lines := by cases p <;> rfl
@[simp] theorem State.taken_stations : (s.taken p).stations = s.stations := by cases p <;> rfl
@[simp] theorem State.taken_answerWindow :
    (s.taken p).answerWindow = s.answerWindow := by cases p <;> rfl
@[simp] theorem State.taken_holdOffTime :
    (s.taken p).holdOffTime = s.holdOffTime := by cases p <;> rfl
@[simp] theorem State.taken_lockoutCount :
    (s.taken p).lockoutCount = s.lockoutCount := by cases p <;> rfl
@[simp] theorem State.taken_challengeSequence :
    (s.taken p).challengeSequence = s.challengeSequence := by cases p <;> rfl
@[simp] theorem State.taken_connections :
    (s.taken p).connections = s.connections := by cases p <;> rfl
@[simp] theorem State.taken_frameCounter :
    (s.taken p).frameCounter = s.frameCounter := by cases p <;> rfl
@[simp] theorem State.taken_muteCode : (s.taken p).muteCode = s.muteCode := by cases p <;> rfl
@[simp] theorem State.taken_received : (s.taken p).received = s.received := by cases p <;> rfl
@[simp] theorem State.taken_outgoing : (s.taken p).outgoing = s.outgoing := by cases p <;> rfl
@[simp] theorem State.taken_slots : (s.taken p).slots = s.slots := by cases p <;> rfl
@[simp] theorem State.taken_groups : (s.taken p).groups = s.groups := by cases p <;> rfl
@[simp] theorem State.taken_keys : (s.taken p).keys = s.keys := by cases p <;> rfl
@[simp] theorem State.taken_legs : (s.taken p).legs = s.legs := by cases p <;> rfl
@[simp] theorem State.taken_watches : (s.taken p).watches = s.watches := by cases p <;> rfl
@[simp] theorem State.taken_restart : (s.taken p).restart = s.restart := by cases p <;> rfl
@[simp] theorem State.taken_restartSince :
    (s.taken p).restartSince = s.restartSince := by cases p <;> rfl
@[simp] theorem State.taken_resetPin : (s.taken p).resetPin = s.resetPin := by cases p <;> rfl
@[simp] theorem State.taken_clock : (s.taken p).clock = s.clock := by cases p <;> rfl
@[simp] theorem State.taken_freeIndex : (s.taken p).freeIndex = s.freeIndex := by cases p <;> rfl
@[simp] theorem State.taken_pending : (s.taken p).pending = s.pending := by cases p <;> rfl
@[simp] theorem State.taken_line (n : Nat) : (s.taken p).line n = s.line n := by
  cases p <;> rfl
@[simp] theorem State.taken_station (n : Nat) : (s.taken p).station n = s.station n := by
  cases p <;> rfl
@[simp] theorem State.taken_slot (n : Nat) : (s.taken p).slot n = s.slot n := by
  cases p <;> rfl
@[simp] theorem State.taken_group (n : Nat) : (s.taken p).group n = s.group n := by
  cases p <;> rfl
@[simp] theorem State.taken_key (n : Nat) : (s.taken p).key n = s.key n := by
  cases p <;> rfl
@[simp] theorem State.taken_leg (n : Nat) : (s.taken p).leg n = s.leg n := by
  cases p <;> rfl
@[simp] theorem State.taken_watch (n : Nat) : (s.taken p).watch n = s.watch n := by
  cases p <;> rfl
@[simp] theorem State.taken_identityAt (e : Nat) : (s.taken p).identityAt e = s.identityAt e := by
  cases p <;> rfl
@[simp] theorem State.taken_admittedAt (identity : Nat) :
    (s.taken p).admittedAt identity = s.admittedAt identity := by
  cases p <;> rfl
@[simp] theorem State.taken_entry (identity : Nat) :
    (s.taken p).entry identity = s.entry identity := by
  cases p <;> rfl
@[simp] theorem State.taken_effectiveClass (n : Nat) :
    (s.taken p).effectiveClass n = s.effectiveClass n := by
  cases p <;> rfl
@[simp] theorem State.taken_classOf (n : Nat) : (s.taken p).classOf n = s.classOf n := by
  cases p <;> rfl
@[simp] theorem State.taken_connection (id : Nat) :
    (s.taken p).connection id = s.connection id := by
  cases p <;> rfl
@[simp] theorem State.taken_named (e : Nat) : (s.taken p).named e = s.named e := by
  cases p <;> rfl
@[simp] theorem State.taken_feeder (e : Nat) : (s.taken p).feeder e = s.feeder e := by
  cases p <;> rfl
@[simp] theorem State.taken_lowestFreeId : (s.taken p).lowestFreeId = s.lowestFreeId := by
  cases p <;> rfl
@[simp] theorem State.taken_recordCount : (s.taken p).recordCount = s.recordCount := by
  cases p <;> rfl
@[simp] theorem State.taken_pendingCount : (s.taken p).pendingCount = s.pendingCount := by
  cases p <;> rfl
@[simp] theorem State.taken_privacyCount : (s.taken p).privacyCount = s.privacyCount := by
  cases p <;> rfl
@[simp] theorem State.taken_isTie (e : Nat) : (s.taken p).isTie e = s.isTie e := by
  cases p <;> rfl
@[simp] theorem State.taken_isPublic (e : Nat) : (s.taken p).isPublic e = s.isPublic e := by
  cases p <;> rfl
@[simp] theorem State.taken_remaining (t : Nat) : (s.taken p).remaining t = s.remaining t := by
  cases p <;> rfl
@[simp] theorem State.taken_after (t : Nat) : (s.taken p).after t = s.after t := by
  cases p <;> rfl
@[simp] theorem State.taken_restarting : (s.taken p).restarting = s.restarting := by
  cases p <;> rfl
@[simp] theorem State.taken_heldByWatch (id : Nat) :
    (s.taken p).heldByWatch id = s.heldByWatch id := by
  cases p <;> rfl

end fields

end Sys2Proof.Machine
end

