-- ==== Sys2Proof/Laws/Release.lean ====
section
/-! SUPPORT. What re-evaluation, the release procedure, the selections of releases and withdrawals can
do (R122, R148 to R155, R67), before their events are posted. -/

namespace Sys2Proof.Machine

/-! ### States that differ in the tables of calls alone -/

/-- t is s with other connections, legs, key contexts, groups and watches. -/
def OnlyCalls (s t : State) : Prop :=
  t = { s with
    connections := t.connections, legs := t.legs, keys := t.keys, groups := t.groups
    watches := t.watches }

/-- t is s with other connections, legs, key contexts, groups, watches and station records. -/
def OnlyCallsAndStations (s t : State) : Prop :=
  t = { s with
    connections := t.connections, legs := t.legs, keys := t.keys, groups := t.groups
    watches := t.watches, stations := t.stations }

theorem OnlyCalls.refl (s : State) : OnlyCalls s s := rfl

theorem OnlyCalls.trans {s t u : State} (h : OnlyCalls s t) (h' : OnlyCalls t u) :
    OnlyCalls s u := by
  unfold OnlyCalls at *
  rw [h', h]

theorem OnlyCallsAndStations.refl (s : State) : OnlyCallsAndStations s s := rfl

theorem OnlyCallsAndStations.trans {s t u : State} (h : OnlyCallsAndStations s t)
    (h' : OnlyCallsAndStations t u) : OnlyCallsAndStations s u := by
  unfold OnlyCallsAndStations at *
  rw [h', h]

theorem OnlyCalls.andStations {s t : State} (h : OnlyCalls s t) : OnlyCallsAndStations s t := by
  unfold OnlyCalls OnlyCallsAndStations at *
  rw [h]

theorem State.setStation_onlyStations (s : State) (n : Nat) (v : Station) :
    OnlyCallsAndStations s (s.setStation n v) := rfl

theorem OnlyCalls.releases {s t : State} (h : OnlyCalls s t) (es : List Event) :
    OnlyCallTables s (t.postAll es) := by
  refine ⟨fun p => ?_, ?_⟩
  · have := t.postAll_samePorts es p
    rw [h] at this ⊢
    cases p <;> exact this
  · conv_lhs => rw [State.postAll_onlyPorts t es]
    conv_lhs => rw [h]
    simp only [State.postAll_connections, State.postAll_legs, State.postAll_keys,
      State.postAll_groups, State.postAll_watches]
    have := h.symm
    rw [this]

theorem OnlyCallsAndStations.withdrawals {s t : State} (h : OnlyCallsAndStations s t)
    (es : List Event) : OnlyWithdrawals s (t.postAll es) := by
  refine ⟨fun p => ?_, ?_⟩
  · have := t.postAll_samePorts es p
    rw [h] at this ⊢
    cases p <;> exact this
  · conv_lhs => rw [State.postAll_onlyPorts t es]
    conv_lhs => rw [h]
    simp only [State.postAll_connections, State.postAll_legs, State.postAll_keys,
      State.postAll_groups, State.postAll_watches, State.postAll_stations]
    have := h.symm
    rw [this]

/-! ### Trunk groups -/

theorem State.setGroup_group (s : State) (g : Nat) : s.setGroup g (s.group g) = s := by
  unfold State.setGroup State.group
  have : s.groups.setIfInBounds g (s.groups[g]?.getD Group.reset) = s.groups := by
    ext1 i hi
    by_cases h : g = i
    · subst h; simp [hi]
    · simp [h]
  rw [this]

/-- All that a re-evaluation does to the state: the group's congestion state becomes what R122
gives. -/
theorem Work.reevaluate_state (w : Work) (g : Nat) :
    (w.reevaluate g).state = w.state.setGroup g
      { w.state.group g with congested := congestionAfter (w.state.group g) } := by
  unfold Work.reevaluate
  by_cases h : congestionAfter (w.state.group g) = (w.state.group g).congested
  · simp only [h, if_true]
    exact (w.state.setGroup_group g).symm
  · simp only [h, if_false]
    rfl

/-- The events of a re-evaluation: a CONGESTION event at a transition, and no other (R123). -/
theorem Work.reevaluate_events (w : Work) (g : Nat) :
    (w.reevaluate g).events = w.events ++
      if congestionAfter (w.state.group g) = (w.state.group g).congested then []
      else [.congestion g (congestionAfter (w.state.group g)) (w.state.group g).busy] := by
  unfold Work.reevaluate
  split <;> rename_i h <;> simp [h]

/-- All that a recount does to the state. -/
theorem Work.recount_state (w : Work) (g : Nat) (f : Nat → Nat) (h : g < 8) :
    (w.recount g f).state = w.state.setGroup g
      { w.state.group g with
        busy := f (w.state.group g).busy
        congested := congestionAfter { w.state.group g with busy := f (w.state.group g).busy } } := by
  unfold Work.recount
  rw [Work.reevaluate_state]
  simp only [Work.update_state, State.group_setGroup_same _ h]
  simp [State.setGroup]

theorem Work.reevaluate_onlyCalls (w : Work) (g : Nat) :
    OnlyCalls w.state (w.reevaluate g).state := by rw [Work.reevaluate_state]; rfl

theorem Work.recount_onlyCalls (w : Work) (g : Nat) (f : Nat → Nat) :
    OnlyCalls w.state (w.recount g f).state := by
  unfold Work.recount
  rw [Work.reevaluate_state]
  rfl

@[simp] theorem Work.reevaluate_connections (w : Work) (g : Nat) :
    (w.reevaluate g).state.connections = w.state.connections := by
  rw [Work.reevaluate_state]; rfl

@[simp] theorem Work.recount_connections (w : Work) (g : Nat) (f : Nat → Nat) :
    (w.recount g f).state.connections = w.state.connections := by simp [Work.recount]

theorem Work.leaveSlot_onlyCalls (w : Work) (e : Nat) :
    OnlyCalls w.state (w.leaveSlot e).state := by
  unfold Work.leaveSlot
  split
  · exact w.recount_onlyCalls _ _
  · exact OnlyCalls.refl _

@[simp] theorem Work.leaveSlot_connections (w : Work) (e : Nat) :
    (w.leaveSlot e).state.connections = w.state.connections := by
  unfold Work.leaveSlot; split <;> simp

/-! ### The release procedure -/

theorem State.freeLeg_onlyCalls (s : State) (c : Connection) : OnlyCalls s (s.freeLeg c) := by
  unfold State.freeLeg; split <;> rfl

@[simp] theorem State.freeLeg_connections (s : State) (c : Connection) :
    (s.freeLeg c).connections = s.connections := by unfold State.freeLeg; split <;> rfl

/-- A release changes the tables of calls alone. -/
theorem Work.release_onlyCalls (r : Option ReleaseReason) (w : Work) (c : Connection) :
    OnlyCalls w.state (w.release r c).state := by
  have h1 : OnlyCalls w.state (w.state.dropConnection c.id) := rfl
  have h2 := (w.state.dropConnection c.id).freeLeg_onlyCalls c
  have h3 := Work.leaveSlot_onlyCalls ((w.update (·.dropConnection c.id)).update (·.freeLeg c)) c.source
  have h4 := Work.leaveSlot_onlyCalls
    (((w.update (·.dropConnection c.id)).update (·.freeLeg c)).leaveSlot c.source) c.destination
  have h5 : ∀ s : State, OnlyCalls s (s.endTrace c.id) := fun _ => rfl
  have h := (((h1.trans h2).trans h3).trans h4).trans (h5 _)
  unfold Work.release
  cases r <;> exact h

/-- A release takes the record out of the table, and no other. -/
@[simp] theorem Work.release_connections (r : Option ReleaseReason) (w : Work) (c : Connection) :
    (w.release r c).state.connections = w.state.connections.filter fun d => d.id != c.id := by
  unfold Work.release
  cases r <;> simp [State.endTrace, State.dropConnection]

/-- What a release does to the watches (R152). -/
theorem Work.release_watches (r : Option ReleaseReason) (w : Work) (c : Connection) :
    (w.release r c).state.watches = w.state.watches.map (Watch.connectionReleased c.id) := by
  have hf : ∀ s : State, (s.freeLeg c).watches = s.watches := by
    intro s; unfold State.freeLeg; split <;> rfl
  have hr : ∀ (w : Work) g f, (w.recount g f).state.watches = w.state.watches := by
    intro w g f; unfold Work.recount; rw [Work.reevaluate_state]; rfl
  have hl : ∀ (w : Work) e, (w.leaveSlot e).state.watches = w.state.watches := by
    intro w e; unfold Work.leaveSlot; split <;> simp [hr]
  unfold Work.release
  cases r <;> simp [State.endTrace, hl, hf]

theorem Work.foldl_release_onlyCalls (r : Option ReleaseReason) (cs : List Connection) (w : Work) :
    OnlyCalls w.state (cs.foldl (Work.release r) w).state := by
  induction cs generalizing w with
  | nil => exact OnlyCalls.refl _
  | cons c cs ih => exact (w.release_onlyCalls r c).trans (ih _)

theorem Work.foldl_release_connections (r : Option ReleaseReason) (cs : List Connection) (w : Work) :
    (cs.foldl (Work.release r) w).state.connections =
      w.state.connections.filter fun d => cs.all fun c => d.id != c.id := by
  induction cs generalizing w with
  | nil => simp
  | cons c cs ih => simp [ih, List.filter_filter, Bool.and_comm]

theorem Work.releaseWhere_onlyCalls (w : Work) (r : Option ReleaseReason) (f : Connection → Bool) :
    OnlyCalls w.state (w.releaseWhere r f).state := w.foldl_release_onlyCalls r _

/-- In a table whose ids rise, the records selected leave it, and no other. -/
theorem Work.releaseWhere_connections (w : Work) (r : Option ReleaseReason) (f : Connection → Bool)
    (h : w.state.connections.Pairwise fun c d => c.id < d.id) :
    (w.releaseWhere r f).state.connections = w.state.connections.filter fun c => !f c := by
  unfold Work.releaseWhere
  rw [Work.foldl_release_connections]
  apply List.filter_congr
  intro d hd
  have key : ∀ c ∈ w.state.connections, c.id = d.id → c = d := by
    intro c hc hid
    by_contra hne
    have hp := List.pairwise_iff_getElem.1 h
    obtain ⟨i, hi, rfl⟩ := List.getElem_of_mem hc
    obtain ⟨j, hj, rfl⟩ := List.getElem_of_mem hd
    rcases Nat.lt_trichotomy i j with hij | hij | hij
    · have := hp i j hi hj hij; omega
    · subst hij; exact hne rfl
    · have := hp j i hj hi hij; omega
  cases hf : f d with
  | true =>
    simp only [Bool.not_true, List.all_eq_false]
    exact ⟨d, List.mem_filter.2 ⟨hd, hf⟩, by simp⟩
  | false =>
    simp only [Bool.not_false, List.all_eq_true]
    intro c hc
    obtain ⟨hc, hfc⟩ := List.mem_filter.1 hc
    simp only [bne_iff_ne, ne_eq]
    intro hid
    rw [key c hc hid.symm, hf] at hfc
    cases hfc

/-! ### Withdrawals -/

theorem Work.withdraw_onlyCallsAndStations (w : Work) (r : ReleaseReason) (n : Nat) :
    OnlyCallsAndStations w.state (w.withdraw r n).state := by
  unfold Work.withdraw
  split
  · exact (State.setStation_onlyStations _ _ _).trans
      (Work.releaseWhere_onlyCalls _ _ _).andStations
  · exact OnlyCallsAndStations.refl _

/-- What a withdrawal does to the station records: the withdrawn one becomes VACANT with an empty
deliver queue; no other changes (R67). -/
theorem Work.withdraw_stations (w : Work) (r : ReleaseReason) (n : Nat) :
    (w.withdraw r n).state.stations =
      match (w.state.station n).state with
      | .admitted _ =>
        w.state.stations.setIfInBounds n { w.state.station n with state := .vacant, deliver := [] }
      | _ => w.state.stations := by
  unfold Work.withdraw
  split
  · rename_i identity h
    simp only [h]
    rw [show ∀ (u : Work) (e : Event), (u.raise e).state = u.state from fun _ _ => rfl]
    rw [Work.releaseWhere_onlyCalls]
    rfl
  · rename_i h
    cases hs : (w.state.station n).state <;> first | rfl | exact absurd hs (h _)

/-- What a withdrawal does to the connection table (R155). -/
theorem Work.withdraw_connections (w : Work) (r : ReleaseReason) (n : Nat)
    (h : w.state.connections.Pairwise fun c d => c.id < d.id) :
    (w.withdraw r n).state.connections =
      match (w.state.station n).state with
      | .admitted _ => w.state.connections.filter fun c => !withdrawalSelects n c
      | _ => w.state.connections := by
  unfold Work.withdraw
  split
  · rename_i identity hi
    simp only [hi, Work.raise_state]
    rw [Work.releaseWhere_connections]
    · simp
    · simpa using h
  · rename_i hi
    cases hs : (w.state.station n).state <;> first | rfl | exact absurd hs (hi _)

end Sys2Proof.Machine
end

