-- ==== Sys2Proof/Laws/Calls.lean ====
section
/-! SUPPORT. The ordered tables (records by id, entries by identity, home ports), the lowest free id and
leg, and what the preemption of a slot and the making of a record can do (R32, R88, R97, R121,
R134). -/

namespace Sys2Proof.Machine

/-! ### Ordered tables -/

/-- In a table without its id, a record is inserted at its place. -/
theorem insertConnection_eq (c : Connection) (cs : List Connection)
    (h : cs.Pairwise fun d e => d.id < e.id) (hc : ∀ d ∈ cs, d.id ≠ c.id) :
    insertConnection c cs = tableWith c cs := by
  unfold tableWith
  induction cs with
  | nil => rfl
  | cons d ds ih =>
    have hd : d.id ≠ c.id := hc d (by simp)
    have hds : ∀ e ∈ ds, e.id ≠ c.id := fun e he => hc e (by simp [he])
    obtain ⟨h1, h2⟩ := List.pairwise_cons.1 h
    by_cases hlt : c.id < d.id
    · have hgt : ¬d.id < c.id := by omega
      have hall : ∀ e ∈ ds, c.id < e.id := fun e he => Nat.lt_trans hlt (h1 e he)
      have hno : ∀ e ∈ ds, ¬e.id < c.id := fun e he => by have := hall e he; omega
      simp only [insertConnection, hlt, if_true, List.filter_cons, hgt, decide_true,
        decide_false, Bool.false_eq_true, if_false]
      rw [List.filter_eq_nil_iff.2 (fun e he => by simpa using Nat.le_of_lt (hall e he)),
        List.filter_eq_self.2 (fun e he => by simpa using hall e he)]
      rfl
    · have hgt : d.id < c.id := by omega
      simp only [insertConnection, hlt, if_false, List.filter_cons, hgt, decide_true,
        decide_false, Bool.false_eq_true, if_true, ih h2 hds]
      rfl

theorem mem_insertConnection (c d : Connection) (cs : List Connection) :
    d ∈ insertConnection c cs ↔ d = c ∨ d ∈ cs := by
  induction cs with
  | nil => simp [insertConnection]
  | cons e es ih =>
    unfold insertConnection
    split
    · simp
    · simp only [List.mem_cons, ih]
      tauto

theorem length_insertConnection (c : Connection) (cs : List Connection) :
    (insertConnection c cs).length = cs.length + 1 := by
  induction cs with
  | nil => rfl
  | cons e es ih =>
    unfold insertConnection
    split <;> simp [ih]

/-- In a directory without its identity, an entry is inserted at its place (R32). -/
theorem insertEntry_eq (e : DirectoryEntry) (es : List DirectoryEntry)
    (h : es.Pairwise fun c d => c.identity < d.identity) (he : ∀ d ∈ es, d.identity ≠ e.identity) :
    insertEntry e es =
      es.filter (fun d => decide (d.identity < e.identity))
        ++ e :: es.filter (fun d => decide (e.identity < d.identity)) := by
  induction es with
  | nil => rfl
  | cons d ds ih =>
    have hd : d.identity ≠ e.identity := he d (by simp)
    have hds : ∀ c ∈ ds, c.identity ≠ e.identity := fun c hc => he c (by simp [hc])
    obtain ⟨h1, h2⟩ := List.pairwise_cons.1 h
    by_cases hlt : e.identity < d.identity
    · have hgt : ¬d.identity < e.identity := by omega
      have hall : ∀ c ∈ ds, e.identity < c.identity := fun c hc => Nat.lt_trans hlt (h1 c hc)
      simp only [insertEntry, hlt, if_true, List.filter_cons, hgt, decide_true,
        decide_false, Bool.false_eq_true, if_false]
      rw [List.filter_eq_nil_iff.2 (fun c hc => by simpa using Nat.le_of_lt (hall c hc)),
        List.filter_eq_self.2 (fun c hc => by simpa using hall c hc)]
      rfl
    · have hgt : d.identity < e.identity := by omega
      simp only [insertEntry, hlt, if_false, List.filter_cons, hgt, decide_true,
        decide_false, Bool.false_eq_true, if_true, ih h2 hds]
      rfl

theorem mem_insertHomePort (n m : Nat) (l : List Nat) : m ∈ insertHomePort n l ↔ m = n ∨ m ∈ l := by
  induction l with
  | nil => simp [insertHomePort]
  | cons k l ih =>
    unfold insertHomePort
    split
    · simp
    · split
      · rename_i h; subst h; simp
      · simp only [List.mem_cons, ih]; tauto

theorem pairwise_insertHomePort (n : Nat) {l : List Nat} (h : l.Pairwise (· < ·)) :
    (insertHomePort n l).Pairwise (· < ·) := by
  induction l with
  | nil => simp [insertHomePort]
  | cons k l ih =>
    obtain ⟨h1, h2⟩ := List.pairwise_cons.1 h
    unfold insertHomePort
    split
    · rename_i hlt
      refine List.pairwise_cons.2 ⟨fun m hm => ?_, h⟩
      rcases List.mem_cons.1 hm with rfl | hm
      · exact hlt
      · exact Nat.lt_trans hlt (h1 m hm)
    · split
      · exact h
      · refine List.pairwise_cons.2 ⟨fun m hm => ?_, ih h2⟩
        rcases (mem_insertHomePort n m l).1 hm with rfl | hm
        · omega
        · exact h1 m hm

/-- The stored home ports are the numbers of the order, in ascending order without repeats (R32). -/
theorem homePortsOf_spec (ns : List Nat) (l : List Nat) (h : homePortsOf ns = some l) :
    ns ≠ [] ∧ l.Pairwise (· < ·) ∧ ∀ m, m ∈ l ↔ m ∈ ns := by
  unfold homePortsOf at h
  split at h
  · cases h
  · rename_i hne
    cases h
    refine ⟨hne, ?_, ?_⟩
    · clear hne
      induction ns with
      | nil => simp
      | cons n ns ih => exact pairwise_insertHomePort n ih
    · intro m
      clear hne
      induction ns with
      | nil => simp
      | cons n ns ih => simp [mem_insertHomePort, ih]

/-! ### The lowest free id and leg -/

/-- The lowest free id is free, every lower one is held, and it is in range (R88). -/
theorem State.lowestFreeId_eq_some {s : State} {n : Nat} (h : s.lowestFreeId = some n) :
    n < 160 ∧ (∀ c ∈ s.connections, c.id ≠ n) ∧ ∀ m, m < n → ∃ c ∈ s.connections, c.id = m := by
  unfold State.lowestFreeId Config.tableSize at h
  obtain ⟨hn, i, hi, hin, hlow⟩ := List.find?_eq_some_iff_getElem.1 h
  simp only [List.getElem_range] at hin hlow
  subst hin
  refine ⟨by simpa using hi, by simpa using hn, fun m hm => ?_⟩
  have := hlow m hm
  simp only [Bool.not_eq_true', List.all_eq_false, bne_iff_ne, ne_eq, not_not] at this
  exact this

/-- The lowest free leg is free and every lower one is held (R134). -/
theorem State.lowestFreeLeg_eq_some {s : State} {n : Nat} (h : s.lowestFreeLeg = some n) :
    n < 64 ∧ s.leg n = none ∧ ∀ m, m < n → s.leg m ≠ none := by
  unfold State.lowestFreeLeg at h
  obtain ⟨hn, i, hi, hin, hlow⟩ := List.find?_eq_some_iff_getElem.1 h
  simp only [List.getElem_range] at hin hlow
  subst hin
  refine ⟨by simpa using hi, by simpa using hn, fun m hm => ?_⟩
  have := hlow m hm
  simp only [Bool.not_eq_true', Option.isNone_eq_false_iff] at this
  exact Option.isSome_iff_ne_none.1 this

theorem State.lowestFreeLeg_eq_none {s : State} :
    s.lowestFreeLeg = none ↔ ∀ n, n < 64 → s.leg n ≠ none := by
  unfold State.lowestFreeLeg
  simp [List.find?_eq_none]

/-! ### Preemption and the making of a record -/

/-- All that the preemption of a slot can do. -/
theorem Work.preempt_onlyCalls (w : Work) (v : Nat) : OnlyCalls w.state (w.preempt v).state :=
  w.releaseWhere_onlyCalls _ _

/-- The records that name the victim slot leave the table, and no other (R121). -/
theorem Work.preempt_connections (w : Work) (v : Nat)
    (h : w.state.connections.Pairwise fun c d => c.id < d.id) :
    (w.preempt v).state.connections = w.state.connections.filter fun c => !c.names (96 + v) :=
  w.releaseWhere_connections _ _ h

theorem Work.preempt_foldl_onlyCalls (vs : List Nat) (w : Work) :
    OnlyCalls w.state (vs.foldl Work.preempt w).state := by
  induction vs generalizing w with
  | nil => exact OnlyCalls.refl _
  | cons v vs ih => exact (w.preempt_onlyCalls v).trans (ih _)

theorem Work.enterSlot_onlyCalls (w : Work) (e : Nat) : OnlyCalls w.state (w.enterSlot e).state :=
  w.recount_onlyCalls _ _

theorem Work.enterSlots_onlyCalls (es : List Nat) (w : Work) :
    OnlyCalls w.state (es.foldl Work.enterSlot w).state := by
  induction es generalizing w with
  | nil => exact OnlyCalls.refl _
  | cons e es ih => exact (w.enterSlot_onlyCalls e).trans (ih _)

@[simp] theorem Work.enterSlots_connections (es : List Nat) (w : Work) :
    (es.foldl Work.enterSlot w).state.connections = w.state.connections := by
  induction es generalizing w with
  | nil => rfl
  | cons e es ih => simp [ih, Work.enterSlot]

@[simp] theorem Work.recount_legs (w : Work) (g : Nat) (f : Nat → Nat) :
    (w.recount g f).state.legs = w.state.legs := by
  unfold Work.recount; rw [Work.reevaluate_state]; rfl

@[simp] theorem Work.recount_keys (w : Work) (g : Nat) (f : Nat → Nat) :
    (w.recount g f).state.keys = w.state.keys := by
  unfold Work.recount; rw [Work.reevaluate_state]; rfl

@[simp] theorem Work.recount_watches (w : Work) (g : Nat) (f : Nat → Nat) :
    (w.recount g f).state.watches = w.state.watches := by
  unfold Work.recount; rw [Work.reevaluate_state]; rfl

@[simp] theorem Work.enterSlots_legs (es : List Nat) (w : Work) :
    (es.foldl Work.enterSlot w).state.legs = w.state.legs := by
  induction es generalizing w with
  | nil => rfl
  | cons e es ih => simp [ih, Work.enterSlot]

@[simp] theorem Work.enterSlots_keys (es : List Nat) (w : Work) :
    (es.foldl Work.enterSlot w).state.keys = w.state.keys := by
  induction es generalizing w with
  | nil => rfl
  | cons e es ih => simp [ih, Work.enterSlot]

@[simp] theorem Work.enterSlots_watches (es : List Nat) (w : Work) :
    (es.foldl Work.enterSlot w).state.watches = w.state.watches := by
  induction es generalizing w with
  | nil => rfl
  | cons e es ih => simp [ih, Work.enterSlot]

theorem State.allocateLeg_onlyCalls (s : State) (start : Byte) (part : PrivacyPart) :
    OnlyCalls s (s.allocateLeg start part) := rfl

/-- All that making a record can do. -/
theorem Work.makeConnection_onlyCalls (w : Work) (r : ConnectRequest) (c : Connection) :
    OnlyCalls w.state (w.makeConnection r c).state := by
  unfold Work.makeConnection
  refine OnlyCalls.trans ?_ (Work.enterSlots_onlyCalls _ _)
  cases c.privacy <;> rfl

/-- Making a record puts it into the table, and changes no other. -/
@[simp] theorem Work.makeConnection_connections (w : Work) (r : ConnectRequest) (c : Connection) :
    (w.makeConnection r c).state.connections = insertConnection c w.state.connections := by
  unfold Work.makeConnection
  simp only [Work.enterSlots_connections]
  cases c.privacy <;> rfl

/-- The legs after a record has been made (R134). -/
theorem Work.makeConnection_leg (w : Work) (r : ConnectRequest) (c : Connection) (n : Nat) :
    (w.makeConnection r c).state.leg n =
      match c.privacy with
      | none => w.state.leg n
      | some part =>
        if n = part.leg ∧ part.leg < 64 then
          some
            { key := part.key
              state :=
                match part.direction with
                | .scramble => .waitingScramble r.start
                | .descramble => .waitingDescramble }
        else w.state.leg n := by
  unfold Work.makeConnection
  simp only [State.leg, Work.enterSlots_legs]
  cases h : c.privacy with
  | none => rfl
  | some part =>
    simp only [Work.update_state, Option.map_some, Option.getD_some]
    exact State.leg_setLeg _ part.leg n _

/-- The key contexts after a record has been made (R134). -/
theorem Work.makeConnection_key (w : Work) (r : ConnectRequest) (c : Connection) (n : Nat) :
    (w.makeConnection r c).state.key n =
      match c.privacy with
      | none => w.state.key n
      | some part =>
        if n = part.key ∧ part.key < 32 then
          { w.state.key part.key with useCount := (w.state.key part.key).useCount + 1 }
        else w.state.key n := by
  unfold Work.makeConnection
  simp only [State.key, Work.enterSlots_keys]
  cases h : c.privacy with
  | none => rfl
  | some part =>
    simp only [Work.update_state, Option.map_some, Option.getD_some]
    exact State.key_setKey _ part.key n _

/-- Making a record touches no watch. -/
@[simp] theorem Work.makeConnection_watches (w : Work) (r : ConnectRequest) (c : Connection) :
    (w.makeConnection r c).state.watches = w.state.watches := by
  unfold Work.makeConnection
  simp only [Work.enterSlots_watches]
  cases c.privacy <;> rfl

end Sys2Proof.Machine
end

