-- ==== Sys2Proof/Laws/Frames.lean ====
section
/-! SUPPORT. The keystream lemmas, what one frame does to one leg, and what promoting and carrying one
record can do to the state (R74 to R83, R102, R103, R136 to R141, R162). -/

namespace Sys2Proof.Machine

/-! ### Keystream arithmetic as numbers (R74 to R82) -/

/-- R74 as the manual writes it. -/
theorem generatorStep_toNat (c s : Word16) :
    (generatorStep c s).toNat = (5 * s.toNat + c.toNat) % 65536 := by
  simp [generatorStep, BitVec.toNat_add, BitVec.toNat_mul]

/-- R75 as the manual writes it. -/
theorem keystreamByte_toNat (s : Word16) : (keystreamByte s).toNat = s.toNat / 256 := by
  have := s.isLt
  simp [keystreamByte, BitVec.extractLsb'_toNat, Nat.shiftRight_eq_div_pow]
  omega

/-- R77 as the manual writes it. -/
theorem periodSeed_toNat (seed : Word16) (q : Byte) :
    (periodSeed seed q).toNat = (seed.toNat + 257 * q.toNat) % 65536 := by
  have := q.isLt
  simp [periodSeed, BitVec.toNat_add, BitVec.toNat_mul]

/-- R80 as the manual writes it. -/
theorem scramble_toNat (x k : Byte) : (scramble x k).toNat = (x.toNat + k.toNat) % 256 := by
  simp [scramble, BitVec.toNat_add]

/-- R80 and R81: unscrambling gives the sample back. -/
theorem unscramble_scramble (x k : Byte) : unscramble (scramble x k) k = x := by
  simp [unscramble, scramble]

/-- R76: the increment is odd. -/
theorem forceOdd_odd (c : Word16) : (forceOdd c).getLsbD 0 = true := by
  unfold forceOdd
  cases h : c.getLsbD 0
  · simp only [Bool.false_eq_true, if_false]
    have : c.toNat % 2 = 0 := by
      rw [BitVec.getLsbD, Nat.testBit_zero] at h
      simpa using h
    rw [BitVec.getLsbD, Nat.testBit_zero]
    simp only [decide_eq_true_eq, BitVec.toNat_add]
    have e : (1 : Word16).toNat = 1 := rfl
    have := c.isLt
    rw [e]
    omega
  · simpa using h

/-! ### One frame of one leg, by its state -/

section legs

variable (key : KeyContext) (mute : Byte)

@[simp] theorem legFrame_running (q j : Byte) (s : Word16) (x : Byte) :
    legFrame key mute (.running q j s) x = scrambleFrame key.use q j s x := rfl

@[simp] theorem legFrame_hunt (h : Byte) (table : List HuntEntry) (y : Byte) :
    legFrame key mute (.hunt h table) y = huntFrame key mute h table y := rfl

@[simp] theorem legFrame_synced_zero (q : Byte) (s : Word16) (misses : Nat) (last y : Byte) :
    legFrame key mute (.synced q 0 s misses last) y = syncFrame key q misses last y := rfl

theorem legFrame_synced_ne {j : Byte} (hj : j ≠ 0) (q : Byte) (s : Word16) (misses : Nat)
    (last y : Byte) :
    legFrame key mute (.synced q j s misses last) y = unscrambleFrame key.use q j s misses y := by
  exact if_neg hj

/-- R136: the clear period number stands in place of the sample at position 0. -/
theorem scrambleFrame_zero (m : KeyMaterial) (q : Byte) (s : Word16) (x : Byte) :
    scrambleFrame m q 0 s x =
      { state := .running q 1 (periodSeed m.seed q), sample := q, locked := none, lost := none } :=
  rfl

/-- R136: a scrambled sample at every other position. -/
theorem scrambleFrame_ne {j : Byte} (hj : j ≠ 0) (m : KeyMaterial) (q : Byte) (s : Word16)
    (x : Byte) :
    scrambleFrame m q j s x =
      { state := .running (nextPeriod q j) (nextPosition j) (generatorStep m.increment s)
        sample := scramble x (keystreamByte (generatorStep m.increment s))
        locked := none
        lost := none } := by
  simp only [scrambleFrame, if_neg hj]

/-- R140: a sync check that finds the expected period number. -/
theorem syncFrame_hit (q : Byte) (misses : Nat) (last : Byte) :
    syncFrame key q misses last q =
      { state := .synced q 1 (periodSeed key.use.seed q) 0 last
        sample := last
        locked := none
        lost := none } := by
  simp [syncFrame, nextPeriod, nextPosition]

/-- A WAITING leg carries nothing (log entry 17). -/
@[simp] theorem legFrame_waiting {l : LegState} (h : l.isWaiting = true) (y : Byte) :
    legFrame key mute l y = { state := l, sample := mute, locked := none, lost := none } := by
  cases l <;> first | rfl | cases h

/-- A leg keeps its direction through a frame. -/
theorem legFrame_direction (l : LegState) (y : Byte) :
    (legFrame key mute l y).state.direction = l.direction := by
  cases l with
  | waitingScramble => rfl
  | waitingDescramble => rfl
  | running q j s => rfl
  | hunt h table => simp only [legFrame_hunt, huntFrame]; split <;> rfl
  | synced q j s misses last =>
    unfold legFrame
    by_cases hj : j = 0
    · simp only [hj, if_true, syncFrame]; split <;> split <;> rfl
    · simp only [hj, if_false]; rfl

/-- A leg that has started does not wait again. -/
theorem legFrame_isWaiting (l : LegState) (y : Byte) :
    (legFrame key mute l y).state.isWaiting = l.isWaiting := by
  cases l with
  | waitingScramble => rfl
  | waitingDescramble => rfl
  | running q j s => rfl
  | hunt h table => simp only [legFrame_hunt, huntFrame]; split <;> rfl
  | synced q j s misses last =>
    unfold legFrame
    by_cases hj : j = 0
    · simp only [hj, if_true, syncFrame]; split <;> split <;> rfl
    · simp only [hj, if_false]; rfl

@[simp] theorem legRun_nil (l : LegState) : legRun key mute l [] = ([], l) := rfl

@[simp] theorem legRun_cons (l : LegState) (x : Byte) (xs : List Byte) :
    legRun key mute l (x :: xs) =
      ((legFrame key mute l x).sample
          :: (legRun key mute (legFrame key mute l x).state xs).1,
        (legRun key mute (legFrame key mute l x).state xs).2) := rfl

theorem legRun_append (l : LegState) (xs ys : List Byte) :
    legRun key mute l (xs ++ ys) =
      ((legRun key mute l xs).1 ++ (legRun key mute (legRun key mute l xs).2 ys).1,
        (legRun key mute (legRun key mute l xs).2 ys).2) := by
  induction xs generalizing l with
  | nil => simp
  | cons x xs ih => simp [ih]

/-- A leg gives back one sample for each sample. -/
theorem legRun_length (l : LegState) (xs : List Byte) :
    (legRun key mute l xs).1.length = xs.length := by
  induction xs generalizing l with
  | nil => rfl
  | cons x xs ih => simp [ih]

end legs

/-- R135: what the start of a leg makes of its state, as the model and as the claims say it. -/
theorem startedLeg_eq (key : KeyContext) (l : Leg) :
    startedLeg key false l = l.state.started key.use.seed := by
  unfold startedLeg LegState.started KeyContext.use
  cases h : l.state <;> cases hm : key.material <;> rfl

/-! ### Promoting and carrying -/

/-- t is s with other connections, legs, watches and outgoing samples. -/
def OnlyFrames (s t : State) : Prop :=
  t = { s with
    connections := t.connections, legs := t.legs, watches := t.watches, outgoing := t.outgoing }

theorem OnlyFrames.refl (s : State) : OnlyFrames s s := rfl

theorem OnlyFrames.trans {s t u : State} (h : OnlyFrames s t) (h' : OnlyFrames t u) :
    OnlyFrames s u := by
  unfold OnlyFrames at *
  rw [h', h]

theorem Work.raiseAll_state (w : Work) (es : List Event) :
    (es.foldl Work.raise w).state = w.state := by
  induction es generalizing w with
  | nil => rfl
  | cons e es ih => exact ih _

theorem Work.raiseAll_events (w : Work) (es : List Event) :
    (es.foldl Work.raise w).events = w.events ++ es := by
  induction es generalizing w with
  | nil => simp
  | cons e es ih => simp [ih]

theorem State.startLeg_onlyFrames (s : State) (c : Connection) : OnlyFrames s (s.startLeg c) := by
  unfold State.startLeg
  split
  · exact OnlyFrames.refl s
  · split <;> rfl

theorem Work.examine_onlyFrames (w : Work) (c : Connection) (n : Nat) :
    OnlyFrames w.state (w.examine c n).state := by
  unfold Work.examine
  split
  · split
    · dsimp only
      split <;> rfl
    · rfl
  · rfl
  · rfl

/-- All that promoting one record can do. -/
theorem Work.promote_onlyFrames (w : Work) (c : Connection) :
    OnlyFrames w.state (w.promote c).state := by
  unfold Work.promote
  have h : ∀ (ns : List Nat) (w : Work),
      OnlyFrames w.state (ns.foldl (fun w n => w.examine c n) w).state := by
    intro ns
    induction ns with
    | nil => exact fun w => OnlyFrames.refl _
    | cons n ns ih => exact fun w => (w.examine_onlyFrames c n).trans (ih _)
  refine OnlyFrames.trans ?_ (h _ _)
  exact OnlyFrames.trans (t := w.state.mapConnection c.id fun d => { d with live := true }) rfl
    (State.startLeg_onlyFrames _ c)

/-- All that carrying one record's sample can do. -/
theorem Work.carry_onlyFrames (w : Work) (c : Connection) :
    OnlyFrames w.state (w.carry c).state := by
  unfold Work.carry
  split
  · rfl
  · split
    · rfl
    · rw [Work.raiseAll_state]; rfl

theorem Work.promoteAll_onlyFrames (w : Work) : OnlyFrames w.state w.promoteAll.state := by
  unfold Work.promoteAll
  generalize w.state.connections.filter (fun c => !c.live) = cs
  induction cs generalizing w with
  | nil => exact OnlyFrames.refl _
  | cons c cs ih => exact (w.promote_onlyFrames c).trans (ih _)

theorem Work.carryAll_onlyFrames (w : Work) : OnlyFrames w.state w.carryAll.state := by
  unfold Work.carryAll
  generalize w.state.connections.filter (fun c => c.live) = cs
  induction cs generalizing w with
  | nil => exact OnlyFrames.refl _
  | cons c cs ih => exact (w.carry_onlyFrames c).trans (ih _)

/-- Carrying changes no record and no watch. -/
@[simp] theorem Work.carry_connections (w : Work) (c : Connection) :
    (w.carry c).state.connections = w.state.connections := by
  unfold Work.carry
  split
  · rfl
  · split
    · rfl
    · rw [Work.raiseAll_state]; rfl

@[simp] theorem Work.carry_watches (w : Work) (c : Connection) :
    (w.carry c).state.watches = w.state.watches := by
  unfold Work.carry
  split
  · rfl
  · split
    · rfl
    · rw [Work.raiseAll_state]; rfl

@[simp] theorem Work.examine_outgoing (w : Work) (c : Connection) (n : Nat) :
    (w.examine c n).state.outgoing = w.state.outgoing := by
  unfold Work.examine
  split
  · split
    · dsimp only
      split <;> rfl
    · rfl
  · rfl
  · rfl

/-- Promoting changes no outgoing sample. -/
@[simp] theorem Work.promote_outgoing (w : Work) (c : Connection) :
    (w.promote c).state.outgoing = w.state.outgoing := by
  unfold Work.promote
  have h : ∀ (ns : List Nat) (w : Work),
      (ns.foldl (fun w n => w.examine c n) w).state.outgoing = w.state.outgoing := by
    intro ns
    induction ns with
    | nil => exact fun w => rfl
    | cons n ns ih =>
      intro w
      exact (ih _).trans (w.examine_outgoing c n)
  rw [h]
  simp only [Work.update_state]
  unfold State.startLeg
  split
  · rfl
  · split <;> rfl

end Sys2Proof.Machine
end

