-- ==== Sys2Proof/Laws/Stations.lean ====
section
/-! SUPPORT. What placing a message, an abandonment, the clearing of a position, the loss of a link and
a counted failure can do to the state (R49 to R51, R55, R59, R65). -/

namespace Sys2Proof.Machine

/-! ### Station records -/

@[simp] theorem State.setStation_setStation (s : State) (n : Nat) (v v' : Station) :
    (s.setStation n v).setStation n v' = s.setStation n v' := by
  simp [State.setStation]

/-- A position that no record has, has no state to leave. -/
theorem State.station_of_ge (s : State) {n : Nat} (h : 96 ≤ n) : s.station n = Station.reset := by
  simp [State.station, h]

/-- The slot after a message has been placed is the one the manual gives (R55). -/
theorem State.placeMessage_eq (s : State) (n : Nat) (m : StationMessage) :
    s.placeMessage n m = s.setStation n { s.station n with slot := s.slotWith n m } := by
  simp [State.placeMessage, State.slotWith, linePortOf]

theorem State.slotWith_setStation (s : State) (n k : Nat) (v : Station) (m : StationMessage) :
    (s.setStation k v).slotWith n m = s.slotWith n m := rfl

/-- All that placing a message does to the station records. -/
theorem State.placeMessage_station (s : State) (n m : Nat) (message : StationMessage) :
    (s.placeMessage n message).station m =
      if m = n ∧ n < 96 then { s.station n with slot := s.slotWith n message } else s.station m := by
  rw [State.placeMessage_eq, State.station_setStation]

theorem State.placeMessage_onlyStations (s : State) (n : Nat) (m : StationMessage) :
    OnlyCallsAndStations s (s.placeMessage n m) := rfl

theorem State.emptySlot_onlyStations (s : State) (n : Nat) :
    OnlyCallsAndStations s (s.emptySlot n) := rfl

/-! ### Abandonment (R65) -/

/-- What an abandonment does to a CHALLENGED record, and to the events. -/
theorem Work.abandon_challenged (w : Work) (r : RefusalReason) {n : Nat} (hn : n < 96)
    {i : Nat} {h e : Word16} {d : Nat} (hs : (w.state.station n).state = .challenged i h e d) :
    w.abandon r n =
      { state := w.state.setStation n
          { w.state.station n with state := .vacant, slot := w.state.slotWith n (.refuse r) }
        events := w.events ++ [.refused n i r false (w.state.station n).failures] } := by
  unfold Work.abandon
  simp [hs, Work.update, Work.raise, State.setStationState, State.placeMessage_eq,
    State.station_setStation_same _ hn, State.slotWith_setStation]

/-- An abandonment touches no record that is not CHALLENGED. -/
theorem Work.abandon_other (w : Work) (r : RefusalReason) (n : Nat)
    (hs : (w.state.station n).state.challengedIdentity = none) : w.abandon r n = w := by
  unfold Work.abandon
  split
  · rename_i h; rw [h] at hs; cases hs
  · rfl

/-- An abandonment changes station records alone. -/
theorem Work.abandon_onlyCallsAndStations (w : Work) (r : RefusalReason) (n : Nat) :
    OnlyCallsAndStations w.state (w.abandon r n).state := by
  unfold Work.abandon
  split <;> rfl

@[simp] theorem Work.abandon_connections (w : Work) (r : RefusalReason) (n : Nat) :
    (w.abandon r n).state.connections = w.state.connections := by
  unfold Work.abandon
  split <;> rfl

/-! ### Withdrawals, read at one position -/

/-- What a withdrawal does to the record of every position. -/
theorem Work.withdraw_station (w : Work) (r : ReleaseReason) {n : Nat} (hn : n < 96) (m : Nat) :
    (w.withdraw r n).state.station m =
      match (w.state.station n).state with
      | .admitted _ => if m = n then (w.state.station n).withdrawn else w.state.station m
      | _ => w.state.station m := by
  have h := w.withdraw_stations r n
  have key : (w.withdraw r n).state.station m
      = ((w.withdraw r n).state.stations[m]?).getD Station.reset := rfl
  rw [key, h]
  rcases hs : (w.state.station n).state with _ | _ | _ | _ | _ <;>
    first
    | rfl
    | exact (State.station_setStation w.state n m _).trans (by simp [hn, Station.withdrawn])

/-! ### The clearing of a position (R49, R50) -/

theorem Work.clearPosition_onlyCallsAndStations (w : Work) (r : ReleaseReason) (n : Nat) :
    OnlyCallsAndStations w.state (w.clearPosition r n).state := by
  unfold Work.clearPosition
  refine OnlyCallsAndStations.trans ?_ (State.emptySlot_onlyStations _ n)
  split
  · exact w.withdraw_onlyCallsAndStations r n
  · rfl
  · rfl
  · exact OnlyCallsAndStations.refl _
  · exact OnlyCallsAndStations.refl _

/-- What clearing a position does to the record of every position. -/
theorem Work.clearPosition_station (w : Work) (r : ReleaseReason) {n : Nat} (hn : n < 96) (m : Nat) :
    (w.clearPosition r n).state.station m =
      if m = n then (w.state.station n).cleared else w.state.station m := by
  unfold Work.clearPosition
  rcases hs : (w.state.station n).state with _ | _ | _ | _ | _ <;>
    simp only [Work.update_state, State.emptySlot, State.setStationState,
      State.station_setStation, Work.withdraw_station _ _ hn, hs, hn, and_true, if_true,
      Station.cleared, Station.withdrawn] <;>
    (by_cases hm : m = n <;> simp [hm])

/-- What clearing a position does to the connection table: a withdrawal's releases for an ADMITTED
station, nothing for another. -/
theorem Work.clearPosition_connections (w : Work) (r : ReleaseReason) (n : Nat)
    (h : w.state.connections.Pairwise fun c d => c.id < d.id) :
    (w.clearPosition r n).state.connections =
      match (w.state.station n).state with
      | .admitted _ => w.state.connections.filter fun c => !withdrawalSelects n c
      | _ => w.state.connections := by
  have hw := w.withdraw_connections r n h
  unfold Work.clearPosition
  rcases hs : (w.state.station n).state with _ | _ | _ | _ | _ <;>
    first
    | rfl
    | (rw [hs] at hw; exact hw)

/-! ### The loss of a link (R51) -/

theorem Work.loseLink_onlyCallsAndStations (w : Work) (n : Nat) :
    OnlyCallsAndStations w.state (w.loseLink n).state := by
  unfold Work.loseLink
  refine OnlyCallsAndStations.trans ?_ (State.emptySlot_onlyStations _ n)
  split
  · exact w.withdraw_onlyCallsAndStations _ n
  · rfl
  · exact OnlyCallsAndStations.refl _
  · exact OnlyCallsAndStations.refl _
  · exact OnlyCallsAndStations.refl _

/-- What the loss of the link does to the record of every position. -/
theorem Work.loseLink_station (w : Work) {n : Nat} (hn : n < 96) (m : Nat) :
    (w.loseLink n).state.station m =
      if m = n then (w.state.station n).lost else w.state.station m := by
  unfold Work.loseLink
  rcases hs : (w.state.station n).state with _ | _ | _ | _ | _ <;>
    simp only [Work.update_state, State.emptySlot, State.setStationState,
      State.station_setStation, Work.withdraw_station _ _ hn, hs, hn, and_true, if_true,
      Station.lost, Station.withdrawn] <;>
    (by_cases hm : m = n <;> simp [hm])

/-- What the loss of the link does to the connection table. -/
theorem Work.loseLink_connections (w : Work) (n : Nat)
    (h : w.state.connections.Pairwise fun c d => c.id < d.id) :
    (w.loseLink n).state.connections =
      match (w.state.station n).state with
      | .admitted _ => w.state.connections.filter fun c => !withdrawalSelects n c
      | _ => w.state.connections := by
  have hw := w.withdraw_connections .linkLost n h
  unfold Work.loseLink
  rcases hs : (w.state.station n).state with _ | _ | _ | _ | _ <;>
    first
    | rfl
    | (rw [hs] at hw; exact hw)

/-! ### The counted failure (R59) -/

/-- All that a counted failure does to the state. -/
theorem Work.countFailure_state (w : Work) {n : Nat} (hn : n < 96) (i : Nat) (r : RefusalReason) :
    (w.countFailure n i r).state = w.state.setStation n
      { w.state.station n with
        slot := w.state.slotWith n (.refuse r)
        failures := (w.state.station n).failures + 1
        state :=
          if w.state.lockoutCount ≤ (w.state.station n).failures + 1 then .locked
          else .holdOff (w.state.after w.state.holdOffTime) } := by
  unfold Work.countFailure
  rw [show ∀ (b : Bool) (x y : Work), (if b = true then x else y).state
    = if b = true then x.state else y.state from fun b _ _ => by cases b <;> rfl]
  simp [State.placeMessage_eq, State.station_setStation_same _ hn, State.after]

/-- The events of a counted failure. -/
theorem Work.countFailure_events (w : Work) {n : Nat} (hn : n < 96) (i : Nat) (r : RefusalReason) :
    (w.countFailure n i r).events = w.events ++
      .refused n i r true ((w.state.station n).failures + 1)
        :: if w.state.lockoutCount ≤ (w.state.station n).failures + 1 then
            [.lockedOut n ((w.state.station n).failures + 1)]
          else [] := by
  unfold Work.countFailure
  rw [show ∀ (b : Bool) (x y : Work), (if b = true then x else y).events
    = if b = true then x.events else y.events from fun b _ _ => by cases b <;> rfl]
  simp only [State.placeMessage_eq, Work.update_state, State.station_setStation_same _ hn,
    State.setStation_lockoutCount, decide_eq_true_eq]
  split <;> simp

end Sys2Proof.Machine
end

