-- ==== Sys2Proof/Laws/Restarts.lean ====
section
/-! SUPPORT. What the start of a restart, the end of the RESTARTING period and the reports of links can
do to the state (R51, R170, R173, R174). -/

namespace Sys2Proof.Machine

/-! ### A cold restart -/

/-- The lines at the start of a cold restart: cold values, and the message being sent. -/
theorem State.startCold_line (s : State) (cause : RestartCause) {n : Nat} (hn : n < 48) :
    (s.startCold cause).line n = { LinePort.reset with sending := (s.line n).sending } := by
  simp [State.line, State.startCold, hn]

@[simp] theorem State.startCold_station (s : State) (cause : RestartCause) (n : Nat) :
    (s.startCold cause).station n = Station.reset := by
  by_cases h : n < 96 <;> simp [State.station, State.startCold, State.reset, h]

@[simp] theorem State.startCold_leg (s : State) (cause : RestartCause) (n : Nat) :
    (s.startCold cause).leg n = none := by
  by_cases h : n < 64 <;> simp [State.leg, State.startCold, State.reset, h]

@[simp] theorem State.startCold_key (s : State) (cause : RestartCause) (n : Nat) :
    (s.startCold cause).key n = KeyContext.reset := by
  by_cases h : n < 32 <;> simp [State.key, State.startCold, State.reset, h]

@[simp] theorem State.startCold_group (s : State) (cause : RestartCause) (n : Nat) :
    (s.startCold cause).group n = Group.reset := by
  by_cases h : n < 8 <;> simp [State.group, State.startCold, State.reset, h]

@[simp] theorem State.startCold_slot (s : State) (cause : RestartCause) (n : Nat) :
    (s.startCold cause).slot n = TrunkSlot.reset := by
  by_cases h : n < 64 <;> simp [State.slot, State.startCold, State.reset, h]

@[simp] theorem State.startCold_watch (s : State) (cause : RestartCause) (n : Nat) :
    (s.startCold cause).watch n = .idle := by
  by_cases h : n < 4 <;> simp [State.watch, State.startCold, State.reset, h]

@[simp] theorem State.startCold_connections (s : State) (cause : RestartCause) :
    (s.startCold cause).connections = [] := rfl

@[simp] theorem State.startCold_directory (s : State) (cause : RestartCause) :
    (s.startCold cause).directory = [] := rfl

theorem State.startCold_port (s : State) (cause : RestartCause) (p : Port) :
    (s.startCold cause).port p = restartPort cause .ungated (s.port p) := by cases p <;> rfl

/-! ### A call-keeping restart -/

theorem State.keepTables_port (s : State) (cause : RestartCause) (p : Port) :
    (s.keepTables cause).port p = restartPort cause (s.port p).mode (s.port p) := by
  cases p <;> rfl

theorem State.keepTables_line (s : State) (cause : RestartCause) {n : Nat} (hn : n < 48) :
    (s.keepTables cause).line n = { s.line n with lastSecond := true } := by
  simp [State.line, State.keepTables, hn]

/-- R53: a position's record at the start of a call-keeping restart. -/
theorem State.keepTables_station (s : State) (cause : RestartCause) (n : Nat) :
    (s.keepTables cause).station n = (s.station n).keptByRestart := by
  by_cases h : n < 96
  · simp [State.station, State.keepTables, h]
  · simp [State.station, State.keepTables, h, Station.keptByRestart, Station.reset]

/-- The tables of a call-keeping restart, and the releases of the PENDING records after them. -/
theorem State.startKeep_onlyCallTables (s : State) (cause : RestartCause) :
    OnlyCallTables (s.keepTables cause) (s.startKeep cause) := by
  unfold State.startKeep Work.finish
  exact (Work.releaseWhere_onlyCalls (Work.start (s.keepTables cause)) none _).releases _

/-- R109: the LIVE records stay, the PENDING ones are gone. -/
theorem State.startKeep_connections (s : State) (cause : RestartCause)
    (h : s.connections.Pairwise fun c d => c.id < d.id) :
    (s.startKeep cause).connections = s.connections.filter fun c => c.live := by
  unfold State.startKeep Work.finish
  rw [State.postAll_connections, Work.releaseWhere_connections]
  · simp only [Work.start_state, Bool.not_not]; rfl
  · exact h

/-! ### The reports of links -/

/-- t is s with other lines, and what withdrawals change. -/
def OnlyLinks (s t : State) : Prop :=
  t = { s with
    lines := t.lines, connections := t.connections, legs := t.legs, keys := t.keys
    groups := t.groups, watches := t.watches, stations := t.stations }

theorem OnlyLinks.refl (s : State) : OnlyLinks s s := rfl

theorem OnlyLinks.trans {s t u : State} (h : OnlyLinks s t) (h' : OnlyLinks t u) : OnlyLinks s u := by
  unfold OnlyLinks at *
  rw [h', h]

theorem OnlyCallsAndStations.links {s t : State} (h : OnlyCallsAndStations s t) : OnlyLinks s t := by
  unfold OnlyCallsAndStations OnlyLinks at *
  rw [h]

/-- All that a report of a link can do. -/
theorem Work.reportLink_onlyLinks (w : Work) (n : Nat) (up : Bool) :
    OnlyLinks w.state (w.reportLink n up).state := by
  unfold Work.reportLink
  split
  · exact OnlyLinks.refl _
  · split
    · rfl
    · exact OnlyLinks.trans (t := w.state.setLine n
          { w.state.line n with linkUp := false, sending := none }) rfl
        (((Work.loseLink_onlyCallsAndStations _ _).trans
          (Work.loseLink_onlyCallsAndStations _ _)).links)

/-- A report of the link that is recorded does nothing (R51). -/
theorem Work.reportLink_same (w : Work) (n : Nat) : w.reportLink n (w.state.line n).linkUp = w := by
  simp [Work.reportLink]

/-- All that the reports of every link can do. -/
theorem Work.rereadLinks_onlyLinks (w : Work) (links : List Bool) :
    OnlyLinks w.state (w.rereadLinks links).state := by
  unfold Work.rereadLinks
  generalize List.range 48 = ns
  induction ns generalizing w with
  | nil => exact OnlyLinks.refl _
  | cons n ns ih => exact (w.reportLink_onlyLinks n _).trans (ih _)

/-- The lines after a report of a link (R51). -/
theorem Work.reportLink_line (w : Work) {n : Nat} (hn : n < 48) (up : Bool) (m : Nat) :
    (w.reportLink n up).state.line m =
      if m = n then
        { w.state.line n with
          linkUp := up
          sending :=
            if (w.state.line n).linkUp = true ∧ up = false then none else (w.state.line n).sending }
      else w.state.line m := by
  have hl : ∀ (v : Work) k, (v.loseLink k).state.line m = v.state.line m := by
    intro v k
    rw [v.loseLink_onlyCallsAndStations k]; rfl
  unfold Work.reportLink
  cases up <;> rcases hu : (w.state.line n).linkUp with _ | _ <;>
    simp only [if_true, Bool.false_eq_true, Bool.true_eq_false, if_false,
      Work.raise_state, hl, Work.update_state, State.line_setLine, hn, and_true, and_false,
      and_self] <;>
    (by_cases hm : m = n <;> simp [hm, ← hu])

end Sys2Proof.Machine
end

