-- ==== Sys2Proof/Tests/Slice0.lean ====
section
/-! SUPPORT. Tests of one step each: ill-formed commands, the worked cases and sequences of the manual,
and for each statement with hypotheses a witness that meets them. -/

section

set_option Elab.async false

namespace Sys2Proof.Tests

open Sys2Proof Sys2Proof.Machine

/-! ### Ill-formed commands are refused by WellFormed -/

theorem test_wellFormed_record_too_long :
    WellFormed (.orderTransfer .a .completing (List.replicate 259 0)) = false
      ∧ WellFormed (.orderTransfer .a .completing (List.replicate 258 0)) = true := by
  decide +kernel

theorem test_wellFormed_known_kinds :
    WellFormed (.unknownTransferKind .a (some 0x01)) = false
      ∧ WellFormed (.unknownTransferKind .a (some 0x02)) = false
      ∧ WellFormed (.unknownTransferKind .a (some 0x03)) = false
      ∧ WellFormed (.unknownTransferKind .a (some 0x04)) = true
      ∧ WellFormed (.unknownTransferKind .a none) = true := by decide

theorem test_wellFormed_signal_length :
    WellFormed (.signal 0 []) = false ∧ WellFormed (.signal 0 (List.replicate 9 7)) = false
      ∧ WellFormed (.signal 0 [7]) = true ∧ WellFormed (.signal 0 (List.replicate 8 7)) = true := by
  decide

/-- A LEAVE of the second set is a fit message; a bad set byte, an unknown type and a bad length are
not (R54, R179). -/
theorem test_wellFormed_unfit_message :
    WellFormed (.unfitStationMessage 3 [0x01, 0x03, 0x00]) = false
      ∧ WellFormed (.unfitStationMessage 3 [0x02, 0x03, 0x00]) = true
      ∧ WellFormed (.unfitStationMessage 3 [0x01, 0x05, 0x00]) = true
      ∧ WellFormed (.unfitStationMessage 3 [0x01, 0x03, 0x01, 0x00]) = true := by decide

theorem test_wellFormed_samples :
    WellFormed (.sampleArrival (List.replicate 175 0)) = false
      ∧ WellFormed (.sampleArrival (List.replicate 176 0)) = true := by
  decide +kernel

theorem test_wellFormed_links :
    WellFormed (.restartComplete (List.replicate 47 true)) = false
      ∧ WellFormed (.restartComplete (List.replicate 48 true)) = true := by decide

/-! ### The table's words and the frames of the channels -/

/-- No row of the table gives bits. -/
theorem test_no_word_spells_a_command : decodeTableWord 8 0x01 = none := rfl

/-- The kind bytes of R177, the values beside them, and a transfer that ends before its kind. -/
theorem test_transfer_kinds :
    decodeTransfer .a [0x01, 0x05, 0x07, 0x02, 0x00, 0x32]
        = .orderTransfer .a .completing [0x05, 0x07, 0x02, 0x00, 0x32]
      ∧ decodeTransfer .b [0x02] = .fetchTransfer .b .completing
      ∧ decodeTransfer .m [0x03] = .statusTransfer .m .completing
      ∧ decodeTransfer .a [0x00] = .unknownTransferKind .a (some 0x00)
      ∧ decodeTransfer .a [0x04, 0x01] = .unknownTransferKind .a (some 0x04)
      ∧ decodeTransfer .a [] = .unknownTransferKind .a none := by decide

/-- A REGISTER of identity 4102 from the second set of line port 10 (R179). -/
theorem test_frame_register :
    decodeStationFrame 10 [0x01, 0x01, 0x02, 0x10, 0x06] = .register 21 4102 := by decide

theorem test_frame_signal :
    decodeStationFrame 0 [0x00, 0x04, 0x02, 0x05, 0x06] = .signal 0 [0x05, 0x06] := by decide

/-! ### Keystream arithmetic (05 sections 5.2 to 5.4) -/

/-- The opening of a period: seed 1000, increment 77, period 3; positions 0 to 3. -/
theorem test_scramble_opens_a_period :
    legRun { KeyContext.reset with material := some ⟨1000, 77⟩ } 255 (.running 3 0 0)
      [91, 200, 100, 255] = ([3, 234, 18, 105], .running 3 4 27154) := by decide

/-- The far site in step gives the samples back, and the last delivered sample at position 0. -/
theorem test_unscramble_gives_back :
    legRun { KeyContext.reset with material := some ⟨1000, 77⟩ } 255 (.synced 3 0 0 0 9)
      [3, 234, 18, 105] = ([9, 200, 100, 255], .synced 3 4 27154 0 255) := by decide

/-- Values at their limits: the wrap of the period number and of the sample. -/
theorem test_period_wrap :
    forceOdd 76 = 77 ∧ periodSeed 1000 255 = 999 ∧ periodSeed 1000 0 = 1000
      ∧ periodSeed 65000 255 = 64999 ∧ generatorStep 3 64999 = 62854
      ∧ keystreamByte 62854 = 245 ∧ scramble 250 245 = 239 ∧ unscramble 239 245 = 250 := by decide

/-- An expected response, and the first challenges after a cold restart. -/
theorem test_admission_arithmetic :
    expectedResponse 4660 201 = 60272 ∧ nextChallengeState 1 = 13854 ∧ challengeValue 13854 = 13855
      ∧ nextChallengeState 13854 = 17583 ∧ challengeValue 17583 = 17583
      ∧ nextChallengeState 17583 = 36228 ∧ challengeValue 36228 = 36229 := by decide

/-! ### A small fitted part -/

/-- The part after a restart, Controller A the holder. -/
def ready : State := { State.reset with restart := none, mastership := .held .a 512000 }

/-- A state with one order at the head of a port's queue. -/
def withOrder (s : State) (p : Port) (o : OrderRecord) : State :=
  s.setPort p { s.port p with orders := [o] }

/-- The next state of a command that has one. -/
def after (i : Instr) (s : State) : State :=
  match exec i s with
  | .next t => t
  | _ => s

/-- The state after an order of a code with tag 7, taken from a port. -/
def ordered (s : State) (p : Port) (i : Instr) (code : Byte) (params : List Byte) : State :=
  after i (withOrder s p (queuedOrder code 7 params))

/-- What a port holds for its processor after such an order. -/
def answer (s : State) (p : Port) (i : Instr) (code : Byte) (params : List Byte) : List Entry :=
  ((ordered s p i code params).port p).out

/-- An ENABLED line port with its link UP and pairing ON. -/
def goodLine : LinePort :=
  { LinePort.reset with condition := .enabled, pairing := true, linkUp := true, tolerance := 2 }

/-- Station 0 is ADMITTED with identity 1 (class 3), 4 with identity 4 (REQUIRED); station 1 is
CHALLENGED with identity 2, 2 in HOLD_OFF, 3 LOCKED; identity 3 is SUSPENDED.
Records 0 and 2 are LIVE, 1 PENDING; watch 1 holds record 0. -/
def base : State :=
  ({ ready with
    directory :=
      [{ identity := 1, secret := 4660, precedence := some 7, privacy := .openClass, mask := 255
         homePorts := none, suspended := false },
       { identity := 2, secret := 5, precedence := none, privacy := .required, mask := 3
         homePorts := some [0], suspended := false },
       { identity := 3, secret := 6, precedence := none, privacy := .tieOnly, mask := 255
         homePorts := none, suspended := true },
       { identity := 4, secret := 7, precedence := none, privacy := .required, mask := 3
         homePorts := none, suspended := false }]
    connections :=
      [{ id := 0, live := true, source := 0, destination := 96, callTag := 700, cls := 3
         privacy := none, traceHeld := true },
       { id := 1, live := false, source := 97, destination := 98, callTag := 700, cls := 0
         privacy := none, traceHeld := false },
       { id := 2, live := true, source := 99, destination := 0, callTag := 9, cls := 3
         privacy := some ⟨.descramble, 0, 0⟩, traceHeld := false }] } : State)
    |>.setLine 0 goodLine |>.setLine 1 { goodLine with pairing := false, defaultPrecedence := 5 }
    |>.setLine 2 goodLine |>.setStation 4 ⟨.admitted 4, 0, none, []⟩
    |>.setStation 0 ⟨.admitted 1, 0, none, [[1]]⟩
    |>.setStation 1 ⟨.challenged 2 201 60272 256000, 1, some (.challenge 201), []⟩
    |>.setStation 2 ⟨.holdOff 2048000, 2, none, []⟩ |>.setStation 3 ⟨.locked, 3, none, []⟩
    |>.setSlot 0 ⟨.publicTrunk, 0⟩ |>.setSlot 1 ⟨.tie, 1⟩ |>.setSlot 2 ⟨.tie, 1⟩
    |>.setSlot 3 ⟨.tie, 2⟩ |>.setSlot 4 ⟨.tie, 2⟩ |>.setSlot 5 ⟨.publicTrunk, 1⟩
    |>.setSlot 7 ⟨.tie, 1⟩ |>.setGroup 0 ⟨64, 0, 3, 64, 63, 1, false⟩ |>.setGroup 1 ⟨2, 0, 3, 2, 1, 2, true⟩
    |>.setGroup 2 ⟨3, 1, 3, 2, 0, 1, false⟩
    |>.setKey 0 ⟨some ⟨1000, 77⟩, 2, 3, 1⟩ |>.setLeg 0 (some ⟨0, .synced 5 0 1234 2 9⟩)
    |>.setWatch 0 (.armed 3 false)
    |>.setWatch 1 (.tripped 1 true true ⟨0, 700, 0, .source, 96, none, 5, false⟩)

/-! ### Worked sequences of the manual -/

/-- A line failing with calls up (09 section 9.4): line port 11, positions 22 and 23. -/
def failing : State :=
  ({ ready with
    connections :=
      [⟨2, true, 22, 23, 1, 0, none, false⟩, ⟨3, true, 23, 22, 1, 0, none, false⟩,
       ⟨5, true, 22, 130, 2, 0, some ⟨.scramble, 6, 0⟩, true⟩,
       ⟨6, true, 130, 22, 2, 0, some ⟨.descramble, 6, 1⟩, false⟩,
       ⟨8, true, 163, 23, 3, 0, none, false⟩, ⟨9, false, 23, 101, 4, 0, none, false⟩,
       ⟨12, true, 101, 45, 5, 0, none, false⟩] } : State)
    |>.setLine 11 goodLine |>.setStation 22 ⟨.admitted 4410, 0, none, []⟩
    |>.setStation 23 ⟨.admitted 4411, 0, none, []⟩ |>.setSlot 5 ⟨.publicTrunk, 0⟩
    |>.setSlot 34 ⟨.tie, 2⟩ |>.setGroup 0 ⟨64, 0, 3, 64, 63, 1, false⟩
    |>.setGroup 2 ⟨64, 0, 3, 5, 3, 4, true⟩ |>.setKey 6 ⟨some ⟨1000, 77⟩, 2, 3, 2⟩
    |>.setLeg 0 (some ⟨6, .running 3 1 1771⟩) |>.setLeg 1 (some ⟨6, .startHunt⟩)
    |>.setWatch 0 (.tripped 4410 true true ⟨5, 2, 22, .source, 130, none, 9, false⟩)

theorem test_linkDown_reports_in_order :
    (after (.linkDown 11) failing).portA.out =
      [.event (.released 2 1 .linkLost), .event (.released 3 1 .linkLost),
       .event (.released 5 2 .linkLost), .event (.congestion 2 false 3),
       .event (.released 6 2 .linkLost), .event (.withdrawn 22 4410 .linkLost),
       .event (.released 9 4 .linkLost), .event (.withdrawn 23 4411 .linkLost),
       .event (.link 11 false)] := by decide +kernel

theorem test_linkDown_leaves_the_rest :
    ((after (.linkDown 11) failing).connections.map (·.id)) = [8, 12]
      ∧ ((after (.linkDown 11) failing).key 6).useCount = 0
      ∧ (after (.linkDown 11) failing).leg 0 = none
      ∧ ((after (.linkDown 11) failing).group 0).busy = 1
      ∧ (after (.linkDown 11) failing).watch 0 =
          .tripped 4410 true false ⟨5, 2, 22, .source, 130, none, 9, true⟩ := by decide +kernel

/-- Preemption across two groups (09 section 9.5): station 14 of class 2 to slot 41. -/
def fullGroup : State :=
  ({ ready with
    directory := [⟨4102, 1, some 4, .openClass, 255, none, false⟩]
    connections :=
      [⟨20, true, 136, 146, 5, 0, none, false⟩, ⟨21, true, 12, 138, 6, 2, none, false⟩] } : State)
    |>.setLine 7 goodLine |>.setStation 14 ⟨.admitted 4102, 0, none, []⟩
    |>.setSlot 40 ⟨.tie, 3⟩ |>.setSlot 41 ⟨.tie, 3⟩ |>.setSlot 42 ⟨.tie, 3⟩
    |>.setSlot 50 ⟨.tie, 4⟩ |>.setGroup 3 ⟨2, 0, 3, 2, 1, 2, true⟩
    |>.setGroup 4 ⟨64, 0, 3, 1, 0, 1, true⟩

theorem test_connect_preempts :
    answer fullGroup .a .connect 0x30 [14, 137, 0, 9, 0, 0, 0, 0, 1] =
      [.reply 0x30 7 .done [0, 2, 0xFF, 0xFF, 1], .event (.congestion 3 false 1),
       .event (.congestion 4 false 0), .event (.released 20 5 .preempted),
       .event (.congestion 3 true 2)] := by decide +kernel

/-- Two slots of one group with room for one (07 section 7.4, after R119). -/
theorem test_connect_counts_its_own_slot :
    answer (({ ready with connections := [⟨0, true, 12, 131, 6, 2, none, false⟩] } : State)
        |>.setSlot 35 ⟨.tie, 2⟩ |>.setSlot 40 ⟨.tie, 2⟩ |>.setSlot 41 ⟨.tie, 2⟩
        |>.setGroup 2 ⟨4, 0, 3, 64, 63, 3, false⟩) .a .connect 0x30
        [136, 137, 0, 9, 2, 0, 0, 0, 0] = [.reply 0x30 7 .groupFull []] := by decide +kernel

/-- Release of a traced call (06 section 6.4): takes 1 and 2. -/
def traced : State :=
  ({ ready with
    connections :=
      [⟨4, true, 22, 130, 700, 0, none, true⟩, ⟨5, true, 130, 22, 700, 0, none, false⟩,
       ⟨12, true, 163, 40, 700, 0, none, false⟩] } : State)
    |>.setSlot 34 ⟨.tie, 2⟩ |>.setGroup 2 ⟨64, 0, 3, 64, 63, 1, false⟩
    |>.setWatch 0 (.tripped 4410 true true ⟨4, 700, 22, .source, 130, none, 9, false⟩)

theorem test_release_by_id_trace_hold :
    answer traced .a .releaseById 0x31 [0, 0, 4] = [.reply 0x31 7 .traceHold []] := by
  decide +kernel

theorem test_release_by_tag_keeps_the_held :
    answer traced .a .releaseByTag 0x31 [1, 0x02, 0xBC] = [.reply 0x31 7 .done [2, 0xBC, 2, 1]]
      ∧ ((ordered traced .a .releaseByTag 0x31 [1, 0x02, 0xBC]).connections.map (·.id)) = [4]
      ∧ ((ordered traced .a .releaseByTag 0x31 [1, 0x02, 0xBC]).group 2).busy = 1 := by
  decide +kernel

theorem test_release_hold :
    answer traced .m .releaseHold 0x63 [0] = [.reply 0x63 7 .done [0, 1, 0]] := by decide +kernel

/-- Take 1 of the reserve sequence (07 section 7.10): class 1 at the reserve line. -/
theorem test_connect_reserved_for_class :
    answer ((fullGroup.setSlot 36 ⟨.tie, 2⟩).setGroup 2 ⟨6, 2, 3, 5, 3, 4, false⟩) .a .connect 0x30
        [14, 132, 0, 9, 0, 0, 0, 0, 1] = [.reply 0x30 7 .groupReserved []] := by decide +kernel

/-- SET GROUP (07 section 7.2): Q = 80, Rv = 70, onset 0, abatement 5. -/
theorem test_setGroup_clamps :
    answer ready .a .setGroup 0x41 [2, 80, 70, 3, 0, 5] =
      [.reply 0x41 7 .done [2, 64, 64, 3, 1, 0, 0, 0]] := by decide +kernel

/-- SET ADMISSION TIMES (04 section 4.8): an answer window of 20 is stored as 64. -/
theorem test_setAdmissionTimes_clamps :
    answer ready .a .setAdmissionTimes 0x26 [0, 20, 8, 0, 9] =
      [.reply 0x26 7 .done [0, 64, 8, 0, 8]] := by decide +kernel

/-- Lockout (04 section 4.9): the third failure locks position 30. -/
theorem test_register_locks_out :
    (after (.register 30 7777)
        ((ready.setLine 15 goodLine).setStation 30 ⟨.vacant, 2, none, []⟩)).portM.out =
      [.event (.lockedOut 30 3)]
      ∧ ((after (.register 30 7777)
        ((ready.setLine 15 goodLine).setStation 30 ⟨.vacant, 2, none, []⟩)).station 30) =
          ⟨.locked, 3, some (.refuse .unknown), []⟩ := by decide +kernel

/-- Relocation (04 section 4.9): the correct ANSWER at position 21. -/
theorem test_answer_relocates :
    (after (.answer 21 60272)
        (({ ready with
          directory := [⟨4102, 4660, none, .openClass, 255, none, false⟩]
          connections := [⟨3, true, 14, 101, 1, 0, none, false⟩,
            ⟨4, true, 101, 14, 1, 0, none, false⟩, ⟨20, true, 163, 14, 2, 0, none, false⟩] } : State)
          |>.setLine 7 goodLine |>.setLine 10 goodLine
          |>.setStation 14 ⟨.admitted 4102, 0, none, []⟩
          |>.setStation 21 ⟨.challenged 4102 201 60272 0, 1, none, []⟩)).portB.out =
      [.event (.released 3 1 .relocated), .event (.released 4 1 .relocated),
       .event (.withdrawn 14 4102 .relocated), .event (.admitted 21 4102 (some 14))] := by
  decide +kernel

/-- A takeover (02 section 2.7): the lapse, then CLAIM from B. -/
theorem test_claim_takes_over :
    answer (after .lapseTimerExpiry ready) .b .claim 0x01 [] =
      [.event (.mastership .lapsed (some .a) .lapsed (some .a)),
       .reply 0x01 7 .done [1, 2, 2, 0], .event (.mastership .held (some .b) .takeover (some .a))] := by
  decide +kernel

/-- A call-keeping restart and its completion (11 section 11.6): the events on Port A. -/
theorem test_restart_keep_completes :
    (after (.restartComplete (List.replicate 48 false))
        (ordered ((({ ready with
          connections := [⟨4, true, 20, 101, 1, 0, none, false⟩] } : State).setLine 10 goodLine)
            |>.setStation 20 ⟨.admitted 5120, 0, none, []⟩) .m .restartKeep 0x71 [])).portA.out =
      [.event (.restarted .keep), .event (.released 4 1 .linkLost),
       .event (.withdrawn 20 5120 .linkLost), .event (.link 10 false)] := by decide +kernel

/-- A hunt that locks, frame 568: the second successive match at an entry with confirm count 2, and
the sync miss that reaches the loss limit (08 sections 8.4 and 8.5). -/
theorem test_hunt_locks_and_sync_is_lost :
    (huntFrame ⟨some ⟨1000, 77⟩, 2, 3, 1⟩ 255 0
        [⟨some 38, 1⟩] 39).locked = some 39
      ∧ (huntFrame ⟨some ⟨1000, 77⟩, 2, 3, 1⟩ 255 0 [⟨some 37, 0⟩] 38).state =
          .hunt 1 [⟨some 38, 1⟩]
      ∧ (syncFrame ⟨some ⟨1000, 77⟩, 2, 3, 1⟩ 46 2 9 251).lost = some (46, 251)
      ∧ (syncFrame ⟨some ⟨1000, 77⟩, 2, 3, 1⟩ 45 1 9 12).state = .synced 45 1 12565 2 9 := by
  decide +kernel

/-- The status byte (R2, R177): 7 free entries, an entry waiting, the holder's port. -/
theorem test_status_byte :
    (withOrder (ready.append .a (.event (.restarted .cold))) .a (queuedOrder 1 2 [])).statusByteOf .a
      = 0x79 := by decide +kernel

/-! ### The laws hold of the small fitted part -/

/-- The small fitted part with one order, of tag 7, at the head of a port's queue. -/
def asked (p : Port) (code : Byte) (params : List Byte) : State :=
  withOrder base p (queuedOrder code 7 params)

theorem takes_withOrder (s : State) (p : Port) (o : OrderRecord) (hr : s.restart = none)
    (hq : ∀ q, (s.port q).orders = []) (hout : (s.port p).out = []) :
    (withOrder s p o).Takes p o := by
  have hne : ∀ q ∈ consideredBefore s.lastServed p, q ≠ p := by
    intro q hm
    rcases hl : s.lastServed <;> cases p <;> rw [hl] at hm <;> revert q <;> decide
  refine ⟨?_, ?_, ?_, ?_⟩
  · simpa [withOrder] using hr
  · simp [withOrder]
  · simp [withOrder, hout]
  · intro q hm
    have hm : q ∈ consideredBefore s.lastServed p := by simpa [withOrder] using hm
    exact .inl (by simp [withOrder, State.port_setPort_ne _ (hne q hm), hq])

theorem base_queues (q : Port) : (base.port q).orders = [] ∧ (base.port q).out = [] := by
  cases q <;> exact ⟨rfl, rfl⟩

theorem asked_takes (p : Port) (code : Byte) (params : List Byte) :
    (asked p code params).Takes p (queuedOrder code 7 params) :=
  takes_withOrder base p _ rfl (fun q => (base_queues q).1) (base_queues p).2

theorem base_station (n : Nat) : base.station n =
    if n = 4 then ⟨.admitted 4, 0, none, []⟩
    else if n = 3 then ⟨.locked, 3, none, []⟩
    else if n = 2 then ⟨.holdOff 2048000, 2, none, []⟩
    else if n = 1 then ⟨.challenged 2 201 60272 256000, 1, some (.challenge 201), []⟩
    else if n = 0 then ⟨.admitted 1, 0, none, [[1]]⟩
    else Station.reset := by
  have h : ready.station n = Station.reset := by
    by_cases h : n < 96 <;> simp [ready, State.station, State.reset, h]
  have h' : ∀ d c, ({ ready with directory := d, connections := c } : State).station n
      = ready.station n := fun _ _ => rfl
  have h4 : n = 4 → n ≠ 0 ∧ n ≠ 1 ∧ n ≠ 2 ∧ n ≠ 3 := by omega
  simp only [base, State.setWatch_station, State.setLeg_station, State.setKey_station,
    State.setGroup_station, State.setSlot_station, State.setLine_station,
    State.station_setStation, h', h]
  split_ifs <;> first | rfl | omega

theorem base_table : TableLaw base := by unfold TableLaw; decide +kernel

theorem base_directory : DirectoryLaw base := by unfold DirectoryLaw; decide +kernel

theorem forall_slot (s : State) (P : TrunkSlot → Prop) (h : ∀ n, n < 64 → P (s.slot n))
    (h' : P TrunkSlot.reset) (n : Nat) : P (s.slot n) := by
  by_cases hn : n < 64
  · exact h n hn
  · simpa [State.slot, hn] using h'

theorem forall_group (s : State) (P : Group → Prop) (h : ∀ n, n < 8 → P (s.group n))
    (h' : P Group.reset) (n : Nat) : P (s.group n) := by
  by_cases hn : n < 8
  · exact h n hn
  · simpa [State.group, hn] using h'

theorem base_group : GroupLaw base :=
  ⟨forall_slot base (fun v => v.group ≤ 7) (by decide +kernel) (by decide),
    forall_group base (fun g => g.quota ≤ 64 ∧ g.reserve ≤ g.quota ∧ 1 ≤ g.reserveClass
      ∧ g.reserveClass ≤ 3 ∧ g.onset ≤ 64 ∧ g.abatement < g.onset) (by decide +kernel) (by decide)⟩

theorem base_congestion : CongestionLaw base :=
  forall_group base
    (fun g => if g.congested = true then g.abatement < g.busy else g.busy < g.onset)
    (by decide +kernel) (by decide)

theorem base_busy : BusyLaw base := by unfold BusyLaw; decide +kernel

theorem base_queue : QueueLaw base := by
  intro p; cases p <;> simp [PortLaw, base, ready, State.port, State.reset, PortState.reset]

theorem base_class : ClassLaw base := by
  refine ⟨fun n => ?_, by decide +kernel⟩
  by_cases h : n < 8
  · revert n; decide +kernel
  · have : base.precedenceMap[n]? = none := by simp [h]
    simp [State.classOf, this]

theorem base_admission : AdmissionLaw base := by
  have hs := base_station
  refine ⟨fun n identity h => ?_, fun n m identity hn hm => ?_⟩
  · rw [hs] at h
    rcases n with _ | _ | _ | _ | _ | n <;> simp [StationState.concerns, Station.reset] at h
    · subst h; exact ⟨⟨_, rfl, rfl, rfl⟩, rfl, by decide⟩
    · subst h; exact ⟨⟨_, rfl, rfl, rfl⟩, rfl, fun _ => rfl⟩
    · subst h; exact ⟨⟨_, rfl, rfl, rfl⟩, rfl, by decide⟩
  · rw [hs] at hn hm
    rcases n with _ | _ | _ | _ | _ | n <;> simp [Station.reset] at hn <;>
      rcases m with _ | _ | _ | _ | _ | m <;> simp [Station.reset] at hm <;> first | rfl | omega

theorem base_deliver : DeliverLaw base := by
  intro n
  rw [base_station]
  rcases n with _ | _ | _ | _ | _ | n <;> simp [Station.reset]

theorem base_leg (n : Nat) (leg : Leg) (h : base.leg n = some leg) :
    n = 0 ∧ leg = ⟨0, .synced 5 0 1234 2 9⟩ := by
  have h0 : ∀ n, n < 64 → n ≠ 0 → base.leg n = none := by decide +kernel
  by_cases hn : n < 64
  · by_cases hz : n = 0
    · subst hz
      have : base.leg 0 = some ⟨0, .synced 5 0 1234 2 9⟩ := rfl
      rw [this] at h
      exact ⟨rfl, (Option.some.inj h).symm⟩
    · rw [h0 n hn hz] at h; cases h
  · have : base.leg n = none := by simp [State.leg, hn]
    rw [this] at h; cases h

theorem base_privacy : PrivacyLaw base := by
  have hc : base.connections =
      [⟨0, true, 0, 96, 700, 3, none, true⟩, ⟨1, false, 97, 98, 700, 0, none, false⟩,
        ⟨2, true, 99, 0, 9, 3, some ⟨.descramble, 0, 0⟩, false⟩] := rfl
  have hk : ∀ k, k < 32 → ∀ m ∈ (base.key k).material, m.increment.getLsbD 0 = true := by
    decide +kernel
  refine ⟨?_, ?_, ?_, by decide +kernel, fun k m hm => ?_⟩
  · rw [hc]
    intro c hm part hp
    simp only [List.mem_cons, List.not_mem_nil, or_false] at hm
    rcases hm with rfl | rfl | rfl
    · cases hp
    · cases hp
    · cases hp
      exact ⟨by decide, by decide, rfl, ⟨_, rfl, rfl, rfl, rfl⟩, by decide +kernel,
        by decide +kernel⟩
  · rw [hc]; decide
  · intro n leg h
    obtain ⟨rfl, -⟩ := base_leg n leg h
    exact ⟨⟨2, true, 99, 0, 9, 3, some ⟨.descramble, 0, 0⟩, false⟩, by rw [hc]; simp, _, rfl, rfl⟩
  · by_cases h : k < 32
    · exact hk k h m hm
    · simp [State.key, h, KeyContext.reset] at hm

theorem base_watch (n : Nat) : base.watch n =
    if n = 1 then .tripped 1 true true ⟨0, 700, 0, .source, 96, none, 5, false⟩
    else if n = 0 then .armed 3 false
    else .idle := by
  by_cases h : n < 4
  · revert n; decide +kernel
  · have h1 : n ≠ 1 := by omega
    have h0 : n ≠ 0 := by omega
    simp [State.watch, h, h1, h0]

theorem base_watches : WatchLaw base := by
  refine ⟨fun m n identity hm hn => ?_, fun n t hold h => ?_, ?_⟩
  · rw [base_watch] at hm hn
    rcases m with _ | _ | m <;> simp [Watch.watched] at hm <;>
      rcases n with _ | _ | n <;> simp [Watch.watched] at hn <;> first | rfl | omega
  · rw [base_watch] at h
    rcases n with _ | _ | n <;> simp [Watch.trace] at h
    obtain ⟨rfl, rfl⟩ := h
    exact ⟨fun _ => rfl, fun _ => ⟨⟨0, true, 0, 96, 700, 3, none, true⟩, by decide +kernel, rfl, rfl⟩⟩
  · intro c hc
    constructor
    · intro ht
      have : c.id = 0 := by revert c; decide +kernel
      exact ⟨1, _, rfl, this.symm⟩
    · rintro ⟨n, t, h, hid⟩
      rw [base_watch] at h
      rcases n with _ | _ | n <;> simp [Watch.trace] at h
      subst h
      revert c; decide +kernel

theorem base_stations : StationLaw base := by
  unfold StationLaw
  intro c hc hs e he hlt
  have h : e = 0 := by
    have hall : ∀ c ∈ base.connections, ¬160 ≤ c.source → ∀ e, e < 96 → c.names e = true → e = 0 := by
      decide +kernel
    exact hall c hc hs e hlt he
  subst h
  exact ⟨1, rfl⟩

theorem base_service : ServiceLaw base := by
  intro c hc station trunk hj hs ht ht' identity hi
  have hst : station = 0 := by
    have hall : ∀ c ∈ base.connections, ∀ station trunk, station < 96 → 96 ≤ trunk → trunk < 160 →
        ((c.source = station ∧ c.destination = trunk) ∨ (c.source = trunk ∧ c.destination = station)) →
        station = 0 := by
      intro c hc station trunk hs ht ht' hj
      simp only [base, State.setWatch_connections, State.setLeg_connections,
        State.setKey_connections, State.setGroup_connections, State.setSlot_connections,
        State.setStation_connections, State.setLine_connections, List.mem_cons, List.not_mem_nil,
        or_false] at hc
      rcases hc with rfl | rfl | rfl <;> simp only at hj <;> omega
    exact hall c hc station trunk hs ht ht' hj
  subst hst
  have hid : identity = 1 := by
    have h : (base.station 0).state = .admitted 1 := by rw [base_station]; rfl
    rw [h] at hi
    exact (StationState.admitted.inj hi).symm
  subst hid
  have htr : trunk = 96 ∨ trunk = 99 := by
    have hall : ∀ c ∈ base.connections, ∀ trunk, trunk < 160 → 96 ≤ trunk →
        ((c.source = 0 ∧ c.destination = trunk) ∨ (c.source = trunk ∧ c.destination = 0)) →
        trunk = 96 ∨ trunk = 99 := by decide +kernel
    exact hall c hc trunk ht' ht hj
  refine ⟨⟨1, 4660, some 7, .openClass, 255, none, false⟩, rfl, ?_, fun h => absurd rfl h,
    fun h => nomatch h⟩
  rcases htr with rfl | rfl <;> rfl

theorem reset_restart : RestartLaw State.reset := by
  intro _
  refine ⟨rfl, fun n => ?_, by simp [State.reset], fun _ => rfl⟩
  have : State.reset.station n = Station.reset := by
    by_cases h : n < 96 <;> simp [State.station, State.reset, h]
  rw [this]
  exact ⟨.inl rfl, rfl, rfl⟩

/-! ### Witnesses: states and operands that meet the hypotheses of each statement -/

theorem asked_table (p : Port) (code : Byte) (params : List Byte) :
    TableLaw (asked p code params) := by cases p <;> exact base_table

theorem asked_directory (p : Port) (code : Byte) (params : List Byte) :
    DirectoryLaw (asked p code params) := by cases p <;> exact base_directory

theorem asked_admission (p : Port) (code : Byte) (params : List Byte) :
    AdmissionLaw (asked p code params) := by cases p <;> exact base_admission

theorem asked_holder (code : Byte) (params : List Byte) : (asked .a code params).HolderAt .a :=
  trivial

/-- The state is the one of the small fitted part, and nothing is taken from any port at reset. -/
theorem witness_OnlyTheRowOfTheGrantedOrderActs :
    ((asked .a 0x01 []).Takes .a (queuedOrder 0x01 7 []) ∧ Instr.pulse ∈ takeRows
        ∧ Instr.pulse ≠ rowOf (queuedOrder 0x01 7 []))
      ∧ ∀ p o, ¬State.reset.Takes p o :=
  ⟨⟨asked_takes _ _ _, by decide, by decide⟩, fun _ _ h => nomatch h.1⟩

/-- An unknown code, the lengths beside the table's at both ends, a code outside its set, and an
over-length order. -/
theorem witness_MisformedOrderIsRefusedBadOrder :
    (∀ code params, (asked .m code params).Takes .m (queuedOrder code 7 params))
      ∧ (∀ r ∈ orderTable, r.2.1 ≠ (0x07 : Byte))
      ∧ ¬FormFits (queuedOrder 0x07 7 []) ∧ ¬FormFits (queuedOrder 0x05 7 [1])
      ∧ ¬FormFits (queuedOrder 0x05 7 [1, 2, 3]) ∧ ¬FormFits (queuedOrder 0x04 7 [3])
      ∧ ¬FormFits { code := 0x06, tag := 7, params := [], overLength := true }
      ∧ (withOrder base .a { code := 0x06, tag := 7, params := [], overLength := true }).Takes .a
          { code := 0x06, tag := 7, params := [], overLength := true } := by
  refine ⟨fun _ _ => asked_takes _ _ _, by decide, by simp +decide [FormFits, LengthFits],
    by simp +decide [FormFits, LengthFits],
    by simp +decide [FormFits, LengthFits], by simp +decide [FormFits, CodesFit],
    by simp [FormFits], takes_withOrder base .a _ rfl (fun q => (base_queues q).1)
      (base_queues .a).2⟩

/-- A holder's order from Port M, a Port M order from Port A, and holder's orders in every state of the
mastership record but the holder's own. -/
theorem witness_OrderWithoutAuthorityIsRefused :
    FormFits (queuedOrder 0x32 7 [1]) ∧ FormFits (queuedOrder 0x28 7 [1, 2])
      ∧ rowOf (queuedOrder 0x32 7 [1]) ∈ (holderRows ++ controllerRows).map (·.1)
      ∧ rowOf (queuedOrder 0x28 7 [1, 2]) ∈ portMRows.map (·.1)
      ∧ (asked .m 0x32 [1]).Takes .m (queuedOrder 0x32 7 [1])
      ∧ (asked .a 0x28 [1, 2]).Takes .a (queuedOrder 0x28 7 [1, 2])
      ∧ (∀ m : Mastership, ({ asked .b 0x32 [1] with mastership := m } : State).Takes .b
          (queuedOrder 0x32 7 [1]))
      ∧ controllerOf .b = some .b := by
  refine ⟨by simp +decide [FormFits, LengthFits, CodesFit],
    by simp +decide [FormFits, LengthFits, CodesFit], by decide, by decide,
    asked_takes _ _ _, asked_takes _ _ _, fun m => ?_, rfl⟩
  exact asked_takes .b 0x32 [1]

theorem witness_TakeRepliesOnceAheadOfItsEvents :
    (asked .a 0x06 []).Takes .a (queuedOrder 0x06 7 []) := asked_takes _ _ _

/-- A record of no parameter byte, of 32, 33 and 255, and one cut short of its last byte. -/
theorem witness_OrderTransferQueuesAnAdmittedRecord :
    ([] : List Byte).length = (0 : Byte).toNat ∧ (List.replicate 32 (1 : Byte)).length = (32 : Byte).toNat
      ∧ (List.replicate 33 (1 : Byte)).length = (33 : Byte).toNat
      ∧ (List.replicate 255 (1 : Byte)).length = (255 : Byte).toNat
      ∧ ([] : List Byte).length < (1 : Byte).toNat
      ∧ (List.replicate 254 (1 : Byte)).length < (255 : Byte).toNat := by decide +kernel

theorem witness_FetchStatusAndUnknownTransfersComplete :
    ((ready.append .a (.event (.restarted .cold))).port .a).out = .event (.restarted .cold) :: []
      ∧ (ready.port .a).out = [] := ⟨rfl, rfl⟩

theorem witness_ClaimIsDecidedByTheRecord :
    controllerOf .b = some .b ∧ (asked .b 0x01 []).Takes .b (queuedOrder 0x01 7 [])
      ∧ (asked .m 0x01 []).Takes .m (queuedOrder 0x01 7 []) :=
  ⟨rfl, asked_takes _ _ _, asked_takes _ _ _⟩

theorem witness_PulseAndYieldAreDecidedByTheRecord :
    controllerOf .a = some .a ∧ (asked .a 0x02 []).Takes .a (queuedOrder 0x02 7 [])
      ∧ (asked .a 0x03 []).Takes .a (queuedOrder 0x03 7 [])
      ∧ ∀ code, (asked .m code []).Takes .m (queuedOrder code 7 []) :=
  ⟨rfl, asked_takes _ _ _, asked_takes _ _ _, fun _ => asked_takes _ _ _⟩

theorem witness_AssignSetLapseAndLookMastershipComplete :
    (asked .m 0x04 [0]).Takes .m (queuedOrder 0x04 7 [0])
      ∧ (asked .m 0x04 [controllerCode (some .b)]).Takes .m
          (queuedOrder 0x04 7 [controllerCode (some .b)])
      ∧ (asked .m 0x05 [0, 63]).Takes .m (queuedOrder 0x05 7 [0, 63])
      ∧ (asked .m 0x05 [16, 1]).Takes .m (queuedOrder 0x05 7 [16, 1])
      ∧ (asked .b 0x06 []).Takes .b (queuedOrder 0x06 7 []) :=
  ⟨asked_takes _ _ _, asked_takes _ _ _, asked_takes _ _ _, asked_takes _ _ _, asked_takes _ _ _⟩

theorem witness_LapseTimerExpiryMakesTheHolderLapsed :
    base.mastership = .held .a 512000 ∧ State.reset.mastership = .vacant := ⟨rfl, rfl⟩

theorem witness_CallsAndStationsIgnoreMastership :
    IsCallSideCommand .frameStart ∧ ∃ t, exec .frameStart base = .next t := ⟨trivial, _, rfl⟩

/-- An identity at each end of its range and beside it; a directory in order. -/
theorem witness_EnterSetSecretAndResumeChangeOneEntry :
    (∀ params, (asked .m 0x10 params).Takes .m (queuedOrder 0x10 7 params)
        ∧ DirectoryLaw (asked .m 0x10 params))
      ∧ (∀ params, (asked .m 0x12 params).Takes .m (queuedOrder 0x12 7 params))
      ∧ (∀ params, (asked .a 0x15 params).Takes .a (queuedOrder 0x15 7 params)
        ∧ (asked .a 0x15 params).HolderOrM .a)
      ∧ ((0x00 : Byte) ++ (0x01 : Byte)).toNat = 1
      ∧ ((0x27 : Byte) ++ (0x0F : Byte)).toNat = 9999
      ∧ ((0x27 : Byte) ++ (0x10 : Byte)).toNat = 10000 :=
  ⟨fun _ => ⟨asked_takes _ _ _, asked_directory _ _ _⟩, fun _ => asked_takes _ _ _,
    fun _ => ⟨asked_takes _ _ _, .inr trivial⟩, by decide, by decide, by decide⟩

theorem base_admitted_only (n identity : Nat) :
    (base.station n).state = .admitted identity ↔
      (n = 0 ∧ identity = 1) ∨ (n = 4 ∧ identity = 4) := by
  rw [base_station]
  rcases n with _ | _ | _ | _ | _ | n <;> simp [Station.reset, eq_comm]

/-- Identity 1 stands ADMITTED at position 0, identity 2 nowhere; identity 3 is SUSPENDED; identity 9999
is absent, 0 and 10000 are none. -/
theorem witness_RemoveAndSuspendRetireTheIdentity :
    (∀ n, some 0 = some n ↔ ((asked .m 0x11 [0, 1]).station n).state = .admitted 1)
      ∧ (∀ n, none = some n ↔ ((asked .m 0x11 [0, 2]).station n).state = .admitted 2)
      ∧ (∀ i, i = 1 ∨ i = 2 ∨ i = 3 → ∃ e, (base.directory.find? fun d => d.identity == i) = some e
          ∧ e.suspended = (i == 3))
      ∧ (asked .m 0x11 [0, 1]).Takes .m (queuedOrder 0x11 7 [0, 1])
      ∧ TableLaw (asked .m 0x11 [0, 1])
      ∧ (asked .a 0x14 [0, 1]).Takes .a (queuedOrder 0x14 7 [0, 1])
      ∧ (asked .a 0x14 [0, 1]).HolderOrM .a ∧ TableLaw (asked .a 0x14 [0, 1])
      ∧ (∀ params, (asked .m 0x11 params).Takes .m (queuedOrder 0x11 7 params)
        ∧ (asked .a 0x14 params).Takes .a (queuedOrder 0x14 7 params)
        ∧ (asked .a 0x14 params).HolderOrM .a)
      ∧ ((0x00 : Byte) ++ (0x00 : Byte)).toNat = 0 ∧ ((0x27 : Byte) ++ (0x10 : Byte)).toNat = 10000
      ∧ ((0x27 : Byte) ++ (0x0F : Byte)).toNat = 9999
      ∧ ∀ d ∈ base.directory, d.identity ≠ 9999 := by
  refine ⟨fun n => ?_, fun n => ?_, ?_, asked_takes _ _ _, asked_table _ _ _, asked_takes _ _ _,
    .inr trivial, asked_table _ _ _, fun _ => ⟨asked_takes _ _ _, asked_takes _ _ _, .inr trivial⟩,
    by decide, by decide, by decide, by decide +kernel⟩
  · refine Iff.trans ?_ (base_admitted_only n 1).symm
    simp [eq_comm]
  · refine Iff.trans ?_ (base_admitted_only n 2).symm
    simp
  · rintro i (rfl | rfl | rfl) <;> exact ⟨_, rfl, rfl⟩

/-- The class of the station at position 0 amended to REQUIRED, and its home ports to 1 to 4 numbers at
the ends of their range; an absent identity, and values beside their ranges. -/
theorem witness_AmendChangesMarkedFieldsAndReleasesTheRest :
    (∀ params, (asked .a 0x13 params).Takes .a (queuedOrder 0x13 7 params)
        ∧ (asked .a 0x13 params).HolderOrM .a ∧ TableLaw (asked .a 0x13 params)
        ∧ DirectoryLaw (asked .a 0x13 params)
        ∧ (∀ n, some 0 = some n ↔ ((asked .a 0x13 params).station n).state = .admitted 1)
        ∧ ∃ e, ((asked .a 0x13 params).directory.find? fun d => d.identity == 1) = some e)
      ∧ ((1 : Byte) = 1 ↔ ([0, 47] : List Byte) ≠ []) ∧ (∀ b ∈ ([0, 47] : List Byte), b.toNat ≤ 47)
      ∧ ((0 : Byte) = 1 ↔ ([] : List Byte) ≠ [])
      ∧ 7 < (8 : Byte).toNat ∧ (∃ b ∈ ([47, 48] : List Byte), 47 < b.toNat)
      ∧ ((0x27 : Byte) ++ (0x10 : Byte)).toNat = 10000
      ∧ ∀ d ∈ base.directory, d.identity ≠ ((0x27 : Byte) ++ (0x0F : Byte)).toNat := by
  refine ⟨fun params => ⟨asked_takes _ _ _, .inr trivial, asked_table _ _ _, asked_directory _ _ _,
    fun n => ?_, _, rfl⟩, by decide, by decide, by decide, by decide, by decide, by decide,
    by decide +kernel⟩
  refine Iff.trans ?_ (base_admitted_only n 1).symm
  simp [eq_comm]

theorem witness_SettingsOrdersStoreAndReport :
    (∀ code params, (asked .a code params).Takes .a (queuedOrder code 7 params)
        ∧ (asked .a code params).HolderAt .a)
      ∧ (∀ params, (asked .m 0x28 params).Takes .m (queuedOrder 0x28 7 params)) :=
  ⟨fun _ _ => ⟨asked_takes _ _ _, trivial⟩, fun _ => asked_takes _ _ _⟩

/-- Line ports 47 and 48, default precedences 7 and 8. -/
theorem witness_SetPortStoresSettingsAndClearsPositions :
    (∀ params, (asked .a 0x20 params).Takes .a (queuedOrder 0x20 7 params)
        ∧ (asked .a 0x20 params).HolderAt .a ∧ TableLaw (asked .a 0x20 params))
      ∧ 47 < (48 : Byte).toNat ∧ 7 < (8 : Byte).toNat ∧ (47 : Byte).toNat ≤ 47
      ∧ (7 : Byte).toNat ≤ 7 :=
  ⟨fun _ => ⟨asked_takes _ _ _, trivial, asked_table _ _ _⟩, by decide, by decide, by decide,
    by decide⟩

/-- Position 0 is ADMITTED, 95 is not, 96 is none; messages of 1 and of 8 bytes. -/
theorem witness_WithdrawDeliverAndReleaseLockoutActOnOneStation :
    (∀ code params, (asked .a code params).Takes .a (queuedOrder code 7 params)
        ∧ (asked .a code params).HolderAt .a ∧ TableLaw (asked .a code params))
      ∧ (base.station 0).state = .admitted 1 ∧ (∀ i, (base.station 95).state ≠ .admitted i)
      ∧ 95 < (96 : Byte).toNat ∧ (base.station 3).state = .locked := by
  refine ⟨fun _ _ => ⟨asked_takes _ _ _, trivial, asked_table _ _ _⟩, ?_, fun i => ?_, by decide, ?_⟩
  · rw [base_station]; rfl
  · rw [base_station]; simp [Station.reset]
  · rw [base_station]; rfl

theorem witness_DirectoryAndStationLooksReportAndChangeNothing :
    ∀ code params, (asked .b code params).Takes .b (queuedOrder code 7 params) :=
  fun _ _ => asked_takes _ _ _

/-- Positions 0 to 5 of the small fitted part: every state of a station record on an ENABLED port; the
second set of line port 1 and the ports that are DISABLED are not heard. -/
theorem base_hears :
    base.Hears 0 ∧ base.Hears 1 ∧ base.Hears 2 ∧ base.Hears 4 ∧ base.Hears 5 ∧ ¬base.Hears 3
      ∧ ¬base.Hears 95 ∧ ¬State.reset.Hears 0 := by
  refine ⟨?_, ?_, ?_, ?_, ?_, ?_, ?_, ?_⟩ <;> unfold State.Hears <;> decide +kernel

theorem base_states :
    (base.station 0).state = .admitted 1 ∧ (base.station 1).state = .challenged 2 201 60272 256000
      ∧ (base.station 2).state = .holdOff 2048000 ∧ (base.station 3).state = .locked
      ∧ (base.station 5).state = .vacant := by
  refine ⟨?_, ?_, ?_, ?_, ?_⟩ <;> rw [base_station] <;> rfl

theorem witness_RegisterIsJudgedByTheStationRecord :
    ¬base.Hears 3 ∧ (base.Hears 5 ∧ (base.station 5).state = .vacant)
      ∧ (base.Hears 1 ∧ ∃ i h r d, (base.station 1).state = .challenged i h r d)
      ∧ (base.Hears 2 ∧ ∃ d, (base.station 2).state = .holdOff d)
      ∧ (base.Hears 0 ∧ (base.station 0).state = .admitted 1) ∧ TableLaw base :=
  ⟨base_hears.2.2.2.2.2.1, ⟨base_hears.2.2.2.2.1, base_states.2.2.2.2⟩,
    ⟨base_hears.2.1, _, _, _, _, base_states.2.1⟩, ⟨base_hears.2.2.1, _, base_states.2.2.1⟩,
    ⟨base_hears.1, base_states.1⟩, base_table⟩

/-- Identity 2, CHALLENGED at position 1, is ADMITTED nowhere; in the second state it is at
position 4. -/
theorem witness_AnswerAdmitsOrFails :
    (base.Hears 1 ∧ (base.station 1).state = .challenged 2 201 60272 256000
        ∧ ∀ m, (base.station m).state ≠ .admitted 2)
      ∧ (∀ i h r d, (base.station 0).state ≠ .challenged i h r d)
      ∧ (let s := base.setStation 4 ⟨.admitted 2, 0, none, []⟩
        s.Hears 1 ∧ (s.station 1).state = .challenged 2 201 60272 256000 ∧ TableLaw s
          ∧ ∀ k, (s.station k).state = .admitted 2 ↔ k = 4) := by
  refine ⟨⟨base_hears.2.1, base_states.2.1, fun m h => ?_⟩, fun i h r d => ?_,
    base_hears.2.1, ?_, base_table, fun k => ?_⟩
  · have := (base_admitted_only m 2).1 h; omega
  · rw [base_states.1]; simp
  · rw [State.station_setStation_ne _ (by decide)]; exact base_states.2.1
  · rw [State.station_setStation]
    by_cases hk : k = 4
    · simp [hk]
    · simp only [hk, false_and, if_false, iff_false]
      intro h
      have := (base_admitted_only k 2).1 h; omega

theorem witness_LeaveSignalAndUnfitMessagesComplete :
    ¬base.Hears 3 ∧ (base.Hears 1 ∧ ∃ i h r d, (base.station 1).state = .challenged i h r d)
      ∧ (base.Hears 0 ∧ (base.station 0).state = .admitted 1) ∧ TableLaw base
      ∧ (∀ i, (base.station 2).state ≠ .admitted i)
      ∧ (∀ i h r d, (base.station 2).state ≠ .challenged i h r d) := by
  refine ⟨base_hears.2.2.2.2.2.1, ⟨base_hears.2.1, _, _, _, _, base_states.2.1⟩,
    ⟨base_hears.1, base_states.1⟩, base_table, ?_, ?_⟩ <;> rw [base_states.2.2.1] <;> simp

theorem witness_StationDeadlinesExpire :
    (base.station 1).state = .challenged 2 201 60272 256000
      ∧ (base.station 2).state = .holdOff 2048000
      ∧ (∀ i h r d, (base.station 2).state ≠ .challenged i h r d)
      ∧ (∀ d, (base.station 1).state ≠ .holdOff d) := by
  refine ⟨base_states.2.1, base_states.2.2.1, ?_, ?_⟩
  · rw [base_states.2.2.1]; simp
  · rw [base_states.2.1]; simp

theorem witness_LinkIndicationsFollowTheLink :
    State.reset.restart ≠ none ∧ base.restart = none ∧ (base.line 0).linkUp = true
      ∧ (base.line 47).linkUp = false ∧ TableLaw base := by
  exact ⟨by decide, rfl, by decide +kernel, by decide +kernel, base_table⟩

/-- Tolerance 2: counts 1 and 2 before the detection. -/
theorem witness_BabbleCountsAndDisablesThePort :
    (base.line 47).condition ≠ .enabled ∧ (base.line 0).condition = .enabled
      ∧ (base.line 0).tolerance = 2
      ∧ (∀ k, ((base.setLine 0 { goodLine with babbleCount := k }).line 0).babbleCount = k
        ∧ TableLaw (base.setLine 0 { goodLine with babbleCount := k }))
      ∧ 1 + 1 < 2 + 1 ∧ 2 + 1 ≤ 2 + 1 := by
  refine ⟨by decide +kernel, by decide +kernel, by decide +kernel, fun k => ⟨?_, base_table⟩,
    by decide, by decide⟩
  rw [State.line_setLine_same _ (by decide)]

/-- Both positions of line port 0 wait, one by its slot and one by its deliver queue; a sender may
begin. -/
theorem witness_ChannelsServeThePositionsInTurn :
    base.restart = none ∧ (base.line 0).sending = none ∧ (base.line 0).linkUp = true
      ∧ (base.line 0).condition = .enabled ∧ (base.line 0).lastSecond = true
      ∧ (base.station 0).slot = none ∧ (base.station 0).deliver = [[1]]
      ∧ (base.station 1).slot = some (.challenge 201) ∧ State.reset.restart ≠ none := by
  decide +kernel

/-! #### CONNECT -/

/-- A state asked to CONNECT by Controller A, the holder. -/
def connecting (s : State) (params : List Byte) : State :=
  withOrder s .a (queuedOrder 0x30 7 params)

/-- Checks 4 and 5 between a station that is ADMITTED and a trunk that is in service. -/
theorem base_checks45 (station trunk : Nat) (hs : station = 0 ∨ station = 4)
    (ht : trunk = 100 ∨ trunk = 101 ∨ trunk = 103) :
    base.Check4 station trunk ∧ base.Check5 station trunk := by
  refine ⟨fun _ e he hlt => ?_, fun e he hge hlt => ?_⟩
  · have : e = station := by rcases he with h | h <;> omega
    subst this
    rcases hs with rfl | rfl
    · exact ⟨1, base_states.1⟩
    · exact ⟨4, by rw [base_station]; rfl⟩
  · have : e = trunk := by rcases he with h | h <;> omega
    subst this
    rcases ht with rfl | rfl | rfl <;> decide +kernel

theorem base_joins {a b station trunk : Nat} {e : DirectoryEntry} (ha : a = 0)
    (h : base.Joins a b station trunk e) :
    station = 0 ∧ trunk = b ∧ e = ⟨1, 4660, some 7, .openClass, 255, none, false⟩ := by
  obtain ⟨hj, hs, ht, _, identity, hi, hf⟩ := h
  have hst : station = 0 ∧ trunk = b := by omega
  obtain ⟨rfl, rfl⟩ := hst
  rw [base_states.1] at hi
  cases StationState.admitted.inj hi
  exact ⟨rfl, rfl, (Option.some.inj hf).symm⟩

/-- A record from position 0 to the TIE slot 4 through a scrambling leg with key 0 passes checks 2 to
10. -/
theorem base_passesTo10 : base.PassesTo10 0 100 0 (some 0) := by
  refine ⟨?_, ?_, (base_checks45 0 100 (by decide) (by decide)).1,
    (base_checks45 0 100 (by decide) (by decide)).2, fun st tr e h => ?_, fun st tr e h => ?_,
    ?_, ?_, fun _ => ⟨1, by decide, by decide +kernel⟩⟩
  · unfold Check2; decide
  · unfold State.Check3; decide +kernel
  · obtain ⟨rfl, rfl, rfl⟩ := base_joins rfl h
    decide +kernel
  · obtain ⟨rfl, rfl, rfl⟩ := base_joins rfl h
    exact ⟨fun h => absurd rfl h, fun h => nomatch h⟩
  · unfold State.Check8 State.TieAt; decide +kernel
  · unfold State.Check9; decide +kernel

/-- The same pair without a key, and the PUBLIC slot 5 of the full group 1. -/
theorem base_passesTo10_public : base.PassesTo10 0 101 0 none := by
  refine ⟨?_, ?_, (base_checks45 0 101 (by decide) (by decide)).1,
    (base_checks45 0 101 (by decide) (by decide)).2, fun st tr e h => ?_, fun st tr e h => ?_,
    ?_, ?_, fun h => absurd rfl h⟩
  · unfold Check2; decide
  · unfold State.Check3; decide +kernel
  · obtain ⟨rfl, rfl, rfl⟩ := base_joins rfl h
    decide +kernel
  · obtain ⟨rfl, rfl, rfl⟩ := base_joins rfl h
    exact ⟨fun h => absurd rfl h, fun h => nomatch h⟩
  · intro k h; cases h
  · unfold State.Check9; decide +kernel

/-- From a service source no station is judged: to slot 4 of group 2, and to slot 5 of group 1. -/
theorem base_passesTo10_service (trunk : Nat) (h : trunk = 100 ∨ trunk = 101) :
    base.PassesTo10 160 trunk 0 none := by
  refine ⟨?_, ?_, fun h => absurd h (by decide), fun e he hge hlt => ?_, fun st tr e h => ?_,
    fun st tr e h => ?_, ?_, ?_, fun h => absurd rfl h⟩
  · rcases h with rfl | rfl <;> unfold Check2 <;> decide
  · rcases h with rfl | rfl <;> unfold State.Check3 <;> decide +kernel
  · have : e = trunk := by rcases he with h | h <;> omega
    subst this
    rcases h with rfl | rfl <;> decide +kernel
  · obtain ⟨hj, hs, ht, _, _⟩ := h; omega
  · obtain ⟨hj, hs, ht, _, _⟩ := h; omega
  · intro k h; cases h
  · unfold State.Check9; decide +kernel

theorem base_newlyBusy :
    base.NewlyBusy 100 ∧ base.NewlyBusy 101 ∧ ¬base.NewlyBusy 0 ∧ ¬base.NewlyBusy 160
      ∧ ¬base.NewlyBusy 97 := by
  unfold State.NewlyBusy
  decide +kernel

theorem connecting_takes (params : List Byte) :
    (connecting base params).Takes .a (queuedOrder 0x30 7 params) :=
  takes_withOrder base .a _ rfl (fun q => (base_queues q).1) (base_queues .a).2

theorem witness_ConnectMakesOnePendingRecord :
    let s := connecting base (connectParams 0 100 0 9 0 1 0 3 0)
    TableLaw s ∧ GroupLaw s ∧ CongestionLaw s ∧ AdmissionLaw s ∧ s.HolderAt .a
      ∧ s.Takes .a (queuedOrder 0x30 7 (connectParams 0 100 0 9 0 1 0 3 0))
      ∧ keyNamed 1 0 = some 0 ∧ s.classFor 0 100 0 = 3 ∧ s.PassesTo10 0 100 0 (some 0)
      ∧ s.Check11 0 100 3 := by
  refine ⟨base_table, base_group, base_congestion, base_admission, trivial, connecting_takes _, rfl,
    by decide +kernel, base_passesTo10, fun h => absurd h base_newlyBusy.2.2.1, fun h c _ hc => ?_⟩
  have h0 : ¬(base.NewlyBusy 0 ∧ base.groupAt 0 = base.groupAt 100) :=
    fun h => base_newlyBusy.2.2.1 h.1
  have hb : c = (base.group (base.groupAt 100)).busy := hc h0
  subst hb
  show (base.group (base.groupAt 100)).roomFor 3 (base.group (base.groupAt 100)).busy
  unfold Group.roomFor
  decide +kernel

/-- Slot 5 finds group 1 full; slot 1 is the victim, with the PENDING record 1. -/
theorem witness_ConnectPreemptsTheLowestHoldingSlot :
    let s := connecting base (connectParams 0 101 0 9 0 0 0 0 1)
    TableLaw s ∧ PrivacyLaw s ∧ AdmissionLaw s ∧ s.HolderAt .a
      ∧ s.Takes .a (queuedOrder 0x30 7 (connectParams 0 101 0 9 0 0 0 0 1))
      ∧ s.classFor 0 101 0 = 3 ∧ s.PassesTo10 0 101 0 none
      ∧ s.FirstPasses 0 101 3 true none ∧ s.SecondPasses 0 101 3 true none (some 1) := by
  have hcand : base.Candidate 0 101 3 1 1 := by
    refine ⟨by decide, by decide +kernel, by decide +kernel, fun c hc hn => ?_⟩
    have : c = ⟨1, false, 97, 98, 700, 0, none, false⟩ := by
      revert c; decide +kernel
    subst this
    refine ⟨rfl, by decide, fun e he h1 h2 => ?_⟩
    rcases he with rfl | rfl
    · omega
    · rfl
  refine ⟨base_table, base_privacy, base_admission, trivial, connecting_takes _, by decide +kernel,
    base_passesTo10_public, ⟨fun _ => rfl, fun h => absurd h base_newlyBusy.2.2.1⟩,
    fun h => absurd base_newlyBusy.2.1 h, fun _ => ?_⟩
  have hfull : (base.group (base.groupAt 101)).quota ≤ base.countForSecond 0 101 none := by
    decide +kernel
  refine (if_pos hfull).mpr ⟨rfl, 1, rfl, hcand, rfl, fun w m n hw _ hm hn => ?_⟩
  have hm0 : m = 0 := by
    obtain ⟨⟨c, hc, hn, rfl⟩, -⟩ := hm
    revert c; decide +kernel
  have hw1 : 1 ≤ w := by
    rcases w with _ | w
    · have h : (base.slot 0).group = 1 := hw.2.1
      exact absurd h (by decide +kernel)
    · omega
  omega

/-- Two slots of the full group 3 named by calls of class 0 and 2, and two more of it free; the first
call names a slot of group 4 too. -/
def crowded : State :=
  ({ ready with
    connections :=
      [⟨20, true, 136, 146, 5, 0, none, false⟩, ⟨21, true, 163, 138, 6, 2, none, false⟩] } : State)
    |>.setSlot 40 ⟨.tie, 3⟩ |>.setSlot 41 ⟨.tie, 3⟩ |>.setSlot 42 ⟨.tie, 3⟩ |>.setSlot 43 ⟨.tie, 3⟩
    |>.setSlot 50 ⟨.tie, 4⟩ |>.setGroup 3 ⟨2, 0, 3, 2, 1, 2, true⟩
    |>.setGroup 4 ⟨64, 0, 3, 1, 0, 1, true⟩

theorem crowded_table : TableLaw crowded := by unfold TableLaw; decide +kernel

theorem crowded_station (n : Nat) : crowded.station n = Station.reset := by
  by_cases h : n < 96
  · revert n; decide +kernel
  · simp [State.station, h]

theorem crowded_admission : AdmissionLaw crowded := by
  refine ⟨fun n identity h => ?_, fun n m identity hn => ?_⟩
  · rw [crowded_station] at h
    simp [StationState.concerns, Station.reset] at h
  · rw [crowded_station] at hn
    cases hn

theorem crowded_leg (n : Nat) : crowded.leg n = none := by
  by_cases h : n < 64
  · revert n; decide +kernel
  · simp [State.leg, h]

/-- Without a privacy part, a held leg or a LOADED context the law of call privacy holds. -/
theorem privacy_of_none {s : State} (hp : ∀ c ∈ s.connections, c.privacy = none)
    (hl : ∀ n, s.leg n = none) (hu : ∀ k, k < 32 → (s.key k).useCount = 0)
    (hk : ∀ k, k < 32 → (s.key k).material = none) : PrivacyLaw s := by
  refine ⟨fun c hc part h => ?_, ?_, fun n leg h => ?_, fun k h => ?_, fun k m hm => ?_⟩
  · rw [hp c hc] at h; cases h
  · exact List.Pairwise.imp_of_mem (R := fun _ _ => True)
      (fun hc _ _ part h => by rw [hp _ hc] at h; cases h)
      (List.pairwise_of_forall fun _ _ => trivial)
  · rw [hl] at h; cases h
  · rw [hu k h]
    exact (List.countP_eq_zero.mpr fun c hc => by rw [hp c hc]; simp).symm
  · by_cases h : k < 32
    · rw [hk k h] at hm; cases hm
    · simp [State.key, h, KeyContext.reset] at hm

theorem crowded_privacy : PrivacyLaw crowded :=
  privacy_of_none (by decide +kernel) crowded_leg (by decide +kernel) (by decide +kernel)

theorem crowded_takes (params : List Byte) :
    (connecting crowded params).Takes .a (queuedOrder 0x30 7 params) := by
  refine takes_withOrder crowded .a _ rfl (fun q => ?_) rfl
  cases q <;> rfl

/-- Slots 43 and 41, both free, pass checks 2 to 10. -/
theorem crowded_passesTo10 (cls : Nat) (h : cls ≤ 3) : crowded.PassesTo10 139 137 cls none := by
  refine ⟨⟨by decide, by decide, by decide, h, fun _ hk => (nomatch hk)⟩, ?_,
    fun _ e he hlt => by omega, fun e he hge hlt => ?_, fun st tr e h => ?_,
    fun st tr e h => ?_, fun _ hk => (nomatch hk), ?_, fun h => absurd rfl h⟩
  · unfold State.Check3; decide +kernel
  · rcases he with rfl | rfl <;> decide +kernel
  · obtain ⟨hj, hs, ht, _⟩ := h; omega
  · obtain ⟨hj, hs, ht, _⟩ := h; omega
  · unfold State.Check9; decide +kernel

theorem crowded_newlyBusy : crowded.NewlyBusy 139 ∧ crowded.NewlyBusy 137 := by
  unfold State.NewlyBusy
  decide +kernel

/-- Slot 40 is a candidate above class 0, slot 42 above class 2. -/
theorem crowded_candidate (k : Nat) :
    (0 < k → crowded.Candidate 139 137 k 3 40) ∧ (2 < k → crowded.Candidate 139 137 k 3 42) := by
  refine ⟨fun hk => ⟨by decide, by decide +kernel, by decide +kernel, fun c hc hn => ?_⟩,
    fun hk => ⟨by decide, by decide +kernel, by decide +kernel, fun c hc hn => ?_⟩⟩
  · have : c = ⟨20, true, 136, 146, 5, 0, none, false⟩ := by revert c; decide +kernel
    subst this
    exact ⟨rfl, hk, fun e he _ _ => by rcases he with rfl | rfl <;> rfl⟩
  · have : c = ⟨21, true, 163, 138, 6, 2, none, false⟩ := by revert c; decide +kernel
    subst this
    exact ⟨rfl, hk, fun e he _ _ => by rcases he with rfl | rfl <;> rfl⟩

theorem crowded_candidate_only {k w : Nat} (h : crowded.Candidate 139 137 k 3 w) :
    (w = 40 ∧ crowded.freedBy (some 40) w = true) ∨ (w = 42 ∧ 2 < k) := by
  obtain ⟨hw, hg, hn, hall⟩ := h
  have h42 : w = 40 ∨ w = 42 := by
    have hall : ∀ w, w < 64 → (crowded.slot w).group = 3 →
        (∃ c ∈ crowded.connections, c.names (96 + w) = true) → w = 40 ∨ w = 42 := by decide +kernel
    exact hall w hw hg hn
  rcases h42 with rfl | rfl
  · exact .inl ⟨rfl, by decide +kernel⟩
  · exact .inr ⟨rfl, (hall ⟨21, true, 163, 138, 6, 2, none, false⟩ (by decide +kernel) rfl).2.1⟩

theorem crowded_first (k : Nat) (hk : 0 < k) : crowded.FirstPasses 139 137 k true (some 40) := by
  refine ⟨fun h => absurd crowded_newlyBusy.1 h, fun _ => ?_⟩
  have hfull : (crowded.group (crowded.groupAt 139)).quota
      ≤ (crowded.group (crowded.groupAt 139)).busy := by decide +kernel
  refine (if_pos hfull).mpr ⟨rfl, 40, rfl, (crowded_candidate k).1 hk, rfl, fun w m n hw _ hm hn => ?_⟩
  have hm0 : m = 0 := by
    obtain ⟨⟨c, hc, hn, rfl⟩, -⟩ := hm
    revert c; decide +kernel
  have := crowded_candidate_only hw
  omega

theorem crowded_full : (crowded.group (crowded.groupAt 137)).quota
    ≤ crowded.countForSecond 139 137 (some 40) := by decide +kernel

/-- Two newly busy slots of one full group, and two victims: slot 40 of class 0, then slot 42 of class
2. -/
theorem witness_ConnectPreemptsTwice :
    let params := connectParams 139 137 0 9 3 0 0 0 1
    let s := connecting crowded params
    TableLaw s ∧ PrivacyLaw s ∧ AdmissionLaw s ∧ s.HolderAt .a ∧ s.Takes .a (queuedOrder 0x30 7 params)
      ∧ s.classFor 139 137 3 = 3 ∧ s.PassesTo10 139 137 3 none
      ∧ s.FirstPasses 139 137 3 true (some 40)
      ∧ s.SecondPasses 139 137 3 true (some 40) (some 42) := by
  refine ⟨crowded_table, crowded_privacy, crowded_admission, trivial, crowded_takes _,
    by decide +kernel, crowded_passesTo10 3 (by decide), crowded_first 3 (by decide),
    fun h => absurd crowded_newlyBusy.2 h, fun _ => ?_⟩
  refine (if_pos crowded_full).mpr ⟨rfl, 42, rfl, (crowded_candidate 3).2 (by decide), by decide +kernel,
    fun w m n hw hb hm hn => ?_⟩
  have hw : (w = 40 ∧ crowded.freedBy (some 40) w = true) ∨ (w = 42 ∧ 2 < 3) :=
    crowded_candidate_only hw
  have hb : crowded.freedBy (some 40) w = false := hb
  rcases hw with ⟨_, h⟩ | ⟨rfl, _⟩
  · rw [h] at hb; cases hb
  · obtain ⟨⟨c, hc, hcn, rfl⟩, hle⟩ := hm
    obtain ⟨⟨d, hd, hdn, rfl⟩, hle'⟩ := hn
    exact .inr ⟨Nat.le_antisymm (hle' c hc hcn) (hle d hd hdn), Nat.le_refl _⟩

/-- Each check of CONNECT fails where those before it pass. The full table is no lawful one: a lawful
one of 160 records feeds every destination, and check 3 fails first. -/
theorem witness_ConnectIsRefusedByTheFirstFailingCheck :
    (∀ params, (connecting base params).Takes .a (queuedOrder 0x30 7 params)
        ∧ (connecting base params).HolderAt .a ∧ AdmissionLaw (connecting base params))
      ∧ (¬Check2 176 0 0 none ∧ ¬Check2 0 160 0 none ∧ ¬Check2 5 5 0 none ∧ ¬Check2 0 100 4 none
        ∧ ¬Check2 0 100 0 (some 32) ∧ Check2 175 159 3 (some 31))
      ∧ (Check2 160 96 0 none ∧ ¬base.Check3 96)
      ∧ (base.Check3 100 ∧ ¬base.Check4 1 100)
      ∧ (base.Check3 102 ∧ base.Check4 0 102 ∧ ¬base.Check5 0 102)
      ∧ (base.Check4 4 100 ∧ base.Check5 4 100 ∧ ¬base.Check6 4 100)
      ∧ (base.Check4 4 101 ∧ base.Check5 4 101 ∧ base.Check6 4 101 ∧ ¬base.Check7 4 101 none)
      ∧ (base.Check7 0 100 (some 1) ∧ ¬base.Check8 0 100 (some 1))
      ∧ (base.Check8 0 100 none
        ∧ ¬({ base with connections := List.replicate 160 ⟨0, true, 5, 6, 0, 0, none, false⟩ } :
          State).Check9)
      ∧ ¬({ base with legs := Vector.replicate 64 (some ⟨0, .waitingDescramble⟩) } :
          State).Check10 (some 0) := by
  have h4 : (base.station 4).state = .admitted 4 := by rw [base_station]; rfl
  have join4 : ∀ trunk, 96 ≤ trunk → trunk < 160 → base.Joins 4 trunk 4 trunk
      ⟨4, 7, none, .required, 3, none, false⟩ :=
    fun trunk h h' => ⟨.inl ⟨rfl, rfl⟩, by decide, h, h', 4, h4, rfl⟩
  refine ⟨fun _ => ⟨connecting_takes _, trivial, base_admission⟩, ?_, ?_, ?_, ?_, ?_, ?_, ?_, ?_, ?_⟩
  · unfold Check2; decide
  · refine ⟨by unfold Check2; decide, ?_⟩
    unfold State.Check3; decide +kernel
  · refine ⟨by unfold State.Check3; decide +kernel, fun h => ?_⟩
    obtain ⟨i, hi⟩ := h (by decide) 1 (.inl rfl) (by decide)
    rw [base_states.2.1] at hi
    cases hi
  · refine ⟨by unfold State.Check3; decide +kernel, fun _ e he hlt => ?_, fun h => ?_⟩
    · have : e = 0 := by rcases he with h | h <;> omega
      subst this
      exact ⟨1, base_states.1⟩
    · exact h 102 (.inr rfl) (by decide) (by decide) (by decide +kernel)
  · refine ⟨(base_checks45 4 100 (by decide) (by decide)).1,
      (base_checks45 4 100 (by decide) (by decide)).2, fun h => ?_⟩
    exact absurd (h 4 100 _ (join4 100 (by decide) (by decide))) (by decide +kernel)
  · refine ⟨(base_checks45 4 101 (by decide) (by decide)).1,
      (base_checks45 4 101 (by decide) (by decide)).2, fun st tr e h => ?_, fun h => ?_⟩
    · obtain ⟨hj, hs, ht, _, identity, hi, hf⟩ := h
      have hst : st = 4 ∧ tr = 101 := by omega
      obtain ⟨rfl, rfl⟩ := hst
      rw [h4] at hi
      cases StationState.admitted.inj hi
      have : e = ⟨4, 7, none, .required, 3, none, false⟩ := (Option.some.inj hf).symm
      subst this
      decide +kernel
    · exact (h 4 101 _ (join4 101 (by decide) (by decide))).1 (by simp) (by decide +kernel)
  · refine ⟨fun st tr e h => ?_, by unfold State.Check8 State.TieAt; decide +kernel⟩
    obtain ⟨rfl, rfl, rfl⟩ := base_joins rfl h
    exact ⟨fun h => absurd rfl h, fun h => nomatch h⟩
  · refine ⟨fun k h => (nomatch h), ?_⟩
    unfold State.Check9; decide +kernel
  · intro h
    obtain ⟨n, hn, hl⟩ := h (by simp)
    simp [State.leg, hn] at hl

section SlotFails

variable {s : State} {source destination k group c : Nat} {preempt : Bool} {barred : Nat → Bool}

theorem slotFails_full (h : (s.group group).quota ≤ c)
    (hv : preempt = false ∨ ∀ n, s.Candidate source destination k group n → barred n = true) :
    s.SlotFails source destination k preempt group c barred .groupFull := by
  unfold State.SlotFails
  rw [if_pos h]
  exact ⟨rfl, hv⟩

theorem slotFails_reserved (h : ¬(s.group group).quota ≤ c)
    (hr : (s.group group).quota - (s.group group).reserve ≤ c ∧ k < (s.group group).reserveClass) :
    s.SlotFails source destination k preempt group c barred .groupReserved := by
  unfold State.SlotFails
  rw [if_neg h, if_pos hr]

theorem slotFails_congested (h : ¬(s.group group).quota ≤ c)
    (hr : ¬((s.group group).quota - (s.group group).reserve ≤ c ∧ k < (s.group group).reserveClass))
    (hc : (s.group group).congested = true ∧ k = 0) :
    s.SlotFails source destination k preempt group c barred .congested := by
  unfold State.SlotFails
  rw [if_neg h, if_neg hr]
  exact ⟨rfl, hc⟩

end SlotFails

/-- Check 11 with one newly busy slot, the destination: full without a candidate or without PREEMPT,
reserved, and congested with class 0. -/
theorem witness_ConnectIsRefusedAtCheckEleven :
    (base.PassesTo10 160 101 0 none ∧ base.classFor 160 101 0 = 0 ∧ base.NewlyBusy 101
        ∧ ∀ preempt, base.FirstPasses 160 101 0 preempt none
          ∧ base.SlotFails 160 101 0 preempt (base.groupAt 101) (base.countForSecond 160 101 none)
              (base.freedBy none) .groupFull)
      ∧ ∀ g outcome, (g, outcome) = (⟨3, 1, 3, 64, 63, 2, false⟩, .groupReserved)
            ∨ (g, outcome) = (⟨3, 1, 3, 1, 0, 1, true⟩, .congested) →
          (base.setGroup 2 g).PassesTo10 160 100 0 none ∧ (base.setGroup 2 g).NewlyBusy 100
            ∧ (base.setGroup 2 g).FirstPasses 160 100 0 false none
            ∧ (base.setGroup 2 g).SlotFails 160 100 0 false ((base.setGroup 2 g).groupAt 100)
                ((base.setGroup 2 g).countForSecond 160 100 none) ((base.setGroup 2 g).freedBy none)
                outcome := by
  have hn : ¬base.NewlyBusy 160 := base_newlyBusy.2.2.2.1
  refine ⟨⟨base_passesTo10_service 101 (.inr rfl), by decide +kernel, base_newlyBusy.2.1,
    fun preempt => ⟨⟨fun _ => rfl, fun h => absurd h hn⟩, ?_⟩⟩, fun g outcome hg =>
    ⟨base_passesTo10_service 100 (.inl rfl), base_newlyBusy.1,
      ⟨fun _ => rfl, fun h => absurd h hn⟩, ?_⟩⟩
  · have hfull : (base.group (base.groupAt 101)).quota ≤ base.countForSecond 160 101 none := by
      decide +kernel
    refine slotFails_full hfull (.inr fun v hv => ?_)
    obtain ⟨_, _, ⟨c, hc, hn⟩, h⟩ := hv
    exact absurd (h c hc hn).2.1 (Nat.not_lt_zero _)
  · rcases hg with h | h <;> cases h
    · exact slotFails_reserved (by decide +kernel) (by decide +kernel)
    · exact slotFails_congested (by decide +kernel) (by decide +kernel) (by decide +kernel)

/-- Check 11 with two newly busy slots: the first passes with slot 40 as its victim, and no other
candidate is left for the second. -/
theorem witness_ConnectIsRefusedAtTheSecondSlot :
    let params := connectParams 139 137 0 9 2 0 0 0 1
    let s := connecting crowded params
    AdmissionLaw s ∧ s.HolderAt .a ∧ s.Takes .a (queuedOrder 0x30 7 params)
      ∧ s.classFor 139 137 2 = 2 ∧ s.PassesTo10 139 137 2 none
      ∧ s.FirstPasses 139 137 2 true (some 40) ∧ s.NewlyBusy 137
      ∧ s.SlotFails 139 137 2 true (s.groupAt 137) (s.countForSecond 139 137 (some 40))
          (s.freedBy (some 40)) .groupFull := by
  refine ⟨crowded_admission, trivial, crowded_takes _, by decide +kernel,
    crowded_passesTo10 2 (by decide), crowded_first 2 (by decide), crowded_newlyBusy.2, ?_⟩
  refine slotFails_full crowded_full (.inr fun v hv => ?_)
  have hv : (v = 40 ∧ crowded.freedBy (some 40) v = true) ∨ (v = 42 ∧ 2 < 2) :=
    crowded_candidate_only hv
  rcases hv with ⟨_, h⟩ | ⟨_, h⟩
  · exact h
  · omega

/-! #### The other statements -/

/-- Ids 159 and 160, no record 3, record 0 trace-held and record 1 not; a tag of two records and a tag
of none. -/
theorem witness_ReleaseOrdersRunTheReleaseProcedure :
    (∀ params, (asked .a 0x31 params).Takes .a (queuedOrder 0x31 7 params)
        ∧ (asked .a 0x31 params).HolderAt .a ∧ TableLaw (asked .a 0x31 params)
        ∧ GroupLaw (asked .a 0x31 params) ∧ CongestionLaw (asked .a 0x31 params))
      ∧ 159 < ((0 : Byte) ++ (160 : Byte)).toNat
      ∧ (∀ c ∈ base.connections, c.id ≠ ((0 : Byte) ++ (159 : Byte)).toNat)
      ∧ (∃ c ∈ base.connections, c.id = 0 ∧ c.traceHeld = true)
      ∧ (∃ c ∈ base.connections, c.id = 1 ∧ c.traceHeld = false)
      ∧ (∃ c ∈ base.connections, (c.callTag == ((0x02 : Byte) ++ (0xBC : Byte) : Word16)) = true)
      ∧ (∀ c ∈ base.connections, (c.callTag == ((0 : Byte) ++ (1 : Byte) : Word16)) = false) := by
  exact ⟨fun _ => ⟨asked_takes _ _ _, trivial, asked_table _ _ _, base_group, base_congestion⟩,
    by decide +kernel, by decide +kernel, by decide +kernel, by decide +kernel, by decide +kernel,
    by decide +kernel⟩

/-- Slot 0 holds class 3, slot 63 none; group 1's lowest free class is 0, group 7 has none. -/
theorem witness_NetworkAndTrunkLooksReportAndChangeNothing :
    (∀ code params, (asked .b code params).Takes .b (queuedOrder code 7 params))
      ∧ (∀ k, some 3 = some k ↔ base.Holds 0 k) ∧ (∀ k, none = some k ↔ base.Holds 63 k)
      ∧ (let free : Nat → Nat → Prop := fun m k => m < 64 ∧ (base.slot m).group = 7 ∧ base.Holds m k
          ∧ ∀ c ∈ base.connections, c.names (96 + m) = true → c.traceHeld = false
        ∀ k, none = some k ↔ (∃ m, free m k) ∧ ∀ m j, free m j → k ≤ j) := by
  refine ⟨fun _ _ => asked_takes _ _ _, fun k => ⟨fun h => ?_, fun h => ?_⟩, fun k =>
    ⟨fun h => (nomatch h), fun h => ?_⟩, fun k => ⟨fun h => (nomatch h), fun h => ?_⟩⟩
  · cases h
    exact ⟨by decide +kernel, by decide +kernel⟩
  · obtain ⟨⟨c, hc, hn, rfl⟩, -⟩ := h
    revert c; decide +kernel
  · obtain ⟨⟨c, hc, hn, -⟩, -⟩ := h
    have : ∀ c ∈ base.connections, c.names (96 + 63) = false := by decide +kernel
    rw [this c hc] at hn
    cases hn
  · obtain ⟨⟨m, hm, hg, ⟨⟨c, hc, hn, -⟩, -⟩, -⟩, -⟩ := h
    have : ∀ m, m < 64 → (base.slot m).group = 7 → ∀ c ∈ base.connections,
        c.names (96 + m) = false := by decide +kernel
    rw [this m hm hg c hc] at hn
    cases hn

/-- Slot 63 is free of records and slot 1 is not; the modes and the group numbers at their ends. -/
theorem witness_SetTrunkAndSetGroupStoreTheirSettings :
    (∀ code params, (asked .a code params).Takes .a (queuedOrder code 7 params)
        ∧ (asked .a code params).HolderAt .a)
      ∧ (2 : Byte).toNat ≤ 2 ∧ ¬(∃ c ∈ base.connections, c.names (96 + 63) = true)
      ∧ ∃ c ∈ base.connections, c.names (96 + 1) = true :=
  ⟨fun _ _ => ⟨asked_takes _ _ _, trivial⟩, by decide, by decide +kernel, by decide +kernel⟩

theorem witness_KeyOrdersChangeOneFreeContext :
    (∀ code params, (asked .a code params).Takes .a (queuedOrder code 7 params)
        ∧ (asked .a code params).HolderAt .a)
      ∧ (1 : Byte).toNat ≤ 1 ∧ 0 < (base.key 0).useCount ∧ (base.key 31).useCount = 0 :=
  ⟨fun _ _ => ⟨asked_takes _ _ _, trivial⟩, by decide, by decide +kernel, by decide +kernel⟩

/-- Record 2 has a DESCRAMBLE part with leg 0, record 0 none; leg states of every kind. -/
theorem witness_ResyncAndLookLegActOnOneLeg :
    (∀ code params, (asked .a code params).Takes .a (queuedOrder code 7 params)
        ∧ (asked .a code params).HolderAt .a ∧ TableLaw (asked .a code params))
      ∧ 159 < (160 : Byte).toNat
      ∧ (∀ d ∈ base.connections, d.id = (0 : Byte).toNat → d.privacy = none)
      ∧ (∃ c ∈ base.connections, c.id = (2 : Byte).toNat ∧ c.privacy = some ⟨.descramble, 0, 0⟩)
      ∧ ∀ l, (base.setLeg 0 (some ⟨0, l⟩)).leg 0 = some ⟨0, l⟩ := by
  refine ⟨fun _ _ => ⟨asked_takes _ _ _, trivial, asked_table _ _ _⟩, by decide, by decide +kernel,
    by decide +kernel, fun l => ?_⟩
  exact State.leg_setLeg_same _ (by decide) _

/-- Watch 0 is ARMED with identity 3, watch 1 TRIPPED with identity 1, watches 2 and 3 IDLE. -/
theorem witness_WatchOrdersArmClearAndDisarm :
    (∀ code params, (asked .m code params).Takes .m (queuedOrder code 7 params))
      ∧ TableLaw base ∧ WatchLaw base ∧ (base.watch 0).watched = some 3
      ∧ (∀ m, (base.watch m).watched ≠ some 2)
      ∧ (base.watch 2 = .idle ∧ ∀ l, l < 2 → base.watch l ≠ .idle)
      ∧ base.watch 3 = .idle ∧ (base.watch 0).trace = none ∧ base.watch 0 = .armed 3 false
      ∧ base.watch 1 = .tripped 1 true true ⟨0, 700, 0, .source, 96, none, 5, false⟩
      ∧ (∀ m, m < 4 → (base.setWatch 2 (.armed 4 false) |>.setWatch 3 (.armed 5 false)).watch m
          ≠ .idle)
      ∧ 3 < (4 : Byte).toNat := by
  refine ⟨fun _ _ => asked_takes _ _ _, base_table, base_watches, rfl, fun m => ?_, ?_, ?_, ?_, ?_,
    ?_, ?_, by decide⟩
  · rw [base_watch]
    rcases m with _ | _ | m <;> simp [Watch.watched]
  all_goals decide +kernel

theorem witness_LookWatchReportsTheTraceRecord :
    (∀ params, (asked .m 0x64 params).Takes .m (queuedOrder 0x64 7 params))
      ∧ (base.watch 0).trace = none ∧ (base.watch 3).trace = none
      ∧ base.watch 1 = .tripped 1 true true ⟨0, 700, 0, .source, 96, none, 5, false⟩
      ∧ 3 < (4 : Byte).toNat := by
  refine ⟨fun _ => asked_takes _ _ _, ?_, ?_, ?_, by decide⟩ <;> decide +kernel

/-- The part in a call-keeping restart, the links of line ports 0 to 2 UP. -/
def restarting : State := { base with restart := some .keep }

theorem restarting_queue : QueueLaw restarting := by
  intro p
  cases p <;> simp [PortLaw, restarting, base, ready, State.port, State.reset, PortState.reset]

theorem witness_ReadCausesAndSetPortModeActOnTheirPort :
    (∀ code params, (asked .b code params).Takes .b (queuedOrder code 7 params))
      ∧ QueueLaw restarting ∧ restarting.restart ≠ none :=
  ⟨fun _ _ => asked_takes _ _ _, restarting_queue, by simp [restarting]⟩

theorem witness_ColdRestartGivesEveryBlockItsColdValues :
    base.resetPin = false ∧ ({ base with resetPin := true } : State).resetPin = true
      ∧ (asked .m 0x70 []).Takes .m (queuedOrder 0x70 7 []) ∧ (asked .m 0x70 []).HolderOrM .m :=
  ⟨rfl, rfl, asked_takes _ _ _, .inl rfl⟩

theorem witness_KeepRestartKeepsLiveRecordsAndAdmittedStations :
    (asked .a 0x71 []).Takes .a (queuedOrder 0x71 7 []) ∧ (asked .a 0x71 []).HolderOrM .a
      ∧ TableLaw (asked .a 0x71 []) ∧ GroupLaw (asked .a 0x71 []) ∧ CongestionLaw (asked .a 0x71 [])
      ∧ PrivacyLaw (asked .a 0x71 []) ∧ WatchLaw (asked .a 0x71 [])
      ∧ (∃ c ∈ base.connections, c.live = true ∧ c.privacy ≠ none)
      ∧ (∃ c ∈ base.connections, c.live = false) ∧ (base.group 1).congested = true :=
  ⟨asked_takes _ _ _, .inr trivial, asked_table _ _ _, base_group, base_congestion, base_privacy,
    base_watches, by decide +kernel, by decide +kernel, by decide +kernel⟩

theorem witness_RestartCompletionPlacesRestartedFirst :
    restarting.restart = some .keep ∧ restarting.resetPin = false ∧ QueueLaw restarting
      ∧ TableLaw restarting ∧ GroupLaw restarting ∧ CongestionLaw restarting
      ∧ (List.replicate 48 false).length = 48
      ∧ (∀ n, n < 48 → (restarting.line n).linkUp = (decide (n < 3)))
      ∧ ({ restarting with resetPin := true } : State).resetPin = true ∧ base.restart = none := by
  exact ⟨rfl, rfl, restarting_queue, base_table, base_group, base_congestion, by decide +kernel,
    by decide +kernel, rfl, rfl⟩

theorem witness_EndOfFrameReplacesReceivedSamples :
    (List.replicate 176 (7 : Byte)).length = 176 := by decide +kernel

/-- The full group's part with identity 4102 ADMITTED at position 14 and watched, and a call of its
PENDING. -/
def tripping : State :=
  ({ crowded with
    directory := [⟨4102, 1, some 4, .openClass, 255, none, false⟩]
    connections := crowded.connections ++ [⟨22, false, 14, 139, 7, 0, none, false⟩] } : State)
    |>.setLine 7 goodLine |>.setStation 14 ⟨.admitted 4102, 0, none, []⟩
    |>.setWatch 0 (.armed 4102 true)

/-- A watch trips at the frame start, with its event. -/
theorem witness_FrameStartTripsAWatch :
    TableLaw tripping ∧ PrivacyLaw tripping
      ∧ tripping.tripReport 1 = [.traceTripped 0 4102 true ⟨22, 7, 14, .source, 139, none, 1, false⟩] := by
  refine ⟨by unfold TableLaw; decide +kernel,
    privacy_of_none (by decide +kernel) (fun n => ?_) (by decide +kernel) (by decide +kernel),
    by decide +kernel⟩
  exact crowded_leg n

/-- A PENDING record, a plain one, and one whose leg loses its lock at the frame start; and a hunt that
locks. -/
theorem witness_FrameStartPromotesAndCarries :
    TableLaw base ∧ PrivacyLaw base ∧ (∃ c ∈ base.connections, c.live = false)
      ∧ (∃ c ∈ base.connections, c.privacy = none)
      ∧ (∃ c ∈ base.connections, c.privacy = some ⟨.descramble, 0, 0⟩)
      ∧ base.leg 0 = some ⟨0, .synced 5 0 1234 2 9⟩ ∧ base.leg 63 = none
      ∧ base.syncReport = [.syncLost 2 9 0 0 5 0xFF]
      ∧ (legRule ⟨2, true, 99, 0, 9, 3, none, false⟩ ⟨.descramble, 0, 0⟩ (base.key 0) 255
          (.hunt 0 [⟨some 38, 1⟩]) 39).2.2 = [.syncLocked 2 9 0 0 39] := by
  refine ⟨base_table, base_privacy, ?_, ?_, ?_, ?_, ?_, ?_, ?_⟩ <;> decide +kernel

theorem witness_GeneratorPassesThroughEveryState :
    (1 : Word16).getLsbD 0 = true ∧ (65535 : Word16).getLsbD 0 = true
      ∧ (loadedKey [0, 0, 0, 0, 76, 0, 0, 0]).material = some ⟨0, 77⟩ := by decide

theorem witness_ScrambleLegFollowsItsPeriodSeed :
    (base.key 0).material = some ⟨1000, 77⟩ ∧ (List.replicate 256 (0 : Byte)).length = 256 := by
  decide +kernel

theorem witness_LegsInStepRecoverTheVoice :
    (base.key 0).material = some ⟨1000, 77⟩ := by decide +kernel

/-- The small fitted part with other secrets, and another expected response of the station CHALLENGED. -/
def otherSecrets : State :=
  ({ base with
    directory := base.directory.map fun e => { e with secret := e.secret + 1 }
    pending := [.register 0 1] } : State)
    |>.setStation 1 ⟨.challenged 2 201 777 256000, 1, some (.challenge 201), []⟩

theorem witness_NoCommandShowsASecret :
    let s : State := { base with pending := [.register 0 1] }
    SameButSecrets s otherSecrets ∧ s ≠ otherSecrets
      ∧ (∀ position response, s.pending.head? ≠ some (.answer position response))
      ∧ ∃ t, step s = .next t := by
  refine ⟨⟨rfl, by decide +kernel, by decide +kernel⟩, by decide +kernel,
    fun _ _ h => (nomatch h), _, rfl⟩

theorem witness_StationFramesDecodeToTheirMessages :
    WellFormed (.signal 95 [1]) = true
      ∧ encodeStationFrame (.signal 95 [1]) = some (47, [0x01, 0x04, 0x01, 0x01])
      ∧ WellFormed (.unfitStationMessage 47 []) = true
      ∧ encodeStationFrame (.unfitStationMessage 47 []) = some (47, [])
      ∧ WellFormed (.orderTransfer .a .completing [0x06, 7, 0]) = true
      ∧ encodeTransfer (.orderTransfer .a .completing [0x06, 7, 0]) = some (.a, [0x01, 0x06, 7, 0])
      ∧ WellFormed (.unknownTransferKind .m (some 0x04)) = true
      ∧ encodeTransfer (.unknownTransferKind .m (some 0x04)) = some (.m, [0x04]) := by decide

/-- A state with every law of the tables, and a step of it. -/
theorem witness_EveryStepKeeps :
    QueueLaw base ∧ TableLaw base ∧ ClassLaw base ∧ GroupLaw base ∧ CongestionLaw base
      ∧ BusyLaw base ∧ PrivacyLaw base ∧ DirectoryLaw base ∧ AdmissionLaw base ∧ DeliverLaw base
      ∧ StationLaw base ∧ ServiceLaw base ∧ WatchLaw base
      ∧ ∃ t, step { base with pending := [.frameStart] } = .next t :=
  ⟨base_queue, base_table, base_class, base_group, base_congestion, base_busy, base_privacy,
    base_directory, base_admission, base_deliver, base_stations, base_service, base_watches, _, rfl⟩

theorem witness_EveryStepKeepsTheRestartingPeriodQuiet :
    RestartLaw State.reset ∧ State.reset.restart = some .cold
      ∧ (∃ t, step { State.reset with pending := [.frameStart] } = .next t)
      ∧ RestartLaw { State.reset with clock := 4000 } ∧ RestartBoundLaw { State.reset with clock := 4000 }
      ∧ (∃ t, step { State.reset with clock := 4000 } = .next t)
      ∧ ¬RestartBoundLaw { State.reset with clock := 4001 } :=
  ⟨reset_restart, rfl, ⟨_, rfl⟩, reset_restart, fun _ _ => by decide, ⟨_, rfl⟩,
    fun h => absurd (h rfl rfl) (by decide)⟩

end Sys2Proof.Tests

end
end

section
/-! SUPPORT. What a change of the state does to the queues of the ports: the relation "the queues
stand", the start of a restart, and what appending and posting do to the queue law (R1, R7, R10,
R11, R173). -/

namespace Sys2Proof.Machine

/-! ### The queues stand -/

/-- t has the queues and the open transfers of s, is in the same restart and has served the same port
last. -/
def SameQueues (s t : State) : Prop :=
  t.restart = s.restart ∧ t.lastServed = s.lastServed
    ∧ ∀ q, (t.port q).orders = (s.port q).orders ∧ (t.port q).out = (s.port q).out
        ∧ (t.port q).transfer = (s.port q).transfer

theorem SameQueues.refl (s : State) : SameQueues s s := ⟨rfl, rfl, fun _ => ⟨rfl, rfl, rfl⟩⟩

theorem OnlyLinks.sameQueues {s t : State} (h : OnlyLinks s t) : SameQueues s t := by
  unfold OnlyLinks at h
  rw [h]
  exact ⟨rfl, rfl, fun _ => ⟨rfl, rfl, rfl⟩⟩

theorem OnlyCallsAndStations.sameQueues {s t : State} (h : OnlyCallsAndStations s t) :
    SameQueues s t := h.links.sameQueues

theorem OnlyCalls.sameQueues {s t : State} (h : OnlyCalls s t) : SameQueues s t :=
  h.andStations.sameQueues

theorem OnlyFrames.sameQueues {s t : State} (h : OnlyFrames s t) : SameQueues s t := by
  unfold OnlyFrames at h
  rw [h]
  exact ⟨rfl, rfl, fun _ => ⟨rfl, rfl, rfl⟩⟩

theorem SameQueues.trans {s t u : State} (h : SameQueues s t) (h' : SameQueues t u) :
    SameQueues s u := by
  obtain ⟨hr, hl, hq⟩ := h
  obtain ⟨hr', hl', hq'⟩ := h'
  refine ⟨hr'.trans hr, hl'.trans hl, fun q => ?_⟩
  obtain ⟨ho, hout, ht⟩ := hq q
  obtain ⟨ho', hout', ht'⟩ := hq' q
  exact ⟨ho'.trans ho, hout'.trans hout, ht'.trans ht⟩

/-- Rewriting the mode or the cause set of a port leaves the queues. -/
theorem State.setPort_sameQueues (s : State) (p : Port) (v : PortState)
    (ho : v.orders = (s.port p).orders) (hout : v.out = (s.port p).out)
    (ht : v.transfer = (s.port p).transfer) : SameQueues s (s.setPort p v) := by
  refine ⟨by simp, by simp, fun q => ?_⟩
  rw [State.port_setPort]
  by_cases h : q = p
  · subst h; simp [ho, hout, ht]
  · simp [h]

theorem State.mapConnection_sameQueues (s : State) (id : Nat) (f : Connection → Connection) :
    SameQueues s (s.mapConnection id f) := ⟨rfl, rfl, fun _ => ⟨rfl, rfl, rfl⟩⟩

/-! ### Posting, port by port -/

/-- A port after an event bound for it has been posted: the event is appended, or lost for the port
when its queue is full or a restart is in progress (R10, R11). -/
def PortState.posted (restart : Option RestartMode) (e : Event) (q : PortState) : PortState :=
  if restart = none ∧ q.out.length < 32 then { q with out := q.out ++ [.event e] }
  else
    { q with
      missed := true
      transfer := q.transfer.map fun t => { t with lostSince := true } }

theorem State.postTo_port_posted (s : State) (e : Event) (p q : Port) :
    (s.postTo e p).port q = if q = p then (s.port p).posted s.restart e else s.port q := by
  rw [State.postTo_port]
  unfold PortState.posted State.restarting
  by_cases h : q = p
  · cases hr : s.restart <;> by_cases hl : (s.port p).out.length < 32 <;> simp [h, hl]
  · simp [h]

theorem State.postTo_restart (s : State) (e : Event) (p : Port) :
    (s.postTo e p).restart = s.restart := by rw [State.postTo_onlyPorts]

theorem State.post_restart (s : State) (e : Event) : (s.post e).restart = s.restart := by
  rw [State.post_onlyPorts]

theorem destinations_nodup (e : Event) : (destinations e).Nodup := by
  cases e <;> simp [destinations]

/-- An event changes each of its ports once, and no other port (R10). -/
theorem State.post_port (s : State) (e : Event) (p : Port) :
    (s.post e).port p =
      if p ∈ destinations e then (s.port p).posted s.restart e else s.port p := by
  have key : ∀ (ps : List Port) (t : State), ps.Nodup →
      (ps.foldl (fun u q => u.postTo e q) t).port p =
        if p ∈ ps then (t.port p).posted t.restart e else t.port p := by
    intro ps
    induction ps with
    | nil => simp
    | cons q ps ih =>
      intro t hnd
      obtain ⟨hq, hps⟩ := List.nodup_cons.1 hnd
      rw [List.foldl_cons, ih _ hps, State.postTo_port_posted, State.postTo_restart]
      by_cases h : p = q
      · subst h; simp [hq]
      · simp [h]
  exact key _ s (destinations_nodup e)

theorem PortState.posted_orders (r : Option RestartMode) (e : Event) (q : PortState) :
    (q.posted r e).orders = q.orders := by
  unfold PortState.posted; split <;> rfl

/-- Posting appends events to a port's out queue. -/
theorem State.postAll_port_out (s : State) (es : List Event) (p : Port) :
    ∃ posted : List Event, ((s.postAll es).port p).out = (s.port p).out ++ posted.map .event := by
  unfold State.postAll
  induction es generalizing s with
  | nil => exact ⟨[], by simp⟩
  | cons e es ih =>
    obtain ⟨l, hl⟩ := ih (s.post e)
    rw [List.foldl_cons, hl, State.post_port]
    unfold PortState.posted
    split
    · split
      · exact ⟨e :: l, by simp⟩
      · exact ⟨l, rfl⟩
    · exact ⟨l, rfl⟩

theorem State.postAll_port_orders (s : State) (es : List Event) (p : Port) :
    ((s.postAll es).port p).orders = (s.port p).orders := by
  rw [s.postAll_samePorts es p]

/-! ### The queue law -/

theorem QueueLaw.of_sameQueues {s t : State} (h : SameQueues s t) (hs : QueueLaw s) :
    QueueLaw t := by
  obtain ⟨hr, -, hq⟩ := h
  intro p
  obtain ⟨ho, hout, ht⟩ := hq p
  have := hs p
  unfold PortLaw at this ⊢
  rw [hr, ho, hout, ht]
  exact this

/-- A port rewritten under the law of the ports keeps the queue law. -/
theorem QueueLaw.setPort {s : State} (hs : QueueLaw s) {p : Port} {v : PortState}
    (hv : PortLaw s.restart v) : QueueLaw (s.setPort p v) := by
  intro q
  rw [State.setPort_restart, State.port_setPort]
  split
  · exact hv
  · exact hs q

/-- Every queue is empty while a restart is in progress (R1). -/
theorem QueueLaw.queues_empty {s : State} (hs : QueueLaw s) (hr : s.restart.isSome) (p : Port) :
    (s.port p).orders = [] ∧ (s.port p).out = [] := by
  obtain ⟨-, -, -, hempty, -⟩ := hs p
  exact hempty hr

/-- An entry is appended where there is room and no restart is in progress. -/
theorem PortLaw.append {q : PortState} (hq : PortLaw none q) (hroom : q.out.length < 32)
    (e : Entry) : PortLaw none { q with out := q.out ++ [e] } := by
  obtain ⟨ho, -, hp, -, ht⟩ := hq
  exact ⟨ho, by simpa using hroom, hp, by simp, ht⟩

/-- An event that is discarded leaves the queues, and does not readmit a record. -/
theorem PortLaw.posted {r : Option RestartMode} {q : PortState} (hq : PortLaw r q) (e : Event) :
    PortLaw r (q.posted r e) := by
  unfold PortState.posted
  split
  · rename_i h
    rw [h.1] at hq ⊢
    exact hq.append h.2 _
  · obtain ⟨ho, hout, hp, hr, ht⟩ := hq
    refine ⟨ho, hout, hp, hr, fun t h => ?_⟩
    obtain ⟨u, hu, rfl⟩ := Option.map_eq_some_iff.1 h
    exact ht u hu

theorem QueueLaw.append {s : State} (hs : QueueLaw s) {p : Port} (hr : s.restart = none)
    (hroom : (s.port p).out.length < 32) (e : Entry) : QueueLaw (s.append p e) := by
  have hp := hs p
  refine hs.setPort ?_
  rw [hr] at hp ⊢
  exact hp.append hroom e

theorem QueueLaw.post {s : State} (hs : QueueLaw s) (e : Event) : QueueLaw (s.post e) := by
  intro p
  rw [State.post_port, State.post_restart]
  split
  · exact (hs p).posted e
  · exact hs p

/-- Posting keeps the queue law: an event that finds no room is lost (R11). -/
theorem QueueLaw.postAll {s : State} (hs : QueueLaw s) (es : List Event) :
    QueueLaw (s.postAll es) := by
  unfold State.postAll
  induction es generalizing s with
  | nil => exact hs
  | cons e es ih => exact ih (hs.post e)

theorem QueueLaw.finish {s : State} (hs : QueueLaw s) {w : Work} (h : SameQueues s w.state) :
    QueueLaw w.finish := (hs.of_sameQueues h).postAll _

/-- An order that leaves its queue makes room, and nothing more. -/
theorem QueueLaw.taken {s : State} (hs : QueueLaw s) (p : Port) : QueueLaw (s.taken p) := by
  obtain ⟨ho, hout, hp, hr, ht⟩ := hs p
  have hlen : (s.port p).orders.tail.length ≤ (s.port p).orders.length := by simp
  refine hs.setPort (p := p) (v := { s.port p with orders := (s.port p).orders.tail })
    ⟨hlen.trans ho, hout, fun o h => hp o (List.mem_of_mem_tail h), fun h => ?_,
      fun t h ha hs => ?_⟩
  · exact ⟨by simp [(hr h).1], (hr h).2⟩
  · obtain ⟨hroom, hnone⟩ := ht t h ha hs
    exact ⟨hlen.trans_lt hroom, hnone⟩

/-! ### The start of a restart -/

/-- t is in a restart with every queue empty, and every transfer in progress has learnt of it (R1,
R3, R173). -/
def StartsRestart (t : State) : Prop :=
  t.restart.isSome = true
    ∧ ∀ q, (t.port q).orders = [] ∧ (t.port q).out = []
        ∧ ∀ u ∈ (t.port q).transfer, u.restartSince = true

theorem StartsRestart.queueLaw {t : State} (h : StartsRestart t) : QueueLaw t := by
  intro q
  obtain ⟨ho, hout, ht⟩ := h.2 q
  refine ⟨by simp [ho], by simp [hout], by simp [ho], fun _ => ⟨ho, hout⟩, fun u hu _ hs => ?_⟩
  exact absurd (ht u hu) (by simp [hs])

theorem StartsRestart.of_sameQueues {s t : State} (h : SameQueues s t) (hs : StartsRestart s) :
    StartsRestart t := by
  obtain ⟨hr, -, hq⟩ := h
  refine ⟨hr ▸ hs.1, fun q => ?_⟩
  obtain ⟨ho, hout, ht⟩ := hq q
  rw [ho, hout, ht]
  exact hs.2 q

theorem restartPort_transfer (cause : RestartCause) (mode : PortMode) (p : PortState) :
    ∀ u ∈ (restartPort cause mode p).transfer, u.restartSince = true := by
  intro u hu
  obtain ⟨v, -, rfl⟩ := Option.map_eq_some_iff.1 hu
  rfl

theorem State.startCold_startsRestart (s : State) (cause : RestartCause) :
    StartsRestart (s.startCold cause) := by
  refine ⟨rfl, fun q => ?_⟩
  rw [State.startCold_port]
  exact ⟨rfl, rfl, restartPort_transfer _ _ _⟩

theorem State.keepTables_startsRestart (s : State) (cause : RestartCause) :
    StartsRestart (s.keepTables cause) := by
  refine ⟨rfl, fun q => ?_⟩
  rw [State.keepTables_port]
  exact ⟨rfl, rfl, restartPort_transfer _ _ _⟩

/-- During RESTARTING every event is lost (R11). -/
theorem StartsRestart.post {t : State} (h : StartsRestart t) (e : Event) :
    StartsRestart (t.post e) := by
  obtain ⟨hr, hq⟩ := h
  refine ⟨by rwa [State.post_restart], fun q => ?_⟩
  obtain ⟨ho, hout, ht⟩ := hq q
  have hne : t.restart ≠ none := Option.isSome_iff_ne_none.1 hr
  rw [State.post_port]
  split
  · simp only [PortState.posted, hne, false_and, if_false]
    refine ⟨ho, hout, fun u hu => ?_⟩
    obtain ⟨v, hv, rfl⟩ := Option.map_eq_some_iff.1 hu
    exact ht v hv
  · exact ⟨ho, hout, ht⟩

theorem StartsRestart.postAll {t : State} (h : StartsRestart t) (es : List Event) :
    StartsRestart (t.postAll es) := by
  unfold State.postAll
  induction es generalizing t with
  | nil => exact h
  | cons e es ih => exact ih (h.post e)

theorem State.startKeep_startsRestart (s : State) (cause : RestartCause) :
    StartsRestart (s.startKeep cause) :=
  ((s.keepTables_startsRestart cause).of_sameQueues
    (Work.releaseWhere_onlyCalls (Work.start (s.keepTables cause)) none _).sameQueues).postAll _

end Sys2Proof.Machine
end

section
/-! SUPPORT. The rows that take an order, said once: whose orders a row takes, what form and what
authority it asks for, and that its own answer leaves the queues (R7 to R9, R177). -/

namespace Sys2Proof.Machine

/-! ### The order table (R177) -/

theorem orderTable_rows_nodup : (orderTable.map (·.1)).Nodup := by decide +kernel

theorem orderTable_codes_nodup : (orderTable.map (·.2.1)).Nodup := by decide +kernel

theorem code_ne_release {r : Instr × Byte × Nat × Nat} (hr : r ∈ orderTable) : r.2.1 ≠ 0x31 := by
  revert r; decide +kernel

/-- The model's table of lengths is that of the order table, with RELEASE beside it. -/
theorem orderLengths_eq_find (code : Byte) :
    orderLengths code = if code = 0x31 then some (3, 3)
      else (orderTable.find? fun r => r.2.1 == code).map (·.2.2) := by
  revert code; decide +kernel

/-- A code has one row in the order table. -/
theorem orderTable_find_iff (r : Instr × Byte × Nat × Nat) (code : Byte) :
    orderTable.find? (fun r => r.2.1 == code) = some r ↔ r ∈ orderTable ∧ r.2.1 = code := by
  constructor
  · intro h
    exact ⟨List.mem_of_find?_eq_some h, by simpa using List.find?_some h⟩
  · rintro ⟨hr, hc⟩
    cases hf : orderTable.find? (fun r => r.2.1 == code) with
    | none =>
      have := List.find?_eq_none.1 hf r hr
      simp [hc] at this
    | some r' =>
      have hc' : r'.2.1 = code := by simpa using List.find?_some hf
      rw [List.inj_on_of_nodup_map orderTable_codes_nodup (List.mem_of_find?_eq_some hf) hr
        (hc'.trans hc.symm)]

/-! ### Whose orders a row takes -/

/-- The orders that `rowOf` gives a row. -/
def takenBy (i : Instr) (o : OrderRecord) : Bool := decide (rowOf o = i)

theorem rowOf_release (o : OrderRecord) (h : o.code = 0x31) :
    rowOf o = if o.params.getD 0 0 = 1 then .releaseByTag else .releaseById := by
  simp only [rowOf, h, if_true]

theorem rowOf_of_mem {r : Instr × Byte × Nat × Nat} (hr : r ∈ orderTable) (o : OrderRecord)
    (h : o.code = r.2.1) : rowOf o = r.1 := by
  have hne : o.code ≠ 0x31 := h ▸ code_ne_release hr
  simp only [rowOf, hne, if_false, (orderTable_find_iff r o.code).2 ⟨hr, h.symm⟩,
    Option.map_some, Option.getD_some]

theorem rowOf_of_unknown (o : OrderRecord) (h : o.code ≠ 0x31) (hu : ∀ r ∈ orderTable, r.2.1 ≠ o.code) :
    rowOf o = .unknownOrder := by
  have hf : orderTable.find? (fun r => r.2.1 == o.code) = none :=
    List.find?_eq_none.2 fun r hr => by simpa using hu r hr
  simp only [rowOf, h, if_false, hf, Option.map_none, Option.getD_none]

/-- All that the row of an order can be. -/
theorem rowOf_cases (o : OrderRecord) :
    (o.code = 0x31 ∧ o.params.getD 0 0 = 1 ∧ rowOf o = .releaseByTag)
      ∨ (o.code = 0x31 ∧ o.params.getD 0 0 ≠ 1 ∧ rowOf o = .releaseById)
      ∨ (∃ r ∈ orderTable, r.2.1 = o.code ∧ o.code ≠ 0x31 ∧ rowOf o = r.1)
      ∨ ((∀ r ∈ orderTable, r.2.1 ≠ o.code) ∧ o.code ≠ 0x31 ∧ rowOf o = .unknownOrder) := by
  by_cases h : o.code = 0x31
  · have hrow := rowOf_release o h
    by_cases hp : o.params.getD 0 0 = 1
    · exact .inl ⟨h, hp, by rw [hrow, if_pos hp]⟩
    · exact .inr (.inl ⟨h, hp, by rw [hrow, if_neg hp]⟩)
  · by_cases hr : ∃ r ∈ orderTable, r.2.1 = o.code
    · obtain ⟨r, hr, hc⟩ := hr
      exact .inr (.inr (.inl ⟨r, hr, hc, h, rowOf_of_mem hr o hc.symm⟩))
    · have hu : ∀ r ∈ orderTable, r.2.1 ≠ o.code := fun r hm hc => hr ⟨r, hm, hc⟩
      exact .inr (.inr (.inr ⟨hu, h, rowOf_of_unknown o h hu⟩))

theorem release_rows_not_mem_orderTable (r : Instr × Byte × Nat × Nat) (hr : r ∈ orderTable) :
    r.1 ≠ .releaseById ∧ r.1 ≠ .releaseByTag ∧ r.1 ≠ .unknownOrder := by
  revert r; decide +kernel

theorem rowOf_eq_iff_of_mem {r : Instr × Byte × Nat × Nat} (hr : r ∈ orderTable) (o : OrderRecord) :
    rowOf o = r.1 ↔ o.code = r.2.1 := by
  refine ⟨fun h => ?_, rowOf_of_mem hr o⟩
  obtain ⟨hid, htag, hunknown⟩ := release_rows_not_mem_orderTable r hr
  rcases rowOf_cases o with ⟨-, -, h'⟩ | ⟨-, -, h'⟩ | ⟨r', hr', hc, -, h'⟩ | ⟨-, -, h'⟩
  · exact absurd (h.symm.trans h') htag
  · exact absurd (h.symm.trans h') hid
  · rw [← hc, List.inj_on_of_nodup_map orderTable_rows_nodup hr' hr (h'.symm.trans h)]
  · exact absurd (h.symm.trans h') hunknown

/-- A row of the order table takes the orders of its code. -/
theorem ofCode_eq_takenBy {r : Instr × Byte × Nat × Nat} (hr : r ∈ orderTable) :
    ofCode r.2.1 = takenBy r.1 := by
  funext o
  rw [Bool.eq_iff_iff]
  simp [ofCode, takenBy, rowOf_eq_iff_of_mem hr]

theorem rowOf_eq_releaseByTag (o : OrderRecord) :
    rowOf o = .releaseByTag ↔ o.code = 0x31 ∧ o.params.getD 0 0 = 1 := by
  rcases rowOf_cases o with ⟨hc, hp, h⟩ | ⟨-, hp, h⟩ | ⟨r, hr, -, hne, h⟩ | ⟨-, hne, h⟩ <;> rw [h]
  · exact iff_of_true rfl ⟨hc, hp⟩
  · exact iff_of_false (by decide) fun h => hp h.2
  · exact iff_of_false (release_rows_not_mem_orderTable r hr).2.1 fun h => hne h.1
  · exact iff_of_false (by decide) fun h => hne h.1

theorem rowOf_eq_releaseById (o : OrderRecord) :
    rowOf o = .releaseById ↔ o.code = 0x31 ∧ o.params.getD 0 0 ≠ 1 := by
  rcases rowOf_cases o with ⟨-, hp, h⟩ | ⟨hc, hp, h⟩ | ⟨r, hr, -, hne, h⟩ | ⟨-, hne, h⟩ <;> rw [h]
  · exact iff_of_false (by decide) fun h => h.2 hp
  · exact iff_of_true rfl ⟨hc, hp⟩
  · exact iff_of_false (release_rows_not_mem_orderTable r hr).1 fun h => hne h.1
  · exact iff_of_false (by decide) fun h => hne h.1

/-- The lengths of an order's code, by the row of the order. -/
theorem orderLengths_of_mem {r : Instr × Byte × Nat × Nat} {code : Byte} (hr : r ∈ orderTable)
    (hc : r.2.1 = code) : orderLengths code = some r.2.2 := by
  rw [orderLengths_eq_find, if_neg (hc ▸ code_ne_release hr), (orderTable_find_iff r code).2 ⟨hr, hc⟩]
  rfl

theorem orderLengths_of_unknown {code : Byte} (hu : ∀ r ∈ orderTable, r.2.1 ≠ code)
    (hne : code ≠ 0x31) : orderLengths code = none := by
  have hf : orderTable.find? (fun r => r.2.1 == code) = none :=
    List.find?_eq_none.2 fun r hr => by simpa using hu r hr
  rw [orderLengths_eq_find, if_neg hne, hf]
  rfl

theorem orderLengths_eq_none_iff (o : OrderRecord) :
    orderLengths o.code = none ↔ rowOf o = .unknownOrder := by
  rcases rowOf_cases o with ⟨hc, -, h⟩ | ⟨hc, -, h⟩ | ⟨r, hr, hc, -, h⟩ | ⟨hu, hne, h⟩ <;> rw [h]
  · exact iff_of_false (hc ▸ nofun) nofun
  · exact iff_of_false (hc ▸ nofun) nofun
  · exact iff_of_false (by rw [orderLengths_of_mem hr hc]; nofun)
      (release_rows_not_mem_orderTable r hr).2.2
  · exact iff_of_true (orderLengths_of_unknown hu hne) rfl

theorem isReleaseByTag_eq_takenBy : isReleaseByTag = takenBy .releaseByTag := by
  funext o
  rw [Bool.eq_iff_iff]
  simp [isReleaseByTag, takenBy, rowOf_eq_releaseByTag, paramByte]

theorem isReleaseById_eq_takenBy : isReleaseById = takenBy .releaseById := by
  funext o
  rw [Bool.eq_iff_iff]
  simp [isReleaseById, takenBy, rowOf_eq_releaseById, paramByte]

theorem unknownCode_eq_takenBy :
    (fun o : OrderRecord => (orderLengths o.code).isNone) = takenBy .unknownOrder := by
  funext o
  rw [Bool.eq_iff_iff]
  simp [takenBy, orderLengths_eq_none_iff]

/-! ### The form of an order (R8 check 1) -/

/-- The model's length check is that of the order table. -/
theorem lengthFits_iff (o : OrderRecord) :
    lengthFits o = true ↔ o.overLength = false ∧ LengthFits o := by
  unfold lengthFits LengthFits
  have hrelease : orderLengths 0x31 = some (3, 3) := rfl
  rcases rowOf_cases o with ⟨hc, -, -⟩ | ⟨hc, -, -⟩ | ⟨r, hr, hc, hne, -⟩ | ⟨hu, hne, -⟩
  · rw [if_pos hc, hc, hrelease]
    simp only [Bool.and_eq_true, Bool.not_eq_true', decide_eq_true_eq, and_assoc,
      and_congr_right_iff]
    exact fun _ => by omega
  · rw [if_pos hc, hc, hrelease]
    simp only [Bool.and_eq_true, Bool.not_eq_true', decide_eq_true_eq, and_assoc,
      and_congr_right_iff]
    exact fun _ => by omega
  · have huniq : ∀ r' ∈ orderTable, r'.2.1 = o.code → r' = r := fun r' hr' hc' =>
      List.inj_on_of_nodup_map orderTable_codes_nodup hr' hr (hc'.trans hc.symm)
    simp only [if_neg hne, orderLengths_of_mem hr hc, Bool.and_eq_true, Bool.not_eq_true',
      decide_eq_true_eq, and_assoc, and_congr_right_iff]
    intro _
    constructor
    · exact fun h => ⟨r, hr, hc, h⟩
    · rintro ⟨r', hr', hc', h⟩
      rwa [huniq r' hr' hc'] at h
  · simp only [if_neg hne, orderLengths_of_unknown hu hne, Bool.false_eq_true, false_iff, not_and]
    rintro - ⟨r, hr, hc', -⟩
    exact hu r hr hc'

/-- The parameter bytes of an order as numbers. -/
def paramNumbers (params : List Byte) (i : Nat) : Nat := (params.getD i 0).toNat

theorem isFlag_iff (params : List Byte) (i : Nat) :
    isFlag (paramByte params i) = true ↔ paramNumbers params i ≤ 1 := by
  unfold paramNumbers paramByte
  generalize params.getD i 0 = b
  revert b; decide +kernel

theorem flagSet_iff (params : List Byte) (i : Nat) :
    flagSet (paramByte params i) = true ↔ paramNumbers params i = 1 := by
  unfold paramNumbers paramByte
  generalize params.getD i 0 = b
  revert b; decide +kernel

theorem isAmendMarker_iff (params : List Byte) (i : Nat) :
    isAmendMarker (paramByte params i) = true ↔ paramNumbers params i ≤ 2 := by
  unfold paramNumbers paramByte
  generalize params.getD i 0 = b
  revert b; decide +kernel

theorem privacyClassOf_isSome_iff (params : List Byte) (i : Nat) :
    (privacyClassOf (paramByte params i)).isSome = true ↔ paramNumbers params i ≤ 2 := by
  unfold paramNumbers paramByte
  generalize params.getD i 0 = b
  revert b; decide +kernel

theorem trunkModeOf_isSome_iff (params : List Byte) (i : Nat) :
    (trunkModeOf (paramByte params i)).isSome = true ↔ paramNumbers params i ≤ 2 := by
  unfold paramNumbers paramByte
  generalize params.getD i 0 = b
  revert b; decide +kernel

theorem portModeOf_isSome_iff (params : List Byte) (i : Nat) :
    (portModeOf (paramByte params i)).isSome = true ↔ paramNumbers params i ≤ 1 := by
  unfold paramNumbers paramByte
  generalize params.getD i 0 = b
  revert b; decide +kernel

theorem assignTargetOf_isSome_iff (params : List Byte) (i : Nat) :
    (assignTargetOf (paramByte params i)).isSome = true ↔ paramNumbers params i ≤ 2 := by
  unfold paramNumbers paramByte
  generalize params.getD i 0 = b
  revert b; decide +kernel

/-! ### A row that takes orders -/

/-- What an own answer of a row may be: a refusal, work that leaves the queues, or, for the two rows of
restart control alone, the start of a restart. -/
def Answer.Lawful (i : Instr) (s : State) : Answer → Prop
  | .refuse _ _ => True
  | .done _ w => SameQueues s w.state
  | .restart t => (i = .restartCold ∨ i = .restartKeep) ∧ StartsRestart t

/-- The row is the take of the orders that `rowOf` gives it, with the codes of R177 and the authority
class given; and its own answer is lawful. -/
def TakeRow (i : Instr) (authority : Authority) : Prop :=
  ∃ (codes : List Byte → Bool) (body : Port → List Byte → State → Answer),
    (∀ s, exec i s = takeOrder (takenBy i) codes authority body s)
      ∧ (∀ o, rowOf o = i → lengthFits o = true →
          (codes o.params = true ↔ CodesFit o.code o.params.length (paramNumbers o.params)))
      ∧ ∀ p params s, (body p params s).Lawful i s

theorem Answer.lawful_plain {i : Instr} {s t : State} (h : SameQueues s t) (fields : List Byte) :
    (Answer.plain fields t).Lawful i s := h

/-- A row of the order table, from its meaning, its code, its codes and its body. -/
theorem takeRow_of_code {i : Instr} {code : Byte} {authority : Authority}
    {codes : List Byte → Bool} {body : Port → List Byte → State → Answer}
    (meaning : State → Host.Outcome State Fault Refusal)
    (hexec : ∀ s, exec i s = meaning s)
    (htake : ∀ s, meaning s = takeOrder (ofCode code) codes authority body s)
    (hi : (i, code) ∈ orderTable.map fun r => (r.1, r.2.1))
    (hcodes : ∀ params, codes params = true ↔
      CodesFit code params.length (paramNumbers params))
    (hbody : ∀ p params s, (body p params s).Lawful i s) : TakeRow i authority := by
  obtain ⟨r, hr, heq⟩ := List.mem_map.1 hi
  obtain ⟨rfl, rfl⟩ := Prod.mk.inj heq
  refine ⟨codes, body, fun s => ?_, fun o ho _ => ?_, hbody⟩
  · rw [hexec, htake, ofCode_eq_takenBy hr]
  · rw [(rowOf_eq_iff_of_mem hr o).1 ho]
    exact hcodes o.params

end Sys2Proof.Machine
end

section
/-! SUPPORT. Every row that takes an order is one (R9, R177): one lemma a row, and then the families of
rows by their authority. -/

namespace Sys2Proof.Machine

/-! ### The work of the orders leaves the queues -/

theorem masteryDone_lawful {i : Instr} {s t : State} (h : SameQueues s t)
    (cause : Option MasteryCause) (former : Option Controller) :
    (masteryDone t cause former).Lawful i s := by
  cases cause <;> exact h

theorem byController_lawful {i : Instr} {s : State} {body : Controller → State → Answer}
    (h : ∀ x, (body x s).Lawful i s) (p : Port) : (byController body p s).Lawful i s := by
  unfold byController
  split
  · exact h _
  · trivial

theorem onEntry_lawful {i : Instr} {s : State} {body : DirectoryEntry → Answer}
    (h : ∀ e, (body e).Lawful i s) (identity : Nat) : (onEntry identity s body).Lawful i s := by
  unfold onEntry
  split
  · trivial
  · split
    · exact h _
    · trivial

theorem onFreeKey_lawful {i : Instr} {s : State} {own : Answer} (h : own.Lawful i s)
    (index : Nat) : (onFreeKey index s own).Lawful i s := by
  unfold onFreeKey
  split
  · trivial
  · split
    · trivial
    · exact h

theorem State.holdMastership_sameQueues (s : State) (x : Controller) :
    SameQueues s (s.holdMastership x) := ⟨rfl, rfl, fun _ => ⟨rfl, rfl, rfl⟩⟩

theorem Work.abandonIdentity_onlyCallsAndStations (w : Work) (r : RefusalReason) (identity : Nat)
    (selects : Nat → Bool) :
    OnlyCallsAndStations w.state (w.abandonIdentity r identity selects).state := by
  unfold Work.abandonIdentity
  generalize w.state.challengedPositions identity selects = ns
  induction ns generalizing w with
  | nil => exact OnlyCallsAndStations.refl _
  | cons n ns ih => exact (w.abandon_onlyCallsAndStations r n).trans (ih _)

theorem Work.retireIdentity_onlyCallsAndStations (w : Work) (r : ReleaseReason) (identity : Nat) :
    OnlyCallsAndStations w.state (w.retireIdentity r identity).state := by
  unfold Work.retireIdentity
  refine OnlyCallsAndStations.trans ?_ (Work.abandonIdentity_onlyCallsAndStations _ _ _ _)
  unfold Work.withdrawIdentity
  split
  · exact w.withdraw_onlyCallsAndStations r _
  · exact OnlyCallsAndStations.refl _

theorem Work.applyHomePorts_onlyCallsAndStations (w : Work) (e : DirectoryEntry) :
    OnlyCallsAndStations w.state (w.applyHomePorts e).state := by
  unfold Work.applyHomePorts
  refine OnlyCallsAndStations.trans ?_ (Work.abandonIdentity_onlyCallsAndStations _ _ _ _)
  split
  · split
    · exact w.withdraw_onlyCallsAndStations _ _
    · exact OnlyCallsAndStations.refl _
  · exact OnlyCallsAndStations.refl _

theorem Work.judgeClass_onlyCalls (w : Work) (e : DirectoryEntry) :
    OnlyCalls w.state (w.judgeClass e).state := by
  unfold Work.judgeClass
  split
  · exact w.releaseWhere_onlyCalls _ _
  · exact OnlyCalls.refl _

theorem Work.clearPositions_onlyCallsAndStations (w : Work) (r : ReleaseReason) (ns : List Nat) :
    OnlyCallsAndStations w.state (ns.foldl (fun w n => w.clearPosition r n) w).state := by
  induction ns generalizing w with
  | nil => exact OnlyCallsAndStations.refl _
  | cons n ns ih => exact (w.clearPosition_onlyCallsAndStations r n).trans (ih _)

theorem State.clearHold_sameQueues (s : State) (n : Nat) : SameQueues s (s.clearHold n) := by
  unfold State.clearHold
  split
  · exact ⟨rfl, rfl, fun _ => ⟨rfl, rfl, rfl⟩⟩
  · exact SameQueues.refl s

/-! ### Mastership (R9) -/

theorem claim_takeRow : TakeRow .claim .controller :=
  takeRow_of_code execClaim (fun _ => rfl) (fun _ => rfl) (by decide)
    (fun _ => iff_of_true rfl trivial) fun p _ s =>
    byController_lawful (fun x => by
      unfold claimBy
      split
      · exact masteryDone_lawful (s.holdMastership_sameQueues x) _ _
      · split
        · exact masteryDone_lawful (s.holdMastership_sameQueues x) _ _
        · trivial
      · exact masteryDone_lawful (s.holdMastership_sameQueues x) _ _) p

theorem pulse_takeRow : TakeRow .pulse .controller :=
  takeRow_of_code execPulse (fun _ => rfl) (fun _ => rfl) (by decide)
    (fun _ => iff_of_true rfl trivial) fun p _ s =>
    byController_lawful (fun x => by
      unfold pulseBy
      split
      · split
        · exact masteryDone_lawful (s.holdMastership_sameQueues x) _ _
        · trivial
      · split
        · exact masteryDone_lawful (s.holdMastership_sameQueues x) _ _
        · trivial
      · trivial) p

theorem yield_takeRow : TakeRow .yield .controller :=
  takeRow_of_code execYield (fun _ => rfl) (fun _ => rfl) (by decide)
    (fun _ => iff_of_true rfl trivial) fun p _ s =>
    byController_lawful (fun x => by
      unfold yieldBy
      split
      · refine masteryDone_lawful ?_ _ _
        exact ⟨rfl, rfl, fun _ => ⟨rfl, rfl, rfl⟩⟩
      · trivial) p

theorem assign_takeRow : TakeRow .assign .portMOnly :=
  takeRow_of_code execAssign (fun _ => rfl) (fun _ => rfl) (by decide) (fun params => assignTargetOf_isSome_iff params 0)
    fun _ _ s => masteryDone_lawful (by
      split
      · exact s.holdMastership_sameQueues _
      · exact ⟨rfl, rfl, fun _ => ⟨rfl, rfl, rfl⟩⟩) _ _

theorem setLapse_takeRow : TakeRow .setLapse .portMOnly :=
  takeRow_of_code execSetLapse (fun _ => rfl) (fun _ => rfl) (by decide)
    (fun _ => iff_of_true rfl trivial) fun _ _ _ => by
      refine masteryDone_lawful ?_ _ _
      exact ⟨rfl, rfl, fun _ => ⟨rfl, rfl, rfl⟩⟩

theorem lookMastership_takeRow : TakeRow .lookMastership .anyPort :=
  takeRow_of_code execLookMastership (fun _ => rfl) (fun _ => rfl) (by decide)
    (fun _ => iff_of_true rfl trivial) fun _ _ s =>
    SameQueues.refl s

/-! ### The directory -/

theorem enter_takeRow : TakeRow .enter .portMOnly :=
  takeRow_of_code execEnter (fun _ => rfl) (fun _ => rfl) (by decide)
    (fun params => by
      simp only [enterCodes, Bool.and_eq_true, isFlag_iff, privacyClassOf_isSome_iff, and_assoc]
      rfl)
    fun _ params s => by
      unfold enterEntry
      dsimp only
      split
      · trivial
      · split
        · trivial
        · split
          · trivial
          · exact ⟨rfl, rfl, fun _ => ⟨rfl, rfl, rfl⟩⟩

theorem remove_takeRow : TakeRow .remove .portMOnly :=
  takeRow_of_code execRemove (fun _ => rfl) (fun _ => rfl) (by decide)
    (fun _ => iff_of_true rfl trivial) fun _ params s => by
      refine onEntry_lawful (fun _ => ?_) _
      exact SameQueues.trans (t := s.dropEntry (param2 params 0))
        ⟨rfl, rfl, fun _ => ⟨rfl, rfl, rfl⟩⟩
        (Work.retireIdentity_onlyCallsAndStations _ _ _).sameQueues

theorem setSecret_takeRow : TakeRow .setSecret .portMOnly :=
  takeRow_of_code execSetSecret (fun _ => rfl) (fun _ => rfl) (by decide)
    (fun _ => iff_of_true rfl trivial) fun _ _ _ => by
      refine onEntry_lawful (fun _ => ?_) _
      exact ⟨rfl, rfl, fun _ => ⟨rfl, rfl, rfl⟩⟩

theorem amendCodes_iff (params : List Byte) :
    amendCodes params = true ↔ CodesFit 0x13 params.length (paramNumbers params) := by
  have hports : (homePortParams params).isEmpty = true ↔ ¬9 < params.length := by
    simp [homePortParams]
  have hmarker : (if flagSet (paramByte params 8) = true then !(homePortParams params).isEmpty
      else (homePortParams params).isEmpty) = true
      ↔ (paramNumbers params 8 = 1 ↔ 9 < params.length) := by
    rw [← flagSet_iff]
    by_cases h : flagSet (paramByte params 8) = true
    · rw [if_pos h, Bool.not_eq_true', ← Bool.not_eq_true, hports]; tauto
    · rw [if_neg h, hports]; tauto
  have hclass : (!flagSet (paramByte params 4) || (privacyClassOf (paramByte params 5)).isSome) = true
      ↔ (paramNumbers params 4 = 1 → paramNumbers params 5 ≤ 2) := by
    rw [← flagSet_iff, ← privacyClassOf_isSome_iff]
    cases flagSet (paramByte params 4) <;> simp
  unfold amendCodes
  simp only [Bool.and_eq_true, isAmendMarker_iff, isFlag_iff, hclass, hmarker, and_assoc]
  rfl

theorem amend_takeRow : TakeRow .amend .holderOrPortM :=
  takeRow_of_code execAmend (fun _ => rfl) (fun _ => rfl) (by decide) amendCodes_iff fun _ params s => by
    unfold amendEntry
    dsimp only
    split
    · trivial
    · split
      · trivial
      · refine SameQueues.trans (t := s.mapEntry (param2 params 0) (amendedEntry params))
          ⟨rfl, rfl, fun _ => ⟨rfl, rfl, rfl⟩⟩ ?_
        refine OnlyCallsAndStations.sameQueues ?_
        have hhomes := Work.applyHomePorts_onlyCallsAndStations
          (Work.start (s.mapEntry (param2 params 0) (amendedEntry params)))
        split <;> split
        · exact (hhomes _).trans (Work.judgeClass_onlyCalls _ _).andStations
        · exact (Work.judgeClass_onlyCalls _ _).andStations
        · exact hhomes _
        · exact OnlyCallsAndStations.refl _

theorem suspend_takeRow : TakeRow .suspend .holderOrPortM :=
  takeRow_of_code execSuspend (fun _ => rfl) (fun _ => rfl) (by decide)
    (fun _ => iff_of_true rfl trivial) fun _ _ s =>
    onEntry_lawful (fun _ => by
      split
      · exact SameQueues.refl s
      · exact SameQueues.trans ⟨rfl, rfl, fun _ => ⟨rfl, rfl, rfl⟩⟩
          (Work.retireIdentity_onlyCallsAndStations _ _ _).sameQueues) _

theorem resume_takeRow : TakeRow .resume .holderOrPortM :=
  takeRow_of_code execResume (fun _ => rfl) (fun _ => rfl) (by decide)
    (fun _ => iff_of_true rfl trivial) fun _ _ _ => by
      refine onEntry_lawful (fun _ => ?_) _
      exact ⟨rfl, rfl, fun _ => ⟨rfl, rfl, rfl⟩⟩

theorem lookEntry_takeRow : TakeRow .lookEntry .anyPort :=
  takeRow_of_code execLookEntry (fun _ => rfl) (fun _ => rfl) (by decide)
    (fun _ => iff_of_true rfl trivial) fun _ _ s => by
    split
    · trivial
    · split
      · exact SameQueues.refl s
      · trivial

theorem lookNextEntry_takeRow : TakeRow .lookNextEntry .anyPort :=
  takeRow_of_code execLookNextEntry (fun _ => rfl) (fun _ => rfl) (by decide)
    (fun _ => iff_of_true rfl trivial) fun _ _ s => by
    split
    · trivial
    · split
      · exact SameQueues.refl s
      · trivial

theorem setPrecedenceMap_takeRow : TakeRow .setPrecedenceMap .holderOnly :=
  takeRow_of_code execSetPrecedenceMap (fun _ => rfl) (fun _ => rfl) (by decide)
    (fun _ => iff_of_true rfl trivial) fun _ _ s => by
    split
    · trivial
    · exact ⟨rfl, rfl, fun _ => ⟨rfl, rfl, rfl⟩⟩

theorem lookPrecedenceMap_takeRow : TakeRow .lookPrecedenceMap .anyPort :=
  takeRow_of_code execLookPrecedenceMap (fun _ => rfl) (fun _ => rfl) (by decide)
    (fun _ => iff_of_true rfl trivial) fun _ _ s =>
    SameQueues.refl s

/-! ### Admission -/

theorem setPort_takeRow : TakeRow .setPort .holderOnly :=
  takeRow_of_code execSetPort (fun _ => rfl) (fun _ => rfl) (by decide)
    (fun params => by simp only [Bool.and_eq_true, isFlag_iff]; rfl)
    fun _ params s => by
      unfold setPortSettings
      dsimp only
      split
      · trivial
      · have h := (Work.clearPositions_onlyCallsAndStations
          (Work.start (s.setLine (param1 params 0)
            (newLineSettings params (s.line (param1 params 0))))) .portDisabled
          (clearedPositions (param1 params 0) (s.line (param1 params 0))
            (newLineSettings params (s.line (param1 params 0))))).sameQueues
        refine SameQueues.trans (t := s.setLine (param1 params 0)
          (newLineSettings params (s.line (param1 params 0))))
          ⟨rfl, rfl, fun _ => ⟨rfl, rfl, rfl⟩⟩ ?_
        split <;> exact h

theorem lookPort_takeRow : TakeRow .lookPort .anyPort :=
  takeRow_of_code execLookPort (fun _ => rfl) (fun _ => rfl) (by decide)
    (fun _ => iff_of_true rfl trivial) fun _ _ s => by
    dsimp only
    split
    · trivial
    · exact SameQueues.refl s

theorem withdraw_takeRow : TakeRow .withdraw .holderOnly :=
  takeRow_of_code execWithdraw (fun _ => rfl) (fun _ => rfl) (by decide)
    (fun _ => iff_of_true rfl trivial) fun _ _ _ => by
    unfold withdrawPosition
    split
    · trivial
    · split
      · trivial
      · exact (Work.withdraw_onlyCallsAndStations _ _ _).sameQueues

theorem deliver_takeRow : TakeRow .deliver .holderOnly :=
  takeRow_of_code execDeliver (fun _ => rfl) (fun _ => rfl) (by decide)
    (fun _ => iff_of_true rfl trivial) fun _ _ _ => by
    unfold deliverTo
    split
    · trivial
    · split
      · trivial
      · split
        · trivial
        · exact ⟨rfl, rfl, fun _ => ⟨rfl, rfl, rfl⟩⟩

theorem releaseLockout_takeRow : TakeRow .releaseLockout .holderOrPortM :=
  takeRow_of_code execReleaseLockout (fun _ => rfl) (fun _ => rfl) (by decide)
    (fun _ => iff_of_true rfl trivial) fun _ _ s => by
    dsimp only
    split
    · trivial
    · refine Answer.lawful_plain ?_ _
      split
      · exact ⟨rfl, rfl, fun _ => ⟨rfl, rfl, rfl⟩⟩
      · exact SameQueues.refl s

theorem lookStation_takeRow : TakeRow .lookStation .anyPort :=
  takeRow_of_code execLookStation (fun _ => rfl) (fun _ => rfl) (by decide)
    (fun _ => iff_of_true rfl trivial) fun _ _ s => by
    dsimp only
    split
    · trivial
    · exact SameQueues.refl s

theorem setAdmissionTimes_takeRow : TakeRow .setAdmissionTimes .holderOnly :=
  takeRow_of_code execSetAdmissionTimes (fun _ => rfl) (fun _ => rfl) (by decide)
    (fun _ => iff_of_true rfl trivial) fun _ _ _ =>
    ⟨rfl, rfl, fun _ => ⟨rfl, rfl, rfl⟩⟩

theorem lookAdmissionTimes_takeRow : TakeRow .lookAdmissionTimes .anyPort :=
  takeRow_of_code execLookAdmissionTimes (fun _ => rfl) (fun _ => rfl) (by decide)
    (fun _ => iff_of_true rfl trivial) fun _ _ s =>
    SameQueues.refl s

theorem seedChallenge_takeRow : TakeRow .seedChallenge .portMOnly :=
  takeRow_of_code execSeedChallenge (fun _ => rfl) (fun _ => rfl) (by decide)
    (fun _ => iff_of_true rfl trivial) fun _ _ _ =>
    ⟨rfl, rfl, fun _ => ⟨rfl, rfl, rfl⟩⟩

/-! ### The switching network -/

theorem connect_takeRow : TakeRow .connect .holderOnly :=
  takeRow_of_code execConnect (fun _ => rfl) (fun _ => rfl) (by decide)
    (fun params => by simp only [Bool.and_eq_true, isFlag_iff]; rfl)
    fun _ _ _ => by
      unfold connectTake
      split
      · trivial
      · split
        · trivial
        · exact ((Work.preempt_foldl_onlyCalls _ _).trans
            (Work.makeConnection_onlyCalls _ _ _)).sameQueues

/-- RELEASE in either mode asks for a mode code (R177). -/
theorem releaseCodes_iff (o : OrderRecord) (h : o.code = 0x31) :
    isFlag (paramByte o.params 0) = true ↔
      CodesFit o.code o.params.length (paramNumbers o.params) := by
  rw [h]
  exact isFlag_iff o.params 0

theorem releaseById_takeRow : TakeRow .releaseById .holderOnly := by
  refine ⟨fun params => isFlag (paramByte params 0), fun _ params s => releaseId (param2 params 1) s,
    fun s => by rw [← isReleaseById_eq_takenBy]; rfl,
    fun o ho _ => releaseCodes_iff o ((rowOf_eq_releaseById o).1 ho).1, fun _ params s => ?_⟩
  unfold releaseId
  dsimp only
  split
  · trivial
  · split
    · trivial
    · split
      · trivial
      · exact (Work.release_onlyCalls _ _ _).sameQueues

theorem releaseByTag_takeRow : TakeRow .releaseByTag .holderOnly := by
  refine ⟨fun params => isFlag (paramByte params 0), fun _ params s => releaseTag (paramWord params 1) s,
    fun s => by rw [← isReleaseByTag_eq_takenBy]; rfl,
    fun o ho _ => releaseCodes_iff o ((rowOf_eq_releaseByTag o).1 ho).1, fun _ params s => ?_⟩
  unfold releaseTag
  dsimp only
  split
  · trivial
  · exact (Work.releaseWhere_onlyCalls _ _ _).sameQueues

theorem setMuteCode_takeRow : TakeRow .setMuteCode .holderOnly :=
  takeRow_of_code execSetMuteCode (fun _ => rfl) (fun _ => rfl) (by decide)
    (fun _ => iff_of_true rfl trivial) fun _ _ _ =>
    ⟨rfl, rfl, fun _ => ⟨rfl, rfl, rfl⟩⟩

theorem lookConnection_takeRow : TakeRow .lookConnection .anyPort :=
  takeRow_of_code execLookConnection (fun _ => rfl) (fun _ => rfl) (by decide)
    (fun _ => iff_of_true rfl trivial) fun _ _ s => by
    split
    · trivial
    · split
      · exact SameQueues.refl s
      · trivial

theorem lookNextConnection_takeRow : TakeRow .lookNextConnection .anyPort :=
  takeRow_of_code execLookNextConnection (fun _ => rfl) (fun _ => rfl) (by decide) (fun params => isFlag_iff params 1) fun _ _ s => by
    split
    · trivial
    · split
      · exact SameQueues.refl s
      · trivial

theorem lookEndpoint_takeRow : TakeRow .lookEndpoint .anyPort :=
  takeRow_of_code execLookEndpoint (fun _ => rfl) (fun _ => rfl) (by decide)
    (fun _ => iff_of_true rfl trivial) fun _ _ s => by
    split
    · trivial
    · exact SameQueues.refl s

theorem lookNetwork_takeRow : TakeRow .lookNetwork .anyPort :=
  takeRow_of_code execLookNetwork (fun _ => rfl) (fun _ => rfl) (by decide)
    (fun _ => iff_of_true rfl trivial) fun _ _ s =>
    SameQueues.refl s

/-! ### Trunk groups -/

theorem setTrunk_takeRow : TakeRow .setTrunk .holderOnly :=
  takeRow_of_code execSetTrunk (fun _ => rfl) (fun _ => rfl) (by decide) (fun params => trunkModeOf_isSome_iff params 1)
    fun _ _ _ => by
      unfold setTrunkSlot
      dsimp only
      split
      · trivial
      · split
        · trivial
        · exact ⟨rfl, rfl, fun _ => ⟨rfl, rfl, rfl⟩⟩

theorem setGroup_takeRow : TakeRow .setGroup .holderOnly :=
  takeRow_of_code execSetGroup (fun _ => rfl) (fun _ => rfl) (by decide)
    (fun _ => iff_of_true rfl trivial) fun _ _ _ => by
    unfold setGroupSettings
    dsimp only
    split
    · trivial
    · exact SameQueues.trans ⟨rfl, rfl, fun _ => ⟨rfl, rfl, rfl⟩⟩
        (Work.reevaluate_onlyCalls _ _).sameQueues

theorem lookTrunk_takeRow : TakeRow .lookTrunk .anyPort :=
  takeRow_of_code execLookTrunk (fun _ => rfl) (fun _ => rfl) (by decide)
    (fun _ => iff_of_true rfl trivial) fun _ _ s => by
    split
    · trivial
    · exact SameQueues.refl s

theorem lookGroup_takeRow : TakeRow .lookGroup .anyPort :=
  takeRow_of_code execLookGroup (fun _ => rfl) (fun _ => rfl) (by decide)
    (fun _ => iff_of_true rfl trivial) fun _ _ s => by
    dsimp only
    split
    · trivial
    · exact SameQueues.refl s

/-! ### Call privacy -/

theorem loadKey_takeRow : TakeRow .loadKey .holderOnly :=
  takeRow_of_code execLoadKey (fun _ => rfl) (fun _ => rfl) (by decide) (fun params => isFlag_iff params 5) fun _ _ _ => by
      refine onFreeKey_lawful ?_ _
      exact ⟨rfl, rfl, fun _ => ⟨rfl, rfl, rfl⟩⟩

theorem eraseKey_takeRow : TakeRow .eraseKey .holderOnly :=
  takeRow_of_code execEraseKey (fun _ => rfl) (fun _ => rfl) (by decide)
    (fun _ => iff_of_true rfl trivial) fun _ _ _ => by
      refine onFreeKey_lawful ?_ _
      exact ⟨rfl, rfl, fun _ => ⟨rfl, rfl, rfl⟩⟩

theorem lookKey_takeRow : TakeRow .lookKey .anyPort :=
  takeRow_of_code execLookKey (fun _ => rfl) (fun _ => rfl) (by decide)
    (fun _ => iff_of_true rfl trivial) fun _ _ s => by
    dsimp only
    split
    · trivial
    · exact SameQueues.refl s

theorem resync_takeRow : TakeRow .resync .holderOnly :=
  takeRow_of_code execResync (fun _ => rfl) (fun _ => rfl) (by decide)
    (fun _ => iff_of_true rfl trivial) fun _ _ _ => by
    unfold resyncId
    split
    · trivial
    · split
      · trivial
      · split
        · exact ⟨rfl, rfl, fun _ => ⟨rfl, rfl, rfl⟩⟩
        · trivial

theorem lookLeg_takeRow : TakeRow .lookLeg .anyPort :=
  takeRow_of_code execLookLeg (fun _ => rfl) (fun _ => rfl) (by decide)
    (fun _ => iff_of_true rfl trivial) fun _ _ _ => by
    unfold lookLegId
    split
    · trivial
    · split
      · trivial
      · split
        · trivial
        · exact ⟨rfl, rfl, fun _ => ⟨rfl, rfl, rfl⟩⟩

/-! ### Call trace -/

theorem armWatch_takeRow : TakeRow .armWatch .portMOnly :=
  takeRow_of_code execArmWatch (fun _ => rfl) (fun _ => rfl) (by decide) (fun params => isFlag_iff params 2) fun _ _ _ => by
    unfold armWatchOn
    split
    · trivial
    · split
      · trivial
      · split
        · trivial
        · exact ⟨rfl, rfl, fun _ => ⟨rfl, rfl, rfl⟩⟩

theorem disarmWatch_takeRow : TakeRow .disarmWatch .portMOnly :=
  takeRow_of_code execDisarmWatch (fun _ => rfl) (fun _ => rfl) (by decide)
    (fun _ => iff_of_true rfl trivial) fun _ params s => by
    dsimp only
    split
    · trivial
    · exact SameQueues.trans (s.clearHold_sameQueues (param1 params 0))
        ⟨rfl, rfl, fun _ => ⟨rfl, rfl, rfl⟩⟩

theorem clearTrace_takeRow : TakeRow .clearTrace .portMOnly :=
  takeRow_of_code execClearTrace (fun _ => rfl) (fun _ => rfl) (by decide)
    (fun _ => iff_of_true rfl trivial) fun _ params s => by
    unfold clearTraceOf
    split
    · trivial
    · split
      · trivial
      · exact SameQueues.refl s
      · exact SameQueues.trans (s.clearHold_sameQueues (param1 params 0))
          ⟨rfl, rfl, fun _ => ⟨rfl, rfl, rfl⟩⟩

theorem releaseHold_takeRow : TakeRow .releaseHold .portMOnly :=
  takeRow_of_code execReleaseHold (fun _ => rfl) (fun _ => rfl) (by decide)
    (fun _ => iff_of_true rfl trivial) fun _ params s => by
    unfold releaseHoldOf
    split
    · trivial
    · split
      · trivial
      · trivial
      · exact s.clearHold_sameQueues (param1 params 0)

theorem lookWatch_takeRow : TakeRow .lookWatch .portMOnly :=
  takeRow_of_code execLookWatch (fun _ => rfl) (fun _ => rfl) (by decide)
    (fun _ => iff_of_true rfl trivial) fun _ _ _ => by
    unfold lookWatchOf
    split
    · trivial
    · exact ⟨rfl, rfl, fun _ => ⟨rfl, rfl, rfl⟩⟩

/-! ### Restart control and the issuing port -/

theorem restartCold_takeRow : TakeRow .restartCold .holderOrPortM :=
  takeRow_of_code execRestartCold (fun _ => rfl) (fun _ => rfl) (by decide)
    (fun _ => iff_of_true rfl trivial) fun _ _ s =>
    ⟨.inl rfl, s.startCold_startsRestart .orderCold⟩

theorem restartKeep_takeRow : TakeRow .restartKeep .holderOrPortM :=
  takeRow_of_code execRestartKeep (fun _ => rfl) (fun _ => rfl) (by decide)
    (fun _ => iff_of_true rfl trivial) fun _ _ s =>
    ⟨.inr rfl, s.startKeep_startsRestart .orderKeep⟩

theorem readCauses_takeRow : TakeRow .readCauses .anyPort :=
  takeRow_of_code execReadCauses (fun _ => rfl) (fun _ => rfl) (by decide)
    (fun _ => iff_of_true rfl trivial) fun p _ s =>
    s.setPort_sameQueues p _ rfl rfl rfl

theorem setPortMode_takeRow : TakeRow .setPortMode .anyPort :=
  takeRow_of_code execSetPortMode (fun _ => rfl) (fun _ => rfl) (by decide) (fun params => portModeOf_isSome_iff params 0)
    fun p _ s => s.setPort_sameQueues p _ rfl rfl rfl

/-- UNKNOWN_ORDER takes the orders whose code the table lacks: their length fits nothing (R8). -/
theorem unknownOrder_takeRow : TakeRow .unknownOrder .anyPort := by
  refine ⟨anyCodes, fun _ _ _ => .refuse .badOrder [],
    fun s => by rw [← unknownCode_eq_takenBy]; rfl, fun o ho hl => ?_, fun _ _ _ => trivial⟩
  rw [lengthFits, (orderLengths_eq_none_iff o).2 ho] at hl
  cases hl

/-! ### The families of rows (R9) -/

theorem holderRows_takeRow (i : Instr) (h : i ∈ holderRows.map (·.1)) : TakeRow i .holderOnly := by
  simp only [holderRows, List.map_cons, List.map_nil, List.mem_cons, List.not_mem_nil, or_false] at h
  rcases h with rfl | rfl | rfl | rfl | rfl | rfl | rfl | rfl | rfl | rfl | rfl | rfl
  exacts [setPrecedenceMap_takeRow, setPort_takeRow, withdraw_takeRow, deliver_takeRow,
    setAdmissionTimes_takeRow, connect_takeRow, setMuteCode_takeRow, setTrunk_takeRow,
    setGroup_takeRow, loadKey_takeRow, eraseKey_takeRow, resync_takeRow]

theorem portMRows_takeRow (i : Instr) (h : i ∈ portMRows.map (·.1)) : TakeRow i .portMOnly := by
  simp only [portMRows, List.map_cons, List.map_nil, List.mem_cons, List.not_mem_nil, or_false] at h
  rcases h with rfl | rfl | rfl | rfl | rfl | rfl | rfl | rfl | rfl | rfl | rfl
  exacts [assign_takeRow, setLapse_takeRow, enter_takeRow, remove_takeRow, setSecret_takeRow,
    seedChallenge_takeRow, armWatch_takeRow, disarmWatch_takeRow, clearTrace_takeRow,
    releaseHold_takeRow, lookWatch_takeRow]

theorem sharedRows_takeRow (i : Instr) (h : i ∈ sharedRows.map (·.1)) :
    TakeRow i .holderOrPortM := by
  simp only [sharedRows, List.map_cons, List.map_nil, List.mem_cons, List.not_mem_nil, or_false] at h
  rcases h with rfl | rfl | rfl | rfl | rfl | rfl
  exacts [amend_takeRow, suspend_takeRow, resume_takeRow, releaseLockout_takeRow,
    restartCold_takeRow, restartKeep_takeRow]

theorem controllerRows_takeRow (i : Instr) (h : i ∈ controllerRows.map (·.1)) :
    TakeRow i .controller := by
  simp only [controllerRows, List.map_cons, List.map_nil, List.mem_cons, List.not_mem_nil,
    or_false] at h
  rcases h with rfl | rfl | rfl
  exacts [claim_takeRow, pulse_takeRow, yield_takeRow]

/-- The rows that look are open to every port, but for LOOK WATCH, which is Port M's (R9, R167). -/
theorem lookRows_takeRow (i : Instr) (h : i ∈ lookRows.map (·.1)) :
    TakeRow i (if i = .lookWatch then .portMOnly else .anyPort) := by
  simp only [lookRows, List.map_cons, List.map_nil, List.mem_cons, List.not_mem_nil, or_false] at h
  rcases h with rfl | rfl | rfl | rfl | rfl | rfl | rfl | rfl | rfl | rfl | rfl | rfl | rfl | rfl
    | rfl | rfl
  exacts [lookMastership_takeRow, lookEntry_takeRow, lookNextEntry_takeRow,
    lookPrecedenceMap_takeRow, lookPort_takeRow, lookStation_takeRow, lookAdmissionTimes_takeRow,
    lookConnection_takeRow, lookNextConnection_takeRow, lookEndpoint_takeRow, lookNetwork_takeRow,
    lookTrunk_takeRow, lookGroup_takeRow, lookKey_takeRow, lookLeg_takeRow, lookWatch_takeRow]

/-- Every row that is the take of an order takes the orders that `rowOf` gives it. -/
theorem takeRow_of_mem (i : Instr) (h : i ∈ takeRows) : ∃ authority, TakeRow i authority := by
  simp only [takeRows, List.map_append, List.mem_append] at h
  rcases h with h | (((hlook | hholder) | hportM) | hshared) | hcontroller
  · simp only [List.mem_cons, List.not_mem_nil, or_false] at h
    rcases h with rfl | rfl | rfl | rfl | rfl
    exacts [⟨_, unknownOrder_takeRow⟩, ⟨_, releaseById_takeRow⟩, ⟨_, releaseByTag_takeRow⟩,
      ⟨_, readCauses_takeRow⟩, ⟨_, setPortMode_takeRow⟩]
  · exact ⟨_, lookRows_takeRow i hlook⟩
  · exact ⟨_, holderRows_takeRow i hholder⟩
  · exact ⟨_, portMRows_takeRow i hportM⟩
  · exact ⟨_, sharedRows_takeRow i hshared⟩
  · exact ⟨_, controllerRows_takeRow i hcontroller⟩

theorem orderTable_rows_subset (r : Instr × Byte × Nat × Nat) (hr : r ∈ orderTable) :
    r.1 ∈ takeRows := by
  revert r; decide +kernel

theorem rowOf_mem_takeRows (o : OrderRecord) : rowOf o ∈ takeRows := by
  rcases rowOf_cases o with ⟨-, -, h⟩ | ⟨-, -, h⟩ | ⟨r, hr, -, -, h⟩ | ⟨-, -, h⟩ <;> rw [h]
  · decide
  · decide
  · exact orderTable_rows_subset r hr
  · decide

/-! ### What the take of a row does -/

/-- The model's checks of the length and of the codes are check 1 of the manual (R8). -/
theorem formChecks_iff {o : OrderRecord} {codes : List Byte → Bool}
    (hcodes : lengthFits o = true →
      (codes o.params = true ↔ CodesFit o.code o.params.length (paramNumbers o.params))) :
    (!lengthFits o || !codes o.params) = true ↔ ¬FormFits o := by
  have hlen := lengthFits_iff o
  unfold FormFits
  cases hl : lengthFits o with
  | false => simp_all
  | true =>
    obtain ⟨hover, hfits⟩ := hlen.1 hl
    rw [Bool.not_true, Bool.false_or, Bool.not_eq_true', ← Bool.not_eq_true, hcodes hl]
    exact not_congr ⟨fun h => ⟨hover, hfits, h⟩, fun h => h.2.2⟩

/-- The take of a row, by the checks of R8: an order that does not fit, one without authority, and one
that passes. -/
theorem TakeRow.exec_of_takes {authority : Authority} {s : State} {p : Port} {o : OrderRecord}
    (hrow : TakeRow (rowOf o) authority) (ht : s.Takes p o) :
    (¬FormFits o → exec (rowOf o) s = .next (s.refusal p o.code o.tag .badOrder []))
      ∧ (∀ outcome, FormFits o → authorityCheck authority p s.mastership = some outcome →
          exec (rowOf o) s = .next (s.refusal p o.code o.tag outcome []))
      ∧ ∃ own : Answer, own.Lawful (rowOf o) (s.taken p)
          ∧ (FormFits o → authorityCheck authority p s.mastership = none →
              exec (rowOf o) s = .next ((s.taken p).replied p o own)) := by
  obtain ⟨codes, body, hexec, hcodes, hbody⟩ := hrow
  have hform := formChecks_iff (hcodes o rfl)
  have htake := (hexec s).trans (takeOrder_mine ht (by simp [takenBy]))
  unfold answerTo at htake
  refine ⟨fun hf => ?_, fun outcome hf ha => ?_, _, hbody p o.params (s.taken p), fun hf ha => ?_⟩
  · rw [htake, if_pos (hform.2 hf), State.replied_refuse]
  · simp only [htake, if_neg (fun h => hform.1 h hf), State.taken_mastership, ha,
      State.replied_refuse]
  · simp only [htake, if_neg (fun h => hform.1 h hf), State.taken_mastership, ha]

/-- A row whose order is not the one granted leaves the state (log entry 3). -/
theorem TakeRow.exec_other {i : Instr} {authority : Authority} (hrow : TakeRow i authority)
    {s : State} {p : Port} {o : OrderRecord} (ht : s.Takes p o) (hne : i ≠ rowOf o) :
    exec i s = .next s := by
  obtain ⟨codes, body, hexec, -, -⟩ := hrow
  rw [hexec]
  exact takeOrder_other ht (by simpa [takenBy] using hne.symm)

theorem TakeRow.exec_idle {i : Instr} {authority : Authority} (hrow : TakeRow i authority)
    {s : State} (hidle : ∀ p o, ¬s.Takes p o) : exec i s = .next s := by
  obtain ⟨codes, body, hexec, -, -⟩ := hrow
  rw [hexec]
  exact takeOrder_idle hidle

/-- All that the take of an order can be: a refusal, a DONE reply to work that left the queues, or the
start of a restart (R8). -/
theorem exec_rowOf_cases {s : State} {p : Port} {o : OrderRecord} (ht : s.Takes p o) :
    (∃ outcome fields, exec (rowOf o) s = .next (s.refusal p o.code o.tag outcome fields))
      ∨ (∃ (fields : List Byte) (w : Work), SameQueues (s.taken p) w.state
          ∧ exec (rowOf o) s = .next
              ((w.state.append p (.reply o.code o.tag .done fields)).postAll w.events))
      ∨ ∃ t, (rowOf o = .restartCold ∨ rowOf o = .restartKeep) ∧ StartsRestart t
          ∧ exec (rowOf o) s = .next t := by
  obtain ⟨authority, hrow⟩ := takeRow_of_mem _ (rowOf_mem_takeRows o)
  obtain ⟨hmisformed, hunauthorized, own, hown, hexec⟩ := hrow.exec_of_takes ht
  by_cases hf : FormFits o
  · cases ha : authorityCheck authority p s.mastership with
    | some outcome => exact .inl ⟨outcome, [], hunauthorized outcome hf ha⟩
    | none =>
      have hexec := hexec hf ha
      cases own with
      | refuse outcome fields => exact .inl ⟨outcome, fields, hexec⟩
      | done fields w => exact .inr (.inl ⟨fields, w, hown, hexec⟩)
      | restart t => exact .inr (.inr ⟨t, hown.1, hown.2, hexec⟩)
  · exact .inl ⟨_, [], hmisformed hf⟩

end Sys2Proof.Machine
end

section
/-! SUPPORT. What the transfers, the messages of stations, the line indications and the restarts do to
the queues, and that every command keeps the queue law (R1 to R3, R7, R10, R11). -/

namespace Sys2Proof.Machine

/-! ### Transfers (R2 to R5) -/

/-- A transfer that opens keeps what its status byte showed: it admits a record when a free entry is
there and no restart is in progress (R2, R3). -/
theorem QueueLaw.openTransfer {s : State} (hs : QueueLaw s) (p : Port) :
    QueueLaw (s.openTransfer p) := by
  obtain ⟨ho, hout, hp, hr, -⟩ := hs p
  refine hs.setPort ⟨ho, hout, hp, hr, fun t ht hadmits _ => ?_⟩
  obtain rfl := Option.some.inj ht
  obtain ⟨hroom, hnone⟩ := Bool.and_eq_true_iff.1 hadmits
  exact ⟨of_decide_eq_true hroom, by simpa [State.restarting] using hnone⟩

theorem QueueLaw.inTransfer {s : State} (hs : QueueLaw s) (p : Port) :
    QueueLaw (s.inTransfer p) := by
  unfold State.inTransfer
  split
  · exact hs
  · exact hs.openTransfer p

/-- An order record keeps at most 32 parameter bytes (R3). -/
theorem orderRecordOf_params_length {received : List Byte} {o : OrderRecord}
    (h : orderRecordOf received = some o) : o.params.length ≤ 32 := by
  unfold orderRecordOf Config.keptParameters at h
  split at h
  · split at h
    · obtain rfl := Option.some.inj h
      simp only [List.length_take]
      omega
    · cases h
  · cases h

theorem PortLaw.withoutTransfer {r : Option RestartMode} {q : PortState} (hq : PortLaw r q) :
    PortLaw r { q with transfer := none } := by
  obtain ⟨ho, hout, hp, hr, -⟩ := hq
  exact ⟨ho, hout, hp, hr, nofun⟩

/-- The record that an open transfer admits finds room (R3). -/
theorem PortLaw.completeOrder {r : Option RestartMode} {q : PortState} (hq : PortLaw r q)
    (record : List Byte) : PortLaw r (completeOrder record q) := by
  unfold Machine.completeOrder
  split
  · rename_i t o ht ho
    obtain ⟨hlen, hout, hp, hr, hadmit⟩ := hq
    by_cases ha : (t.admits && !t.restartSince) = true
    · obtain ⟨hadmits, hsince⟩ : t.admits = true ∧ t.restartSince = false := by simpa using ha
      obtain ⟨hroom, hnone⟩ := hadmit t ht hadmits hsince
      simp only [if_pos ha]
      refine ⟨by simpa using hroom, hout, fun o' ho' => ?_, by simp [hnone], nofun⟩
      rcases List.mem_append.1 ho' with hmem | hmem
      · exact hp o' hmem
      · rw [List.mem_singleton.1 hmem]
        exact orderRecordOf_params_length ho
    · simp only [if_neg ha]
      exact ⟨hlen, hout, hp, hr, nofun⟩
  · exact hq.withoutTransfer

/-- A fetched entry leaves the out queue (R4). -/
theorem PortLaw.completeFetch {r : Option RestartMode} {q : PortState} (hq : PortLaw r q) :
    PortLaw r (completeFetch q) := by
  obtain ⟨ho, hout, hp, hr, -⟩ := hq
  unfold Machine.completeFetch
  split
  · rename_i e rest hq
    refine ⟨ho, ?_, hp, fun h => ?_, nofun⟩
    · simp only [hq, List.length_cons] at hout
      exact (Nat.le_succ _).trans hout
    · rw [hq] at hr
      exact absurd (hr h).2 (by simp)
  · exact ⟨ho, hout, hp, hr, nofun⟩

theorem PortLaw.completeStatus {r : Option RestartMode} {q : PortState} (hq : PortLaw r q) :
    PortLaw r (completeStatus q) := by
  obtain ⟨ho, hout, hp, hr, -⟩ := hq
  exact ⟨ho, hout, hp, hr, nofun⟩

/-- The rest of a transfer, whatever its kind, comes while the transfer is open. -/
theorem QueueLaw.completing {s : State} (hs : QueueLaw s) (p : Port) {f : PortState → PortState}
    (hf : ∀ r q, PortLaw r q → PortLaw r (f q)) :
    QueueLaw ((s.inTransfer p).setPort p (f ((s.inTransfer p).port p))) :=
  (hs.inTransfer p).setPort (hf _ _ (hs.inTransfer p p))

/-! ### The line side leaves the queues -/

theorem Work.countFailure_sameQueues (w : Work) (n i : Nat) (r : RefusalReason) :
    SameQueues w.state (w.countFailure n i r).state := by
  unfold Work.countFailure
  dsimp only
  split <;> exact ⟨rfl, rfl, fun _ => ⟨rfl, rfl, rfl⟩⟩

theorem State.setStation_sameQueues (s : State) (n : Nat) (v : Station) :
    SameQueues s (s.setStation n v) := ⟨rfl, rfl, fun _ => ⟨rfl, rfl, rfl⟩⟩

theorem Work.issueChallenge_sameQueues (w : Work) (n i : Nat) (e : DirectoryEntry) :
    SameQueues w.state (w.issueChallenge n i e).state := by
  unfold Work.issueChallenge
  dsimp only [Work.update]
  generalize nextChallengeState w.state.challengeSequence = u
  refine SameQueues.trans (t := { w.state with challengeSequence := u })
    ⟨rfl, rfl, fun _ => ⟨rfl, rfl, rfl⟩⟩ ?_
  exact (State.setStation_sameQueues _ _ _).trans (State.setStation_sameQueues _ _ _)

theorem Work.judgeRegister_sameQueues (w : Work) (n i : Nat) :
    SameQueues w.state (w.judgeRegister n i).state := by
  unfold Work.judgeRegister
  split
  · exact w.countFailure_sameQueues n i _
  · split
    · exact w.countFailure_sameQueues n i _
    · split
      · exact w.countFailure_sameQueues n i _
      · exact w.issueChallenge_sameQueues n i _

theorem Work.takeRegister_sameQueues (w : Work) (n i : Nat) :
    SameQueues w.state (w.takeRegister n i).state := by
  unfold Work.takeRegister
  split
  · exact w.judgeRegister_sameQueues n i
  · exact (w.withdraw_onlyCallsAndStations .reregister n).sameQueues.trans
      (Work.judgeRegister_sameQueues _ n i)
  · exact SameQueues.refl _
  · exact SameQueues.refl _
  · exact SameQueues.refl _

theorem Work.admitStation_sameQueues (w : Work) (n i : Nat) :
    SameQueues w.state (w.admitStation n i).state := by
  have hset : ∀ v : Work, SameQueues v.state
      ((v.state.setStation n { v.state.station n with state := .admitted i, failures := 0 }
        ).placeMessage n (.welcome i)) := fun _ => ⟨rfl, rfl, fun _ => ⟨rfl, rfl, rfl⟩⟩
  unfold Work.admitStation
  dsimp only
  split
  · rename_i other _
    exact (w.withdraw_onlyCallsAndStations .relocated other).sameQueues.trans (hset _)
  · exact hset w

theorem Work.takeAnswer_sameQueues (w : Work) (n : Nat) (response : Word16) :
    SameQueues w.state (w.takeAnswer n response).state := by
  unfold Work.takeAnswer
  split
  · split
    · exact w.admitStation_sameQueues n _
    · exact w.countFailure_sameQueues n _ _
  · exact SameQueues.refl _
  · exact SameQueues.refl _
  · exact SameQueues.refl _
  · exact SameQueues.refl _

theorem Work.takeLeave_sameQueues (w : Work) (n : Nat) :
    SameQueues w.state (w.takeLeave n).state := by
  unfold Work.takeLeave
  split
  · exact (w.withdraw_onlyCallsAndStations .left n).sameQueues
  · exact ⟨rfl, rfl, fun _ => ⟨rfl, rfl, rfl⟩⟩
  · exact SameQueues.refl _
  · exact SameQueues.refl _
  · exact SameQueues.refl _

theorem Work.disableForBabble_sameQueues (w : Work) (n : Nat) :
    SameQueues w.state (w.disableForBabble n).state :=
  SameQueues.trans
    (t := w.state.setLine n { w.state.line n with condition := .disabled .babble })
    ⟨rfl, rfl, fun _ => ⟨rfl, rfl, rfl⟩⟩
    ((Work.clearPosition_onlyCallsAndStations _ _ _).trans
      (Work.clearPosition_onlyCallsAndStations _ _ _)).sameQueues

theorem State.received_sameQueues (s : State) (v : Vector Byte 176) :
    SameQueues s { s with received := v } := ⟨rfl, rfl, fun _ => ⟨rfl, rfl, rfl⟩⟩

theorem State.sendFrom_sameQueues (s : State) (n : Nat) (second : Bool) :
    SameQueues s (s.sendFrom n second) := by
  unfold State.sendFrom
  dsimp only
  split
  · exact ⟨rfl, rfl, fun _ => ⟨rfl, rfl, rfl⟩⟩
  · exact SameQueues.refl s

/-! ### The completion of a restart (R174) -/

/-- RESTARTED finds every out queue empty, and no record is admitted that the restart has shut out. -/
theorem QueueLaw.endRestart {s : State} (hs : QueueLaw s) {m : RestartMode}
    (hm : s.restart = some m) : QueueLaw (s.endRestart m) := by
  have hempty : ∀ q, (s.port q).out = [] := fun q => (hs.queues_empty (by simp [hm]) q).2
  have hended : QueueLaw { s with restart := none } := by
    intro q
    obtain ⟨ho, hout, hp, -, ht⟩ := hs q
    exact ⟨ho, hout, hp, by simp, fun t htr ha hr => absurd (ht t htr ha hr).2 (by simp [hm])⟩
  have hport : ∀ q, ({ s with restart := none } : State).port q = s.port q := fun _ => rfl
  unfold State.endRestart
  refine ((hended.append rfl ?_ _).append ?_ ?_ _).append ?_ ?_ _
  · simp [hport, hempty]
  · simp
  · simp [State.append_port_ne, hport, hempty]
  · simp
  · simp [State.append_port_ne, hport, hempty]

/-! ### The orders -/

/-- An order's reply has the room that the grant asked for (R7, R8). -/
theorem QueueLaw.reply {s t : State} (hs : QueueLaw s) {p : Port} {o : OrderRecord}
    (ht : s.Takes p o) (hq : SameQueues (s.taken p) t) (e : Entry) : QueueLaw (t.append p e) := by
  obtain ⟨hr, -, hroom, -⟩ := ht
  have hlaw := (hs.taken p).of_sameQueues hq
  obtain ⟨hr', -, hq⟩ := hq
  refine hlaw.append (hr'.trans (by simpa using hr)) ?_ e
  obtain ⟨-, hout, -⟩ := hq p
  rw [hout, State.taken_port_same]
  exact hroom

/-- The take of any order keeps the queue law. -/
theorem QueueLaw.take {s t : State} (hs : QueueLaw s) {i : Instr} (hi : i ∈ takeRows)
    (h : exec i s = .next t) : QueueLaw t := by
  obtain ⟨authority, hrow⟩ := takeRow_of_mem i hi
  have hstands : exec i s = .next s → QueueLaw t := fun h' => by
    obtain rfl : s = t := by simpa using h'.symm.trans h
    exact hs
  by_cases hidle : ∀ p o, ¬s.Takes p o
  · exact hstands (hrow.exec_idle hidle)
  · push Not at hidle
    obtain ⟨p, o, ht⟩ := hidle
    by_cases hne : i = rowOf o
    · subst hne
      rcases exec_rowOf_cases ht with ⟨outcome, fields, h'⟩ | ⟨fields, w, hq, h'⟩ | ⟨u, -, hu, h'⟩ <;>
        obtain rfl := Host.Outcome.next.inj (h'.symm.trans h)
      · exact hs.reply ht (SameQueues.refl _) _
      · exact (hs.reply ht hq _).postAll _
      · exact hu.queueLaw
    · exact hstands (hrow.exec_other ht hne)

/-! ### Every command -/

/-- t is s after work that left the queues, with the events of the work posted. -/
def OnlyPosts (s t : State) : Prop := ∃ w : Work, SameQueues s w.state ∧ t = w.finish

theorem OnlyPosts.of_sameQueues {s t : State} (h : SameQueues s t) : OnlyPosts s t :=
  ⟨Work.start t, h, rfl⟩

theorem OnlyPosts.refl (s : State) : OnlyPosts s s := .of_sameQueues (SameQueues.refl s)

theorem OnlyPosts.finish {s : State} {w : Work} (h : SameQueues s w.state) : OnlyPosts s w.finish :=
  ⟨w, h, rfl⟩

theorem QueueLaw.of_onlyPosts {s t : State} (hs : QueueLaw s) (h : OnlyPosts s t) : QueueLaw t := by
  obtain ⟨w, hw, rfl⟩ := h
  exact hs.finish hw

/-- R17: the expiry of the lapse timer. -/
theorem execLapseTimerExpiry_onlyPosts {s t : State} (h : execLapseTimerExpiry s = .next t) :
    OnlyPosts s t := by
  unfold execLapseTimerExpiry at h
  split at h <;> obtain rfl := Host.Outcome.next.inj h
  · exact .finish ⟨rfl, rfl, fun _ => ⟨rfl, rfl, rfl⟩⟩
  · exact .refl _

/-- The messages of stations (R58, R61, R64, R66). -/
theorem execRegister_onlyPosts {s t : State} {n : Fin 96} {identity : Word16}
    (h : execRegister n identity s = .next t) : OnlyPosts s t := by
  unfold execRegister at h
  split at h <;> obtain rfl := Host.Outcome.next.inj h
  · exact .finish (Work.takeRegister_sameQueues _ _ _)
  · exact .refl _

theorem execAnswer_onlyPosts {s t : State} {n : Fin 96} {response : Word16}
    (h : execAnswer n response s = .next t) : OnlyPosts s t := by
  unfold execAnswer at h
  split at h <;> obtain rfl := Host.Outcome.next.inj h
  · exact .finish (Work.takeAnswer_sameQueues _ _ _)
  · exact .refl _

theorem execLeave_onlyPosts {s t : State} {n : Fin 96} (h : execLeave n s = .next t) :
    OnlyPosts s t := by
  unfold execLeave at h
  split at h <;> obtain rfl := Host.Outcome.next.inj h
  · exact .finish (Work.takeLeave_sameQueues _ _)
  · exact .refl _

theorem execSignal_onlyPosts {s t : State} {n : Fin 96} {bytes : List Byte}
    (h : execSignal n bytes s = .next t) : OnlyPosts s t := by
  unfold execSignal at h
  split at h
  · split at h <;> obtain rfl := Host.Outcome.next.inj h
    case h_1 => exact .finish (SameQueues.refl _)
    all_goals exact .refl _
  · obtain rfl := Host.Outcome.next.inj h
    exact .refl _

/-- The deadlines of station records (R63, R69). -/
theorem execAnswerDeadlineExpiry_onlyPosts {s t : State} {n : Fin 96}
    (h : execAnswerDeadlineExpiry n s = .next t) : OnlyPosts s t := by
  unfold execAnswerDeadlineExpiry at h
  split at h <;> obtain rfl := Host.Outcome.next.inj h
  case h_1 identity _ _ deadline _ =>
    exact .finish (SameQueues.trans (t := s.reach deadline)
      ⟨rfl, rfl, fun _ => ⟨rfl, rfl, rfl⟩⟩ (Work.countFailure_sameQueues _ _ _ _))
  all_goals exact .refl _

theorem execHoldOffExpiry_onlyPosts {s t : State} {n : Fin 96}
    (h : execHoldOffExpiry n s = .next t) : OnlyPosts s t := by
  unfold execHoldOffExpiry at h
  split at h <;> obtain rfl := Host.Outcome.next.inj h
  case h_1 => exact .of_sameQueues ⟨rfl, rfl, fun _ => ⟨rfl, rfl, rfl⟩⟩
  all_goals exact .refl _

/-- The indications of the line interface and the channels (R50, R51, R57). -/
theorem execBabble_onlyPosts {s t : State} {n : Fin 48} (h : execBabble n s = .next t) :
    OnlyPosts s t := by
  have hcounted : ∀ v, SameQueues s (s.setLine n v) :=
    fun _ => ⟨rfl, rfl, fun _ => ⟨rfl, rfl, rfl⟩⟩
  unfold execBabble at h
  dsimp only at h
  split at h
  · obtain rfl := Host.Outcome.next.inj h
    exact .refl _
  · split at h <;> obtain rfl := Host.Outcome.next.inj h
    · exact .finish ((hcounted _).trans (Work.disableForBabble_sameQueues _ _))
    · exact .of_sameQueues (hcounted _)

theorem execLinkUp_onlyPosts {s t : State} {n : Fin 48} (h : execLinkUp n s = .next t) :
    OnlyPosts s t := by
  unfold execLinkUp at h
  split at h <;> obtain rfl := Host.Outcome.next.inj h
  · exact .refl _
  · exact .finish (Work.reportLink_onlyLinks _ _ _).sameQueues

theorem execLinkDown_onlyPosts {s t : State} {n : Fin 48} (h : execLinkDown n s = .next t) :
    OnlyPosts s t := by
  unfold execLinkDown at h
  split at h <;> obtain rfl := Host.Outcome.next.inj h
  · exact .refl _
  · exact .finish (Work.reportLink_onlyLinks _ _ _).sameQueues

theorem execBeginSend_onlyPosts {s t : State} {n : Fin 48} (h : execBeginSend n s = .next t) :
    OnlyPosts s t := by
  unfold execBeginSend at h
  split at h
  · split at h <;> obtain rfl := Host.Outcome.next.inj h
    · exact .of_sameQueues (s.sendFrom_sameQueues _ _)
    · exact .refl _
  · obtain rfl := Host.Outcome.next.inj h
    exact .refl _

theorem execSampleArrival_onlyPosts {s t : State} {samples : List Byte}
    (h : execSampleArrival samples s = .next t) : OnlyPosts s t := by
  unfold execSampleArrival at h
  obtain rfl := Host.Outcome.next.inj h
  exact .of_sameQueues (s.received_sameQueues _)

theorem execFrameStart_onlyPosts {s t : State} (h : execFrameStart s = .next t) :
    OnlyPosts s t := by
  unfold execFrameStart at h
  obtain rfl := Host.Outcome.next.inj h
  exact .finish (SameQueues.trans (t := s.openFrame) ⟨rfl, rfl, fun _ => ⟨rfl, rfl, rfl⟩⟩
    ((Work.promoteAll_onlyFrames _).trans (Work.carryAll_onlyFrames _)).sameQueues)

/-- What a station, the line interface, a deadline or the frame clock makes happen touches the ports by
its events alone (R28). -/
theorem exec_callSide_onlyPosts {i : Instr} (hi : IsCallSideCommand i) {s t : State}
    (h : exec i s = .next t) : OnlyPosts s t := by
  cases i
  case answerDeadlineExpiry n => exact execAnswerDeadlineExpiry_onlyPosts h
  case holdOffExpiry n => exact execHoldOffExpiry_onlyPosts h
  case register n identity => exact execRegister_onlyPosts h
  case answer n response => exact execAnswer_onlyPosts h
  case leave n => exact execLeave_onlyPosts h
  case signal n bytes => exact execSignal_onlyPosts h
  case unfitStationMessage =>
    obtain rfl := Host.Outcome.next.inj h
    exact .refl _
  case babble n => exact execBabble_onlyPosts h
  case linkUp n => exact execLinkUp_onlyPosts h
  case linkDown n => exact execLinkDown_onlyPosts h
  case beginSend n => exact execBeginSend_onlyPosts h
  case sendCompletion n =>
    obtain rfl := Host.Outcome.next.inj h
    exact .of_sameQueues ⟨rfl, rfl, fun _ => ⟨rfl, rfl, rfl⟩⟩
  case sampleArrival samples => exact execSampleArrival_onlyPosts h
  case frameStart => exact execFrameStart_onlyPosts h
  all_goals exact hi.elim

/-- The reset pin and the completion of a restart (R170, R174). -/
theorem QueueLaw.resetPin {s t : State} (hs : QueueLaw s) (h : execResetPin s = .next t) :
    QueueLaw t := by
  unfold execResetPin at h
  split at h <;> obtain rfl := Host.Outcome.next.inj h
  · exact hs
  · exact (s.startCold_startsRestart .pin).queueLaw

theorem QueueLaw.resetPinRelease {s t : State} (hs : QueueLaw s)
    (h : execResetPinRelease s = .next t) : QueueLaw t := by
  unfold execResetPinRelease at h
  split at h <;> obtain rfl := Host.Outcome.next.inj h <;> exact hs

theorem QueueLaw.restartComplete {s t : State} (hs : QueueLaw s) {links : List Bool}
    (h : execRestartComplete links s = .next t) : QueueLaw t := by
  unfold execRestartComplete at h
  split at h
  · rename_i m hm
    split at h <;> obtain rfl := Host.Outcome.next.inj h
    · exact hs
    · exact (hs.endRestart hm).finish (Work.rereadLinks_onlyLinks _ _).sameQueues
  · obtain rfl := Host.Outcome.next.inj h
    exact hs

/-- Every command keeps the queue law. -/
theorem QueueLaw.exec {s t : State} (hs : QueueLaw s) {i : Instr} (h : exec i s = .next t) :
    QueueLaw t := by
  by_cases hi : i ∈ takeRows
  · exact hs.take hi h
  by_cases hc : IsCallSideCommand i
  · exact hs.of_onlyPosts (exec_callSide_onlyPosts hc h)
  cases i
  case orderTransfer p part record =>
    cases part <;> obtain rfl := Host.Outcome.next.inj h
    · exact hs.openTransfer p
    · exact hs.completing p fun _ _ hq => hq.completeOrder record
  case fetchTransfer p part =>
    cases part <;> obtain rfl := Host.Outcome.next.inj h
    · exact hs.openTransfer p
    · exact hs.completing p fun _ _ hq => hq.completeFetch
  case statusTransfer p part =>
    cases part <;> obtain rfl := Host.Outcome.next.inj h
    · exact hs.openTransfer p
    · exact hs.completing p fun _ _ hq => hq.completeStatus
  case unknownTransferKind p kind =>
    obtain rfl := Host.Outcome.next.inj h
    exact hs.completing p fun _ _ hq => hq.withoutTransfer
  case lapseTimerExpiry => exact hs.of_onlyPosts (execLapseTimerExpiry_onlyPosts h)
  case powerOn =>
    obtain rfl := Host.Outcome.next.inj h
    exact (s.startCold_startsRestart .powerOn).queueLaw
  case resetPin => exact hs.resetPin h
  case resetPinRelease => exact hs.resetPinRelease h
  case restartComplete links => exact hs.restartComplete h
  case register | answer | leave | signal | unfitStationMessage | babble | linkUp | linkDown
      | beginSend | sendCompletion | answerDeadlineExpiry | holdOffExpiry | sampleArrival
      | frameStart => exact absurd trivial hc
  all_goals exact absurd (by decide) hi

/-- Settles O51: `QueueLaw.exec` for a step that has a command, and the idle step touches no port. -/
theorem everyStepKeepsTheQueueLaw : Obligations.EveryStepKeepsTheQueueLaw := by
  unfold Obligations.EveryStepKeepsTheQueueLaw
  intro s t hs h
  unfold step at h
  split at h
  · rename_i c rest hpending
    have hs' : QueueLaw { s with pending := rest } := hs
    exact hs'.exec h
  · obtain rfl := Host.Outcome.next.inj h
    unfold State.idle
    split
    · exact hs
    · exact hs

end Sys2Proof.Machine
end

section
/-! SUPPORT. The step, the arbiter and the take: O1 and O3 to O7 (R7 to R11, R26). -/

namespace Sys2Proof.Machine

/-- Settles O1: a step is defined by the head of its queue. -/
theorem stepRunsTheFrontCommand : Obligations.StepRunsTheFrontCommand := by
  unfold Obligations.StepRunsTheFrontCommand
  intro c rest s
  rfl

/-! ### Which row acts (R7) -/

/-- The row of the order granted changes the state: the order leaves its queue, or a restart starts. -/
theorem exec_rowOf_ne {s : State} {p : Port} {o : OrderRecord} (ht : s.Takes p o) :
    exec (rowOf o) s ≠ .next s := by
  have hshorter : (s.port p).orders.tail ≠ (s.port p).orders := fun h => by
    have hlen := congrArg List.length h
    have hhead := ht.2.1
    cases hq : (s.port p).orders with
    | nil => simp [hq] at hhead
    | cons o' rest => simp [hq] at hlen
  intro h
  rcases exec_rowOf_cases ht with ⟨outcome, fields, h'⟩ | ⟨fields, w, hw, h'⟩ | ⟨t, -, hstart, h'⟩
  · have heq := congrArg (fun u => (State.port u p).orders) (Host.Outcome.next.inj (h'.symm.trans h))
    simp only [State.refusal, State.reply, State.port_setPort_same, State.taken_port_same] at heq
    exact hshorter heq
  · have heq := congrArg (fun u => (State.port u p).orders) (Host.Outcome.next.inj (h'.symm.trans h))
    simp only [State.postAll_port_orders, State.append_port_same, (hw.2.2 p).1,
      State.taken_port_same] at heq
    exact hshorter heq
  · have heq := Host.Outcome.next.inj (h'.symm.trans h)
    have hin := hstart.1
    rw [heq, ht.1] at hin
    cases hin

/-- Settles O3: every row that takes an order is `takeOrder` of the orders that `rowOf` gives it. -/
theorem onlyTheRowOfTheGrantedOrderActs : Obligations.OnlyTheRowOfTheGrantedOrderActs := by
  unfold Obligations.OnlyTheRowOfTheGrantedOrderActs
  refine ⟨rowOf_mem_takeRows, fun s p o i hi ht hne => ?_, fun s p o ht => exec_rowOf_ne ht,
    fun s hidle i hi => ?_⟩
  · obtain ⟨authority, hrow⟩ := takeRow_of_mem i hi
    exact hrow.exec_other ht hne
  · obtain ⟨authority, hrow⟩ := takeRow_of_mem i hi
    exact hrow.exec_idle hidle

/-! ### Form and authority (R8, R9, R26) -/

/-- An order of an unknown code fits no length of the table. -/
theorem not_formFits_of_unknown {o : OrderRecord} (hne : o.code ≠ 0x31)
    (hu : ∀ r ∈ orderTable, r.2.1 ≠ o.code) : ¬FormFits o := by
  rintro ⟨-, hlen, -⟩
  rw [LengthFits, if_neg hne] at hlen
  obtain ⟨r, hr, hc, -⟩ := hlen
  exact hu r hr hc

/-- Settles O4: every row that takes an order refuses a form that does not fit. -/
theorem misformedOrderIsRefusedBadOrder : Obligations.MisformedOrderIsRefusedBadOrder := by
  have hrefused : ∀ (s : State) (p : Port) (o : OrderRecord), s.Takes p o → ¬FormFits o →
      exec (rowOf o) s = .next (s.refusal p o.code o.tag .badOrder []) := fun s p o ht hf => by
    obtain ⟨authority, hrow⟩ := takeRow_of_mem _ (rowOf_mem_takeRows o)
    exact (hrow.exec_of_takes ht).1 hf
  unfold Obligations.MisformedOrderIsRefusedBadOrder
  refine ⟨hrefused, fun s p o ht hne hu => ?_⟩
  rw [← rowOf_of_unknown o hne hu]
  exact hrefused s p o ht (not_formFits_of_unknown hne hu)

/-- What the holder check makes of each state of the mastership record (R26). -/
theorem holderCheck_vacant (x : Controller) : holderCheck x .vacant = some .notHolder := rfl

theorem holderCheck_held_ne {x y : Controller} (h : y ≠ x) (t : Nat) :
    holderCheck x (.held y t) = some .notHolder := by
  simp [holderCheck, h.symm]

theorem holderCheck_lapsed_ne {x y : Controller} (h : y ≠ x) :
    holderCheck x (.lapsed y) = some .notHolder := by
  simp [holderCheck, h.symm]

theorem holderCheck_lapsed_same (x : Controller) :
    holderCheck x (.lapsed x) = some .lapsed := by
  simp [holderCheck]

/-- The rows that ask for the holder: from a controller's port they make the holder check. -/
theorem holderCheck_of_row {i : Instr} (h : i = .releaseById ∨ i = .releaseByTag
      ∨ i ∈ (holderRows ++ sharedRows).map (·.1)) :
    ∃ authority, TakeRow i authority ∧ ∀ p x m, controllerOf p = some x →
      authorityCheck authority p m = holderCheck x m := by
  have hholder : ∀ p x m, controllerOf p = some x →
      authorityCheck .holderOnly p m = holderCheck x m := fun p x m hp => by
    simp [authorityCheck, hp]
  have hshared : ∀ p x m, controllerOf p = some x →
      authorityCheck .holderOrPortM p m = holderCheck x m := fun p x m hp => by
    simp [authorityCheck, hp]
  rw [List.map_append, List.mem_append] at h
  rcases h with rfl | rfl | h | h
  · exact ⟨_, releaseById_takeRow, hholder⟩
  · exact ⟨_, releaseByTag_takeRow, hholder⟩
  · exact ⟨_, holderRows_takeRow i h, hholder⟩
  · exact ⟨_, sharedRows_takeRow i h, hshared⟩

/-- The rows that Port M may not issue. -/
theorem notAllowed_of_controller_row {i : Instr} (h : i = .releaseById ∨ i = .releaseByTag
      ∨ i ∈ (holderRows ++ controllerRows).map (·.1)) :
    ∃ authority, TakeRow i authority ∧ ∀ m, authorityCheck authority .m m = some .notAllowed := by
  rw [List.map_append, List.mem_append] at h
  rcases h with rfl | rfl | h | h
  · exact ⟨_, releaseById_takeRow, fun _ => rfl⟩
  · exact ⟨_, releaseByTag_takeRow, fun _ => rfl⟩
  · exact ⟨_, holderRows_takeRow i h, fun _ => rfl⟩
  · exact ⟨_, controllerRows_takeRow i h, fun _ => rfl⟩

/-- Settles O5: the authority class of each family of rows, and what its check refuses. -/
theorem orderWithoutAuthorityIsRefused : Obligations.OrderWithoutAuthorityIsRefused := by
  unfold Obligations.OrderWithoutAuthorityIsRefused
  intro s p o ht hf
  refine ⟨fun hp hi => ?_, fun hp hi => ?_, fun x hx hi => ?_⟩
  · subst hp
    obtain ⟨authority, hrow, hcheck⟩ := notAllowed_of_controller_row hi
    exact (hrow.exec_of_takes ht).2.1 _ hf (hcheck _)
  · refine ((portMRows_takeRow _ hi).exec_of_takes ht).2.1 _ hf ?_
    cases p
    · rfl
    · rfl
    · exact absurd rfl hp
  · obtain ⟨authority, hrow, hcheck⟩ := holderCheck_of_row hi
    have hrefuse : ∀ outcome, holderCheck x s.mastership = some outcome →
        exec (rowOf o) s = .next (s.refusal p o.code o.tag outcome []) := fun outcome h =>
      (hrow.exec_of_takes ht).2.1 outcome hf ((hcheck p x _ hx).trans h)
    refine ⟨fun hm => hrefuse _ ?_, fun y t hm hne => hrefuse _ ?_, fun y hm hne => hrefuse _ ?_,
      fun hm => hrefuse _ ?_⟩ <;> rw [hm]
    · exact holderCheck_vacant x
    · exact holderCheck_held_ne hne t
    · exact holderCheck_lapsed_ne hne
    · exact holderCheck_lapsed_same x

/-! ### Replies and events (R8, R10, R11) -/

theorem code_of_restart_row {o : OrderRecord}
    (h : rowOf o = .restartCold ∨ rowOf o = .restartKeep) : o.code = 0x70 ∨ o.code = 0x71 := by
  rcases h with h | h
  · exact .inl ((rowOf_eq_iff_of_mem (r := (.restartCold, 0x70, 0, 0)) (by decide) o).1 h)
  · exact .inr ((rowOf_eq_iff_of_mem (r := (.restartKeep, 0x71, 0, 0)) (by decide) o).1 h)

/-- Settles O6: the three things a take can be, and what posting appends. -/
theorem takeRepliesOnceAheadOfItsEvents : Obligations.TakeRepliesOnceAheadOfItsEvents := by
  unfold Obligations.TakeRepliesOnceAheadOfItsEvents
  intro s p o ht
  have hrestart := ht.1
  rcases exec_rowOf_cases ht with ⟨outcome, fields, h⟩ | ⟨fields, w, hw, h⟩ | ⟨t, hrow, hstart, h⟩
  · refine ⟨_, h, fun hne => absurd ?_ hne, fun _ => ⟨outcome, fields, [], ?_, ?_, ?_, fun _ => rfl⟩⟩
    · simpa [State.refusal, State.reply] using hrestart
    · simp [State.refusal, State.reply, State.taken_port_same]
    · simp [State.refusal, State.reply, State.taken_port_same]
    · simp [State.refusal, State.reply]
  · obtain ⟨hr, hl, hq⟩ := hw
    obtain ⟨ho, hout, -⟩ := hq p
    obtain ⟨es, hes⟩ := (w.state.append p (.reply o.code o.tag .done fields)).postAll_port_out
      w.events p
    refine ⟨_, h, fun hne => absurd ?_ hne,
      fun _ => ⟨.done, fields, es, ?_, ?_, ?_, fun hne => absurd rfl hne⟩⟩
    · simp [hr, hrestart]
    · simp [hes, State.append_port_same, hout, State.taken_port_same]
    · simp [State.postAll_port_orders, State.append_port_same, ho, State.taken_port_same]
    · simp [hl]
  · refine ⟨t, h, fun _ => code_of_restart_row hrow, fun hnone => ?_⟩
    have hin := hstart.1
    rw [hnone] at hin
    cases hin

/-- Settles O7: `State.post_port`, with the ports of each kind of event read off. -/
theorem eventIsPostedPortByPort : Obligations.EventIsPostedPortByPort := by
  unfold Obligations.EventIsPostedPortByPort
  intro s e p
  rw [State.post_port]
  unfold PortState.posted
  cases e <;> cases p <;> rfl

end Sys2Proof.Machine
end

section
/-! SUPPORT. The transfers of the order ports and the frames of the channels: O8 to O10 and O50 (R2 to
R5, R54, R177, R179). -/

namespace Sys2Proof.Machine

/-! ### The opening (R2, R177) -/

theorem State.restarting_eq (s : State) : s.restarting = true ↔ s.restart ≠ none := by
  rw [State.restarting, Option.isSome_iff_ne_none]

/-- The holder field: Port X is that of the holder in HELD(X) (R29). -/
theorem holderField_weight (p : Port) (m : Mastership) :
    (if holderField p m = true then 1 else 0) =
      match p, m with
      | .a, .held .a _ => 1
      | .b, .held .b _ => 1
      | _, _ => 0 := by
  cases m with
  | vacant => cases p <;> rfl
  | held x t => cases p <;> cases x <;> rfl
  | lapsed x => cases p <;> rfl

/-- The status byte, field by field (R2, R177). -/
theorem State.statusByteOf_eq (s : State) (p : Port) :
    s.statusByteOf p = byteOf (16 * (8 - (s.port p).orders.length)
      + (if (s.port p).out = [] then 0 else 8) + (if (s.port p).missed = true then 4 else 0)
      + (if s.restart = none then 0 else 2)
      + (if holderField p s.mastership = true then 1 else 0)) := by
  unfold State.statusByteOf statusByte freeOrderEntries Config.orderQueueSize
  cases h : s.restart <;> simp [State.restarting, h]

/-- What the status byte showed an ORDER transfer (R3). -/
theorem State.admits_eq (s : State) (p : Port) :
    (decide ((s.port p).orders.length < Config.orderQueueSize) && !s.restarting)
      = (decide ((s.port p).orders.length < 8) && s.restart.isNone) := by
  unfold State.restarting Config.orderQueueSize
  cases s.restart <;> rfl

/-- Settles O8: the opening sends the status byte and records what it showed. -/
theorem transferOpensWithTheStatusByte : Obligations.TransferOpensWithTheStatusByte := by
  unfold Obligations.TransferOpensWithTheStatusByte
  intro s p record b t
  have hbyte : s.statusByteOf p = b :=
    (s.statusByteOf_eq p).trans (congrArg (fun n => byteOf (_ + n)) (holderField_weight p _))
  have hopen : s.openTransfer p = t := by
    unfold State.openTransfer
    rw [State.admits_eq, hbyte]
  rw [← hopen]
  exact ⟨rfl, rfl, rfl⟩

/-! ### The rest of a transfer (R3 to R5) -/

/-- The transfer in which the rest of a transfer comes: the open one, or one that opens now. -/
def State.transferAt (s : State) (p : Port) : OpenTransfer :=
  (s.port p).transfer.getD
    { admits := decide ((s.port p).orders.length < 8) && s.restart.isNone
      lostSince := false
      restartSince := false
      statusByte := s.statusByteOf p }

/-- The bytes sent when the rest of a transfer comes. -/
def State.sentAt (s : State) (p : Port) : List Byte :=
  match (s.port p).transfer with
  | some _ => (s.port p).sent
  | none => [s.statusByteOf p]

/-- The port in which the rest of a transfer comes. -/
theorem State.inTransfer_port (s : State) (p : Port) :
    (s.inTransfer p).port p =
      { s.port p with transfer := some (s.transferAt p), sent := s.sentAt p } := by
  unfold State.inTransfer State.transferAt State.sentAt
  cases h : (s.port p).transfer with
  | some t =>
    have heta : s.port p = { s.port p with transfer := some t } := by rw [← h]
    simpa using heta
  | none => simp [State.openTransfer, State.admits_eq]

theorem State.inTransfer_setPort (s : State) (p : Port) (v : PortState) :
    (s.inTransfer p).setPort p v = s.setPort p v := by
  unfold State.inTransfer State.openTransfer
  split <;> simp

/-- The rest of a transfer that rewrites its port by a function. -/
theorem State.completing_eq (s : State) (p : Port) (f : PortState → PortState) :
    (s.inTransfer p).setPort p (f ((s.inTransfer p).port p)) = s.setPort p (f
      { s.port p with transfer := some (s.transferAt p), sent := s.sentAt p }) := by
  rw [State.inTransfer_setPort, State.inTransfer_port]

/-- A complete record keeps 32 parameter bytes at most (R3). -/
theorem orderRecordOf_complete {code tag length : Byte} {params : List Byte}
    (h : params.length = length.toNat) :
    orderRecordOf (code :: tag :: length :: params)
      = some ⟨code, tag, params.take 32, decide (32 < length.toNat)⟩ := by
  have htake : params.take (min length.toNat 32) = params.take 32 := by
    rw [← h, ← List.take_take]
    simp
  unfold orderRecordOf Config.keptParameters
  dsimp only
  rw [if_pos h.ge, htake]

/-- A transfer that ended before its declared bytes came brings no record (R3). -/
theorem orderRecordOf_short {code tag length : Byte} {params short : List Byte}
    (h : params.length < length.toNat)
    (hs : short = [] ∨ short = [code] ∨ short = [code, tag]
      ∨ short = code :: tag :: length :: params) : orderRecordOf short = none := by
  rcases hs with rfl | rfl | rfl | rfl
  · rfl
  · rfl
  · rfl
  · simp only [orderRecordOf, if_neg (Nat.not_le.2 h)]

/-- Settles O9: a transfer that completes is `completeOrder` of what its status byte showed. -/
theorem orderTransferQueuesAnAdmittedRecord : Obligations.OrderTransferQueuesAnAdmittedRecord := by
  unfold Obligations.OrderTransferQueuesAnAdmittedRecord
  intro s p code tag length params admits sent
  have hadmits : ((s.transferAt p).admits && !(s.transferAt p).restartSince) = admits := by
    unfold State.transferAt
    cases h : (s.port p).transfer <;> simp [admits, h]
  have hsent : s.sentAt p = sent := rfl
  have hexec : ∀ received, exec (.orderTransfer p .completing received) s =
      .next ((s.inTransfer p).setPort p (completeOrder received ((s.inTransfer p).port p))) :=
    fun _ => rfl
  refine ⟨fun h => ?_, fun h short hs => ?_⟩
  · rw [hexec, State.completing_eq s p (completeOrder _)]
    simp only [completeOrder, orderRecordOf_complete h, hadmits, hsent]
  · rw [hexec, State.completing_eq s p (completeOrder _)]
    simp only [completeOrder, orderRecordOf_short h hs, hsent]

/-- Settles O10: the equation of the completion, per kind of transfer. -/
theorem fetchStatusAndUnknownTransfersComplete :
    Obligations.FetchStatusAndUnknownTransfersComplete := by
  unfold Obligations.FetchStatusAndUnknownTransfersComplete
  intro s p kind sent
  have hsent : s.sentAt p = sent := rfl
  have hfetch : exec (.fetchTransfer p .completing) s =
      .next ((s.inTransfer p).setPort p (completeFetch ((s.inTransfer p).port p))) := rfl
  have hstatus : exec (.statusTransfer p .completing) s =
      .next ((s.inTransfer p).setPort p (completeStatus ((s.inTransfer p).port p))) := rfl
  refine ⟨fun entry rest hout => ?_, fun hout => ?_, ?_, ?_⟩
  · rw [hfetch, State.completing_eq s p completeFetch]
    simp only [completeFetch, hout, hsent]
  · rw [hfetch, State.completing_eq s p completeFetch]
    simp only [completeFetch, hout, hsent, emptyEntryBytes]
  · rw [hstatus, State.completing_eq s p completeStatus]
    refine congrArg (fun flag => Host.Outcome.next (s.setPort p
      { s.port p with transfer := none, missed := flag, sent := sent })) ?_
    unfold State.transferAt
    cases (s.port p).transfer <;> simp
  · exact congrArg Host.Outcome.next (State.completing_eq s p fun q => { q with transfer := none })

/-! ### Transfers and frames as bytes (R2, R54, R177, R179) -/

/-- The two bytes of a 16-bit quantity give it back. -/
theorem word16OfBytes_extract (w : Word16) :
    word16OfBytes (w.extractLsb' 8 8) (w.extractLsb' 0 8) = w :=
  (BitVec.extractLsb'_append_extractLsb'_eq_extractLsb' rfl).trans (by simp)

/-- The set byte and the line port of a position give the position back (R179). -/
theorem positionOf_lineOf (position : Fin 96) :
    ∃ second, secondOfSetByte (setByteOf position) = some second
      ∧ positionOf (lineOf position) second = position := by
  rcases Nat.mod_two_eq_zero_or_one position.val with h | h
  · refine ⟨false, by rw [setByteOf, h]; rfl, Fin.ext ?_⟩
    change 2 * (position.val / 2) = position.val
    omega
  · refine ⟨true, by rw [setByteOf, h]; rfl, Fin.ext ?_⟩
    change 2 * (position.val / 2) + 1 = position.val
    omega

/-- A frame whose length byte fits and whose message is fit is read as that message (R54). -/
theorem decodeStationFrame_of_fit {position : Fin 96} {type length : Byte} {params : List Byte}
    {i : Instr} (hlength : length.toNat = params.length)
    (hfit : fitMessage position type params = some i) :
    decodeStationFrame (lineOf position) (setByteOf position :: type :: length :: params) = i := by
  obtain ⟨second, hsecond, hposition⟩ := positionOf_lineOf position
  simp only [decodeStationFrame, hsecond, hlength, if_true, hposition, hfit, Option.getD_some]

theorem decode_encodeStationFrame {i : Instr} {line : Fin 48} {frame : List Byte}
    (hw : WellFormed i = true) (h : encodeStationFrame i = some (line, frame)) :
    decodeStationFrame line frame = i := by
  unfold encodeStationFrame at h
  split at h
  case h_1 position identity =>
    obtain ⟨rfl, rfl⟩ := Prod.mk.inj (Option.some.inj h)
    exact decodeStationFrame_of_fit rfl
      (congrArg (fun w => some (Instr.register position w)) (word16OfBytes_extract identity))
  case h_2 position response =>
    obtain ⟨rfl, rfl⟩ := Prod.mk.inj (Option.some.inj h)
    exact decodeStationFrame_of_fit rfl
      (congrArg (fun w => some (Instr.answer position w)) (word16OfBytes_extract response))
  case h_3 position =>
    obtain ⟨rfl, rfl⟩ := Prod.mk.inj (Option.some.inj h)
    exact decodeStationFrame_of_fit rfl rfl
  case h_4 position bytes =>
    obtain ⟨rfl, rfl⟩ := Prod.mk.inj (Option.some.inj h)
    have hlen : 1 ≤ bytes.length ∧ bytes.length ≤ 8 := by simpa [WellFormed] using hw
    refine decodeStationFrame_of_fit ?_ (if_pos hlen)
    rw [byteOf, BitVec.toNat_ofNat]
    omega
  case h_5 line' message =>
    obtain ⟨rfl, rfl⟩ := Prod.mk.inj (Option.some.inj h)
    exact of_decide_eq_true hw
  case h_6 => cases h

theorem decode_encodeTransfer {i : Instr} {port : Port} {bytes : List Byte}
    (hw : WellFormed i = true) (h : encodeTransfer i = some (port, bytes)) :
    decodeTransfer port bytes = i := by
  unfold encodeTransfer at h
  split at h
  case h_4 port' kind =>
    obtain ⟨rfl, rfl⟩ := Prod.mk.inj (Option.some.inj h)
    exact of_decide_eq_true hw
  case h_5 => cases h
  all_goals
    obtain ⟨rfl, rfl⟩ := Prod.mk.inj (Option.some.inj h)
    rfl

/-- Settles O50: decoding inverts encoding, constructor by constructor. -/
theorem stationFramesDecodeToTheirMessages : Obligations.StationFramesDecodeToTheirMessages := by
  unfold Obligations.StationFramesDecodeToTheirMessages
  exact ⟨fun _ _ _ => decode_encodeStationFrame, fun _ _ _ => decode_encodeTransfer⟩

end Sys2Proof.Machine
end

section
/-! SUPPORT. The orders of the issuing port and the cold restart: O40 and O41; the state after power-on:
O2 (R1, R12, R13, R170, R173, R175). -/

namespace Sys2Proof.Machine

/-! ### READ CAUSES and SET PORT MODE (R13, R175) -/

/-- The cause set byte, cause by cause (R176). -/
theorem causeSetByte_eq (c : CauseSet) :
    causeSetByte c = byteOf ((if c.powerOn = true then 1 else 0) + (if c.pin = true then 2 else 0)
      + (if c.orderCold = true then 4 else 0) + (if c.orderKeep = true then 8 else 0)) := by
  obtain ⟨powerOn, pin, orderCold, orderKeep⟩ := c
  revert powerOn pin orderCold orderKeep
  decide

theorem execReadCauses_of_takes {s : State} {p : Port} {tag : Byte}
    (h : s.Takes p (queuedOrder 0x72 tag [])) :
    execReadCauses s = .next (s.done p 0x72 tag [causeSetByte (s.port p).causes]
      fun t => t.setPort p { t.port p with causes := CauseSet.empty }) := by
  have htake := takeOrder_own (mine := ofCode 0x72) (codesFit := anyCodes) (authority := .anyPort)
    (body := fun p _ s => .plain [causeSetByte (s.port p).causes]
      (s.setPort p { s.port p with causes := CauseSet.empty })) h rfl rfl rfl rfl
  have hcauses : ((s.taken p).port p).causes = (s.port p).causes := by rw [State.taken_port_same]
  rw [← hcauses]
  exact htake

/-- The modes of R13: 0 for UNGATED, 1 for GATED, and no other code. -/
theorem portModeOf_cases (mode : Byte) :
    (1 < mode.toNat ∧ portModeOf mode = none)
      ∨ (¬1 < mode.toNat
          ∧ portModeOf mode = some (if mode = 0 then .ungated else .gated)
          ∧ portModeCode (if mode = 0 then .ungated else .gated) = mode) := by
  revert mode; decide +kernel

/-- A mode outside the two codes fails check 1 (R8). -/
theorem execSetPortMode_of_misformed {s : State} {p : Port} {tag mode : Byte}
    (h : s.Takes p (queuedOrder 0x73 tag [mode])) (hgt : 1 < mode.toNat) :
    exec .setPortMode s = .next (s.refusal p 0x73 tag .badOrder []) := by
  have hrow : rowOf (queuedOrder 0x73 tag [mode]) = .setPortMode :=
    rowOf_of_mem (r := (.setPortMode, 0x73, 1, 1)) (by decide) _ rfl
  have hmisformed : ¬FormFits (queuedOrder 0x73 tag [mode]) :=
    fun hf => Nat.not_le.2 hgt hf.2.2
  rw [← hrow]
  exact (TakeRow.exec_of_takes (hrow ▸ setPortMode_takeRow) h).1 hmisformed

theorem execSetPortMode_of_takes {s : State} {p : Port} {tag mode : Byte} {m : PortMode}
    (h : s.Takes p (queuedOrder 0x73 tag [mode])) (hmode : portModeOf mode = some m) :
    exec .setPortMode s = .next (s.done p 0x73 tag [portModeCode m] fun t =>
      t.setPort p { t.port p with mode := m }) := by
  have hparam : portModeOf (paramByte [mode] 0) = some m := hmode
  have htake := takeOrder_own (mine := ofCode 0x73)
    (codesFit := fun params => (portModeOf (paramByte params 0)).isSome) (authority := .anyPort)
    (body := fun p params s => .plain
      [portModeCode ((portModeOf (paramByte params 0)).getD (s.port p).mode)]
      (s.setPort p { s.port p with
        mode := (portModeOf (paramByte params 0)).getD (s.port p).mode })) h rfl rfl
    (by simp [hparam]) rfl
  refine Eq.trans htake ?_
  simp only [queuedOrder_params, hparam, Option.getD_some]
  rfl

/-- The attention line follows the mode and the queues (R12). -/
theorem attentionLine_iff (q : PortState) :
    attentionLine q = true ↔ q.out ≠ [] ∧ (q.mode = .gated → q.orders = []) := by
  unfold attentionLine
  cases q.mode <;> simp

/-- Settles O40: each order acts on its own port only, and the gated line waits for the order queue. -/
theorem readCausesAndSetPortModeActOnTheirPort :
    Obligations.ReadCausesAndSetPortModeActOnTheirPort := by
  unfold Obligations.ReadCausesAndSetPortModeActOnTheirPort
  intro s p tag mode c
  refine ⟨fun h => ?_, fun h => ?_, attentionLine_iff _, fun hs hr => ?_⟩
  · rw [← causeSetByte_eq]
    exact execReadCauses_of_takes h
  · rcases portModeOf_cases mode with ⟨hgt, -⟩ | ⟨hle, hmode, hcode⟩
    · rw [if_pos hgt]
      exact execSetPortMode_of_misformed h hgt
    · rw [if_neg hle, execSetPortMode_of_takes h hmode, hcode]
  · have hempty := (hs.queues_empty (Option.isSome_iff_ne_none.2 hr) p).2
    rw [← Bool.not_eq_true, attentionLine_iff]
    exact fun h => h.1 hempty

/-! ### The cold restart (R170, R173, R175) -/

/-- A restart empties the queue that an order has left (R1). -/
theorem State.startCold_taken (s : State) (p : Port) (cause : RestartCause) :
    (s.taken p).startCold cause = s.startCold cause := by
  cases p <;> rfl

theorem execRestartCold_of_takes {s : State} {p : Port} {tag : Byte}
    (h : s.Takes p (queuedOrder 0x70 tag [])) (ha : s.HolderOrM p) :
    execRestartCold s = .next (s.startCold .orderCold) := by
  rw [← State.startCold_taken s p]
  exact takeOrder_own h rfl rfl rfl (authorityCheck_holderOrM ha)

/-- Settles O41: each of the three causes runs the same start of a cold restart. -/
theorem coldRestartGivesEveryBlockItsColdValues :
    Obligations.ColdRestartGivesEveryBlockItsColdValues := by
  unfold Obligations.ColdRestartGivesEveryBlockItsColdValues
  intro s p tag port cold
  refine ⟨rfl, fun hpin => ?_, fun hpin => ?_, fun h ha => execRestartCold_of_takes h ha⟩
  · change execResetPin s = _
    rw [execResetPin, if_neg (by simp [hpin])]
    rfl
  · change execResetPin s = _
    rw [execResetPin, if_pos hpin]

end Sys2Proof.Machine
end

section
/-! SUPPORT. The state after power-on: its records and the laws of its tables, O2 (R1, R16, R31, R47,
R53, R71, R72, R109, R110, R113, R127, R133, R160, R170, R175). -/

namespace Sys2Proof.Machine

/-! ### The records after power-on -/

@[simp] theorem State.reset_line (n : Nat) : State.reset.line n = LinePort.reset := by
  by_cases h : n < 48 <;> simp [State.line, State.reset, h]

@[simp] theorem State.reset_station (n : Nat) : State.reset.station n = Station.reset := by
  by_cases h : n < 96 <;> simp [State.station, State.reset, h]

@[simp] theorem State.reset_slot (n : Nat) : State.reset.slot n = TrunkSlot.reset := by
  by_cases h : n < 64 <;> simp [State.slot, State.reset, h]

@[simp] theorem State.reset_group (n : Nat) : State.reset.group n = Group.reset := by
  by_cases h : n < 8 <;> simp [State.group, State.reset, h]

@[simp] theorem State.reset_key (n : Nat) : State.reset.key n = KeyContext.reset := by
  by_cases h : n < 32 <;> simp [State.key, State.reset, h]

@[simp] theorem State.reset_leg (n : Nat) : State.reset.leg n = none := by
  by_cases h : n < 64 <;> simp [State.leg, State.reset, h]

@[simp] theorem State.reset_watch (n : Nat) : State.reset.watch n = .idle := by
  by_cases h : n < 4 <;> simp [State.watch, State.reset, h]

@[simp] theorem State.reset_connections : State.reset.connections = [] := rfl

theorem State.reset_port (p : Port) : State.reset.port p = PortState.reset := by cases p <;> rfl

theorem State.reset_receivedSample {e : Nat} (h : e < 176) :
    State.reset.receivedSample e = 255 := by
  simp [State.receivedSample, State.reset, h]

/-- The precedence map after power-on gives classes 0 to 3, and 0 beyond its end (R42). -/
theorem State.reset_classOf_le (n : Nat) : State.reset.classOf n ≤ 3 := by
  by_cases h : n < 8
  · revert n; decide
  · have : State.reset.precedenceMap[n]? = none := by simp [h]
    simp [State.classOf, this]

/-! ### The laws after power-on -/

theorem QueueLaw.reset : QueueLaw State.reset := by
  intro p
  rw [State.reset_port]
  exact ⟨by decide, by decide, nofun, fun _ => ⟨rfl, rfl⟩, nofun⟩

/-- No law of the connection table has a record to speak of. -/
theorem TableLaw.reset : TableLaw State.reset := ⟨.nil, .nil, nofun⟩

theorem ClassLaw.reset : ClassLaw State.reset := ⟨State.reset_classOf_le, nofun⟩

theorem GroupLaw.reset : GroupLaw State.reset := by
  refine ⟨fun n => ?_, fun g => ?_⟩
  · rw [State.reset_slot]; decide
  · rw [State.reset_group]; decide

theorem CongestionLaw.reset : CongestionLaw State.reset := by
  intro g
  rw [State.reset_group]
  decide

theorem BusyLaw.reset : BusyLaw State.reset := by
  intro g _
  simp [State.named, Group.reset]

theorem PrivacyLaw.reset : PrivacyLaw State.reset := by
  refine ⟨nofun, .nil, fun n leg h => ?_, fun k _ => ?_, fun k m h => ?_⟩
  · simp at h
  · simp [KeyContext.reset]
  · simp [KeyContext.reset] at h

theorem AdmissionLaw.reset : AdmissionLaw State.reset := by
  refine ⟨fun n identity h => ?_, fun n m identity h => ?_⟩
  · rw [State.reset_station] at h
    rcases h with h | ⟨_, _, _, h⟩ <;> cases h
  · rw [State.reset_station] at h
    cases h

theorem DeliverLaw.reset : DeliverLaw State.reset := by
  intro n
  simp [Station.reset]

theorem WatchLaw.reset : WatchLaw State.reset := by
  refine ⟨fun m n identity h => ?_, fun n t hold h => ?_, nofun⟩
  · rw [State.reset_watch] at h
    cases h
  · rw [State.reset_watch] at h
    cases h

theorem RestartLaw.reset : RestartLaw State.reset := by
  refine fun _ => ⟨rfl, fun n => ?_, nofun, fun _ => rfl⟩
  rw [State.reset_station]
  exact ⟨.inl rfl, rfl, rfl⟩

/-- Settles O2: the tables of `State.reset` are constant vectors and its records are none. -/
theorem powerOnStateHoldsColdValuesAndLaws : Obligations.PowerOnStateHoldsColdValuesAndLaws := by
  unfold Obligations.PowerOnStateHoldsColdValuesAndLaws
  refine ⟨fun p => ?_, rfl, rfl, rfl, rfl, rfl, fun n _ => ?_, fun n _ => State.reset_station n, rfl,
    rfl, rfl, rfl, rfl, rfl, rfl, fun e h => State.reset_receivedSample h,
    fun n _ => State.reset_slot n, fun g _ => State.reset_group g, fun k _ => State.reset_key k,
    fun n _ => State.reset_leg n, fun n _ => State.reset_watch n, rfl,
    QueueLaw.reset, TableLaw.reset, ClassLaw.reset, nofun, nofun, GroupLaw.reset,
    CongestionLaw.reset, BusyLaw.reset, PrivacyLaw.reset, ⟨.nil, by decide, nofun⟩,
    AdmissionLaw.reset, DeliverLaw.reset, WatchLaw.reset, RestartLaw.reset, fun _ _ => by decide⟩
  · rw [State.reset_port]
    exact ⟨rfl, rfl, rfl, rfl, rfl⟩
  · rw [State.reset_line]
    exact ⟨rfl, rfl, rfl, rfl, rfl, rfl, rfl⟩

end Sys2Proof.Machine
end

section
/-! SUPPORT. What the release procedure does to the legs, the key contexts, the watches and the trunk
groups, and which events it raises, for one record and for the records of one selection (R148 to R154,
R116, R122, R123). -/

namespace Sys2Proof.Machine

/-! ### Groups whose busy count falls (R116, R122) -/

/-- The congestion state of a group agrees with its busy count and its thresholds (R113, R122). -/
def Group.Settled (g : Group) : Prop :=
  g.abatement < g.onset ∧ if g.congested then g.abatement < g.busy else g.busy < g.onset

/-- The slots name groups that exist, and every group is settled. -/
def SettledGroups (s : State) : Prop := (∀ n, (s.slot n).group ≤ 7) ∧ ∀ g, (s.group g).Settled

theorem GroupLaw.settledGroups {s : State} (hg : GroupLaw s) (hc : CongestionLaw s) :
    SettledGroups s := by
  refine ⟨hg.1, fun g => ⟨?_, hc g⟩⟩
  obtain ⟨-, -, -, -, -, habatement⟩ := hg.2 g
  exact habatement

theorem Group.Settled.fallenBy_zero {g : Group} (h : g.Settled) : g.fallenBy 0 = g := by
  obtain ⟨quota, reserve, reserveClass, onset, abatement, busy, congested⟩ := g
  obtain ⟨-, hc⟩ := h
  cases congested
  · rfl
  · simpa [Group.fallenBy] using hc

theorem Group.fallenBy_fallenBy (g : Group) (m n : Nat) :
    (g.fallenBy m).fallenBy n = g.fallenBy (m + n) := by
  have hmono : (decide (g.abatement < g.busy - m) && decide (g.abatement < g.busy - m - n))
      = decide (g.abatement < g.busy - m - n) := by
    rw [Bool.and_eq_right_iff_imp]
    simp only [decide_eq_true_eq]
    omega
  simp only [Group.fallenBy, Nat.sub_sub] at hmono ⊢
  rw [Bool.and_assoc, hmono]

theorem Group.Settled.fallenBy {g : Group} (h : g.Settled) (n : Nat) : (g.fallenBy n).Settled := by
  obtain ⟨ha, hc⟩ := h
  refine ⟨ha, ?_⟩
  cases hg : g.congested <;> simp only [hg, if_true, Bool.false_eq_true, if_false] at hc
  · simp only [Group.fallenBy, hg, Bool.false_and, Bool.false_eq_true, if_false]
    omega
  · simp only [Group.fallenBy, hg, Bool.true_and, decide_eq_true_eq]
    split <;> omega

/-- A re-evaluation after the busy count has fallen by one (R122). -/
theorem Group.Settled.congestionAfter_pred {g : Group} (h : g.Settled) :
    congestionAfter { g with busy := g.busy - 1 } = (g.fallenBy 1).congested := by
  obtain ⟨-, hc⟩ := h
  cases hg : g.congested <;> simp only [hg, if_true, Bool.false_eq_true, if_false] at hc
  · simp only [congestionAfter, Group.fallenBy, hg, Bool.false_and, Bool.false_eq_true, if_false,
      decide_eq_false_iff_not]
    omega
  · simp [congestionAfter, Group.fallenBy, hg]

/-- The event of a fall by one: at the change to CLEAR the busy count stands at the abatement
(R123). -/
theorem Group.Settled.congestionReport_pred {g : Group} (h : g.Settled) (k : Nat) :
    congestionReport k g (g.fallenBy 1) =
      if (g.fallenBy 1).congested = g.congested then []
      else [.congestion k (g.fallenBy 1).congested (g.busy - 1)] := by
  obtain ⟨-, hc⟩ := h
  cases hg : g.congested <;> simp only [hg, if_true, Bool.false_eq_true, if_false] at hc
  · simp [congestionReport, Group.fallenBy, hg]
  · by_cases hb : g.abatement < g.busy - 1
    · simp [congestionReport, Group.fallenBy, hg, hb]
    · have : g.busy - 1 = g.abatement := by omega
      simp [congestionReport, Group.fallenBy, hg, this]

/-- The CONGESTION events of two falls, one after the other, are those of the whole fall. -/
theorem congestionReport_fallenBy (k : Nat) (g : Group) (m n : Nat) :
    congestionReport k g (g.fallenBy m)
        ++ congestionReport k (g.fallenBy m) ((g.fallenBy m).fallenBy n)
      = congestionReport k g ((g.fallenBy m).fallenBy n) := by
  unfold congestionReport Group.fallenBy
  cases g.congested <;> cases decide (g.abatement < g.busy - m) <;>
    cases decide (g.abatement < g.busy - m - n) <;> simp

theorem congestionsOf_append (g : Nat) (es fs : List Event) :
    congestionsOf g (es ++ fs) = congestionsOf g es ++ congestionsOf g fs := List.filter_append ..

theorem besideCongestion_append (es fs : List Event) :
    besideCongestion (es ++ fs) = besideCongestion es ++ besideCongestion fs := List.filter_append ..

theorem congestionsOf_congestionReport (g k : Nat) (before after : Group) :
    congestionsOf g (congestionReport k before after) =
      if k = g then congestionReport k before after else [] := by
  unfold congestionReport congestionsOf
  split
  · simp
  · split <;> by_cases h : k = g <;> simp [h]

theorem besideCongestion_congestionReport (k : Nat) (before after : Group) :
    besideCongestion (congestionReport k before after) = [] := by
  unfold congestionReport besideCongestion
  split
  · rfl
  · split <;> rfl

/-! ### One slot leaves its group (R151) -/

/-- A group's busy count falls by one: what becomes of every group, and the events. -/
theorem Work.recount_pred {w : Work} (h : SettledGroups w.state) {k : Nat} (hk : k < 8) :
    (∀ g, (w.recount k (· - 1)).state.group g =
        if g = k then (w.state.group k).fallenBy 1 else w.state.group g)
      ∧ (w.recount k (· - 1)).events = w.events
          ++ congestionReport k (w.state.group k) ((w.state.group k).fallenBy 1) := by
  have hpred := (h.2 k).congestionAfter_pred
  refine ⟨fun g => ?_, ?_⟩
  · rw [Work.recount_state w k _ hk, State.group_setGroup, hpred]
    simp only [hk, and_true]
    rfl
  · rw [(h.2 k).congestionReport_pred]
    unfold Work.recount
    rw [Work.reevaluate_events]
    simp only [Work.update_state, Work.update_events, State.group_setGroup_same _ hk, hpred]

/-- The slot of a trunk endpoint that no record names any more leaves its group (R151). -/
def State.leaves (s : State) (e g : Nat) : Bool :=
  isTrunk e && !s.named e && (s.slot (slotOf e)).group == g

/-- What one endpoint of a removed record does to a group, and the group's events (R151). -/
theorem Work.leaveSlot_group {w : Work} (h : SettledGroups w.state) (e g : Nat) :
    (w.leaveSlot e).state.group g =
        (w.state.group g).fallenBy (if w.state.leaves e g then 1 else 0)
      ∧ congestionsOf g (w.leaveSlot e).events = congestionsOf g w.events
          ++ congestionReport g (w.state.group g) ((w.leaveSlot e).state.group g) := by
  have hstays : ∀ v : Work, w.state.leaves e g = false → v.state.group g = w.state.group g →
      congestionsOf g v.events = congestionsOf g w.events →
      v.state.group g = (w.state.group g).fallenBy (if w.state.leaves e g then 1 else 0)
        ∧ congestionsOf g v.events = congestionsOf g w.events
          ++ congestionReport g (w.state.group g) (v.state.group g) := fun v hl hg hv => by
    simp [hl, (h.2 g).fallenBy_zero, hg, hv, congestionReport]
  unfold Work.leaveSlot
  by_cases hfree : (isTrunk e && !w.state.named e) = true
  · obtain ⟨hgroup, hevents⟩ := Work.recount_pred h (Nat.lt_succ_of_le (h.1 (slotOf e)))
    rw [if_pos hfree]
    by_cases hg : (w.state.slot (slotOf e)).group = g
    · subst hg
      rw [hgroup, if_pos rfl, hevents, congestionsOf_append, congestionsOf_congestionReport,
        if_pos rfl, State.leaves, hfree]
      simp
    · refine hstays _ (by simp [State.leaves, hg]) (by rw [hgroup, if_neg (Ne.symm hg)]) ?_
      rw [hevents, congestionsOf_append, congestionsOf_congestionReport, if_neg hg, List.append_nil]
  · rw [if_neg hfree]
    rw [Bool.not_eq_true] at hfree
    exact hstays w (by rw [State.leaves, hfree, Bool.false_and]) rfl rfl

/-- A slot that leaves its group raises CONGESTION at most. -/
theorem Work.leaveSlot_besideCongestion (w : Work) (e : Nat) :
    besideCongestion (w.leaveSlot e).events = besideCongestion w.events := by
  unfold Work.leaveSlot
  split
  · unfold Work.recount
    rw [Work.reevaluate_events, besideCongestion_append]
    split <;> simp [besideCongestion]
  · rfl

@[simp] theorem Work.leaveSlot_legs (w : Work) (e : Nat) :
    (w.leaveSlot e).state.legs = w.state.legs := by
  unfold Work.leaveSlot; split <;> simp

@[simp] theorem Work.leaveSlot_keys (w : Work) (e : Nat) :
    (w.leaveSlot e).state.keys = w.state.keys := by
  unfold Work.leaveSlot; split <;> simp

theorem OnlyCalls.slot {s t : State} (h : OnlyCalls s t) (n : Nat) : t.slot n = s.slot n := by
  unfold OnlyCalls at h
  rw [h]
  rfl

theorem State.named_eq {s t : State} (h : t.connections = s.connections) (e : Nat) :
    t.named e = s.named e := by unfold State.named; rw [h]

theorem Work.leaveSlot_leaves (w : Work) (e e' g : Nat) :
    (w.leaveSlot e).state.leaves e' g = w.state.leaves e' g := by
  unfold State.leaves
  rw [State.named_eq (w.leaveSlot_connections e), (w.leaveSlot_onlyCalls e).slot]

theorem Work.leaveSlot_settledGroups {w : Work} (h : SettledGroups w.state) (e : Nat) :
    SettledGroups (w.leaveSlot e).state := by
  refine ⟨fun n => ?_, fun g => ?_⟩
  · rw [(w.leaveSlot_onlyCalls e).slot]
    exact h.1 n
  · rw [(Work.leaveSlot_group h e g).1]
    exact (h.2 g).fallenBy _

/-! ### One record is released (R148) -/

/-- The work of a release before the trunk slots: the record leaves the table and frees its leg. -/
def Work.dropped (w : Work) (c : Connection) : Work :=
  (w.update (·.dropConnection c.id)).update (·.freeLeg c)

@[simp] theorem Work.dropped_events (w : Work) (c : Connection) :
    (w.dropped c).events = w.events := rfl

@[simp] theorem Work.dropped_connections (w : Work) (c : Connection) :
    (w.dropped c).state.connections = w.state.connections.filter fun d => d.id != c.id := by
  simp [Work.dropped, State.dropConnection]

theorem Work.dropped_group (w : Work) (c : Connection) (g : Nat) :
    (w.dropped c).state.group g = w.state.group g := by
  simp only [Work.dropped, Work.update_state]
  unfold State.freeLeg
  split <;> rfl

theorem Work.dropped_slot (w : Work) (c : Connection) (n : Nat) :
    (w.dropped c).state.slot n = w.state.slot n := by
  simp only [Work.dropped, Work.update_state]
  unfold State.freeLeg
  split <;> rfl

theorem Work.dropped_settledGroups {w : Work} (h : SettledGroups w.state) (c : Connection) :
    SettledGroups (w.dropped c).state :=
  ⟨fun n => by rw [Work.dropped_slot]; exact h.1 n,
    fun g => by rw [Work.dropped_group]; exact h.2 g⟩

/-- The report of a release: RELEASED where the cause gives a reason (R153). -/
def releaseReport (reason : Option ReleaseReason) (c : Connection) : List Event :=
  reason.toList.map fun r => .released c.id c.callTag r

/-- A release, as the work on its two endpoints, the end of its trace and its report. -/
theorem Work.release_eq (reason : Option ReleaseReason) (w : Work) (c : Connection) :
    w.release reason c =
      { state := (((w.dropped c).leaveSlot c.source).leaveSlot c.destination).state.endTrace c.id
        events := (((w.dropped c).leaveSlot c.source).leaveSlot c.destination).events
          ++ releaseReport reason c } := by
  cases reason with
  | none => simp [Work.release, Work.dropped, Work.update, releaseReport]
  | some r => rfl

/-- The leg of a released record is freed, and no other (R150). -/
theorem Work.release_leg (reason : Option ReleaseReason) (w : Work) (c : Connection) (n : Nat) :
    (w.release reason c).state.leg n =
      if (c.privacy.map (·.leg)) == some n then none else w.state.leg n := by
  have hlegs : (w.release reason c).state.legs = (w.dropped c).state.legs := by
    rw [Work.release_eq]
    exact (Work.leaveSlot_legs _ _).trans (Work.leaveSlot_legs _ _)
  have hdropped : (w.dropped c).state.leg n =
      if (c.privacy.map (·.leg)) == some n then none else w.state.leg n := by
    simp only [Work.dropped, Work.update_state, State.freeLeg]
    cases hc : c.privacy with
    | none => rfl
    | some part =>
      simp only [State.setKey_leg, State.leg_setLeg, State.dropConnection_leg]
      by_cases hn : n = part.leg
      · by_cases hlt : part.leg < 64
        · simp [hn, hlt]
        · simp [hn, hlt, State.leg]
      · simp [hn, Ne.symm hn]
  rw [← hdropped]
  exact congrArg (fun v : Vector (Option Leg) 64 => (v[n]?).getD none) hlegs

/-- The key context of a released record is used once less, and no other (R150). -/
theorem Work.release_key (reason : Option ReleaseReason) (w : Work) (c : Connection) (k : Nat) :
    (w.release reason c).state.key k =
      { w.state.key k with
        useCount := (w.state.key k).useCount
          - if (c.privacy.map (·.key)) == some k then 1 else 0 } := by
  have hkeys : (w.release reason c).state.keys = (w.dropped c).state.keys := by
    rw [Work.release_eq]
    exact (Work.leaveSlot_keys _ _).trans (Work.leaveSlot_keys _ _)
  have hdropped : (w.dropped c).state.key k =
      { w.state.key k with
        useCount := (w.state.key k).useCount
          - if (c.privacy.map (·.key)) == some k then 1 else 0 } := by
    simp only [Work.dropped, Work.update_state, State.freeLeg]
    cases hc : c.privacy with
    | none => rfl
    | some part =>
      simp only [State.key_setKey, State.setLeg_key, State.dropConnection_key]
      by_cases hk : k = part.key
      · by_cases hlt : part.key < 32
        · simp [hk, hlt]
        · simp [hk, hlt, State.key, KeyContext.reset]
      · simp [hk, Ne.symm hk]
  rw [← hdropped]
  exact congrArg (fun v : Vector KeyContext 32 => (v[k]?).getD KeyContext.reset) hkeys

/-- What a release does to a group, and the group's events. -/
theorem Work.release_group (reason : Option ReleaseReason) {w : Work} (h : SettledGroups w.state)
    (c : Connection) (g : Nat) :
    (w.release reason c).state.group g = (w.state.group g).fallenBy
        ((if (w.dropped c).state.leaves c.source g then 1 else 0)
          + if (w.dropped c).state.leaves c.destination g then 1 else 0)
      ∧ congestionsOf g (w.release reason c).events = congestionsOf g w.events
          ++ congestionReport g (w.state.group g) ((w.release reason c).state.group g) := by
  have hd := Work.dropped_settledGroups h c
  obtain ⟨hgroup, hevents⟩ := Work.leaveSlot_group hd c.source g
  obtain ⟨hgroup', hevents'⟩ :=
    Work.leaveSlot_group (Work.leaveSlot_settledGroups hd c.source) c.destination g
  have hquiet : congestionsOf g (releaseReport reason c) = [] := by cases reason <;> rfl
  have hreleased : (w.release reason c).state.group g
      = (((w.dropped c).leaveSlot c.source).leaveSlot c.destination).state.group g := by
    rw [Work.release_eq]
    rfl
  rw [Work.leaveSlot_leaves] at hgroup'
  refine ⟨?_, ?_⟩
  · rw [hreleased, hgroup', hgroup, Group.fallenBy_fallenBy, Work.dropped_group]
  · rw [hreleased, hgroup', hgroup, Work.dropped_group, ← congestionReport_fallenBy]
    rw [hgroup', hgroup, Work.dropped_group] at hevents'
    rw [hgroup, Work.dropped_group, Work.dropped_events] at hevents
    simp only [Work.release_eq, congestionsOf_append, hquiet, List.append_nil, hevents', hevents,
      List.append_assoc]

/-- A release reports itself, and raises CONGESTION beside that at most. -/
theorem Work.release_besideCongestion (reason : Option ReleaseReason) (w : Work) (c : Connection) :
    besideCongestion (w.release reason c).events
      = besideCongestion w.events ++ releaseReport reason c := by
  have hreport : besideCongestion (releaseReport reason c) = releaseReport reason c := by
    cases reason <;> rfl
  simp only [Work.release_eq, besideCongestion_append, Work.leaveSlot_besideCongestion, hreport,
    Work.dropped_events]

end Sys2Proof.Machine
end

section
/-! SUPPORT. The release of the records of one selection: what becomes of the tables, the busy counts by
counting the slots that no record names any more, and the events (R148 to R154). -/

namespace Sys2Proof.Machine

/-! ### Counting the slots that are left (R116, R151) -/

/-- How many slots of a group some record names now, and none of the records that stand after. -/
def State.slotsLeft (s : State) (after : List Connection) (g : Nat) : Nat :=
  (List.range 64).countP fun n =>
    (s.slot n).group == g && s.named (96 + n) && !(after.any fun c => c.names (96 + n))

/-- The slots that a selection frees are those that the records outside it leave. -/
theorem State.slotsFreed_eq_slotsLeft (s : State) (gone : Connection → Bool) (g : Nat) :
    s.slotsFreed gone g = s.slotsLeft (s.connections.filter fun c => !gone c) g := by
  unfold State.slotsFreed State.slotsLeft
  congr 1
  funext n
  rw [List.any_filter, List.not_any_eq_all_not]
  congr 2
  funext c
  cases gone c <;> cases c.names (96 + n) <;> rfl

/-- Two predicates of which a third is the disjoint union are counted together. -/
theorem countP_add_of_disjoint {p q r : Nat → Bool} {ns : List Nat}
    (h : ∀ n ∈ ns, (p n).toNat + (q n).toNat = (r n).toNat) :
    ns.countP p + ns.countP q = ns.countP r := by
  have hcount : ∀ (f : Nat → Bool) (n : Nat) (ms : List Nat),
      (n :: ms).countP f = ms.countP f + (f n).toNat := fun f n ms => by
    rw [List.countP_cons]
    cases f n <;> rfl
  induction ns with
  | nil => rfl
  | cons n ns ih =>
    have hn := h n (by simp)
    have ih := ih fun m hm => h m (by simp [hm])
    rw [hcount, hcount, hcount]
    omega

/-- The slots that are left in two stages. -/
theorem State.slotsLeft_add {s t : State} (hslot : ∀ n, t.slot n = s.slot n)
    (hsub : ∀ c ∈ t.connections, c ∈ s.connections) {after : List Connection}
    (hafter : ∀ c ∈ after, c ∈ t.connections) (g : Nat) :
    s.slotsLeft t.connections g + t.slotsLeft after g = s.slotsLeft after g := by
  refine countP_add_of_disjoint fun n _ => ?_
  have hts : t.named (96 + n) = true → s.named (96 + n) = true := fun h => by
    obtain ⟨c, hc, hn⟩ := List.any_eq_true.1 h
    exact List.any_eq_true.2 ⟨c, hsub c hc, hn⟩
  have hat : after.any (fun c => c.names (96 + n)) = true → t.named (96 + n) = true := fun h => by
    obtain ⟨c, hc, hn⟩ := List.any_eq_true.1 h
    exact List.any_eq_true.2 ⟨c, hafter c hc, hn⟩
  have ht : t.connections.any (fun c => c.names (96 + n)) = t.named (96 + n) := rfl
  rw [hslot, ht]
  revert hts hat
  cases (s.slot n).group == g <;> cases s.named (96 + n) <;> cases t.named (96 + n) <;>
    cases after.any (fun c => c.names (96 + n)) <;> simp

/-- One endpoint is one slot at most. -/
theorem countP_slot_of_endpoint {e : Nat} {leaves : Bool} (h : leaves = true → isTrunk e = true) :
    (List.range 64).countP (fun n => e == 96 + n && leaves) = (if leaves then 1 else 0) := by
  cases leaves with
  | false => simp
  | true =>
    have hrange : 96 ≤ e ∧ e < 160 := by simpa [isTrunk] using h rfl
    have hpred : (fun n => e == 96 + n && true) = (fun n => n == e - 96) := by
      funext n
      rw [Bool.eq_iff_iff]
      simp only [Bool.and_true, beq_iff_eq]
      omega
    rw [hpred, if_pos rfl]
    exact List.count_eq_one_of_mem List.nodup_range (List.mem_range.2 (by omega))

/-- In a table whose ids rise, a record is known by its id. -/
theorem eq_of_id_eq {cs : List Connection} (h : cs.Pairwise fun c d => c.id < d.id)
    {c d : Connection} (hc : c ∈ cs) (hd : d ∈ cs) (hid : c.id = d.id) : c = d :=
  List.inj_on_of_nodup_map (List.pairwise_map.2 (h.imp Nat.ne_of_lt)) hc hd hid

/-- The slots that one release leaves are those of its two endpoints. -/
theorem Work.slotsLeft_dropped {w : Work} {c : Connection} (hc : c ∈ w.state.connections)
    (hids : w.state.connections.Pairwise fun c d => c.id < d.id) (hne : c.source ≠ c.destination)
    (g : Nat) :
    w.state.slotsLeft (w.dropped c).state.connections g =
      (if (w.dropped c).state.leaves c.source g then 1 else 0)
        + if (w.dropped c).state.leaves c.destination g then 1 else 0 := by
  have htrunk : ∀ e, (w.dropped c).state.leaves e g = true → isTrunk e = true := fun e h => by
    simp only [State.leaves, Bool.and_eq_true] at h
    exact h.1.1
  rw [← countP_slot_of_endpoint (htrunk c.source), ← countP_slot_of_endpoint (htrunk c.destination)]
  symm
  refine countP_add_of_disjoint fun n hn => ?_
  have hlt : n < 64 := List.mem_range.1 hn
  have hnamed : w.state.named (96 + n)
      = (c.names (96 + n) || (w.dropped c).state.named (96 + n)) := by
    rw [Bool.eq_iff_iff, Bool.or_eq_true]
    simp only [State.named, List.any_eq_true, Work.dropped_connections, List.mem_filter,
      bne_iff_ne, ne_eq]
    constructor
    · rintro ⟨d, hd, hdn⟩
      by_cases hid : d.id = c.id
      · exact .inl (eq_of_id_eq hids hd hc hid ▸ hdn)
      · exact .inr ⟨d, ⟨hd, hid⟩, hdn⟩
    · rintro (hcn | ⟨d, ⟨hd, -⟩, hdn⟩)
      · exact ⟨c, hc, hcn⟩
      · exact ⟨d, hd, hdn⟩
  have hleaves : ∀ e, e = 96 + n → (w.dropped c).state.leaves e g
      = ((w.state.slot n).group == g && !(w.dropped c).state.named (96 + n)) := fun e he => by
    have : isTrunk e = true := by simp [isTrunk, he]; omega
    rw [State.leaves, this, Work.dropped_slot, he, slotOf, Nat.add_sub_cancel_left, Bool.true_and,
      Bool.and_comm]
  have hdropped : (w.dropped c).state.connections.any (fun d => d.names (96 + n))
      = (w.dropped c).state.named (96 + n) := rfl
  rw [hnamed, hdropped, Connection.names]
  by_cases hs : c.source = 96 + n
  · have hd : c.destination ≠ 96 + n := fun h => hne (hs.trans h.symm)
    rw [hleaves _ hs]
    simp only [hs, beq_self_eq_true, Bool.true_and, beq_eq_false_iff_ne.2 hd, Bool.false_and,
      Bool.toNat_false, Nat.add_zero, Bool.true_or, Bool.and_true]
  · simp only [beq_eq_false_iff_ne.2 hs, Bool.false_and, Bool.toNat_false, Nat.zero_add,
      Bool.false_or]
    by_cases hd : c.destination = 96 + n
    · rw [hleaves _ hd]
      simp only [hd, beq_self_eq_true, Bool.true_and, Bool.true_or, Bool.and_true]
    · simp only [beq_eq_false_iff_ne.2 hd, Bool.false_and, Bool.toNat_false, Bool.false_or]
      cases (w.dropped c).state.named (96 + n) <;> simp

/-! ### The releases of a list of records (R148, R154) -/

/-- The legs after the releases of a list of records (R150). -/
theorem Work.foldl_release_leg (reason : Option ReleaseReason) (cs : List Connection) (w : Work)
    (n : Nat) :
    (cs.foldl (Work.release reason) w).state.leg n =
      if cs.any (fun c => (c.privacy.map (·.leg)) == some n) then none else w.state.leg n := by
  induction cs generalizing w with
  | nil => rfl
  | cons c cs ih =>
    rw [List.foldl_cons, ih, Work.release_leg, List.any_cons]
    cases c.privacy.map (·.leg) == some n <;> simp

/-- The key contexts after the releases of a list of records (R150). -/
theorem Work.foldl_release_key (reason : Option ReleaseReason) (cs : List Connection) (w : Work)
    (k : Nat) :
    (cs.foldl (Work.release reason) w).state.key k =
      { w.state.key k with
        useCount := (w.state.key k).useCount
          - cs.countP fun c => (c.privacy.map (·.key)) == some k } := by
  induction cs generalizing w with
  | nil => rfl
  | cons c cs ih =>
    rw [List.foldl_cons, ih, Work.release_key, List.countP_cons, Nat.sub_sub, Nat.add_comm]

theorem Watch.afterReleases_cons (id : Nat) (ids : Nat → Bool) (v : Watch) :
    (v.connectionReleased id).afterReleases ids = v.afterReleases fun i => i == id || ids i := by
  cases v with
  | idle => rfl
  | armed => rfl
  | tripped identity request hold t =>
    simp only [Watch.connectionReleased]
    cases hr : t.releasedSince <;> by_cases hi : t.connectionId = id <;>
      simp [Watch.afterReleases, hi, hr]

theorem Watch.afterReleases_none (v : Watch) : (v.afterReleases fun _ => false) = v := by
  cases v <;> simp [Watch.afterReleases]

/-- The watches after the releases of a list of records (R152). -/
theorem Work.foldl_release_watches (reason : Option ReleaseReason) (cs : List Connection)
    (w : Work) :
    (cs.foldl (Work.release reason) w).state.watches =
      w.state.watches.map (Watch.afterReleases fun id => cs.any fun c => c.id == id) := by
  induction cs generalizing w with
  | nil =>
    have hid : (Watch.afterReleases fun _ => false) = id := funext Watch.afterReleases_none
    simp [hid]
  | cons c cs ih =>
    rw [List.foldl_cons, ih, Work.release_watches, Vector.map_map]
    congr 1
    funext v
    simp only [Function.comp_apply, Watch.afterReleases_cons, List.any_cons]
    congr 1
    funext i
    rw [Bool.beq_comm]

/-- The reports of the releases of a list of records (R153). -/
theorem Work.foldl_release_besideCongestion (reason : Option ReleaseReason) (cs : List Connection)
    (w : Work) :
    besideCongestion (cs.foldl (Work.release reason) w).events
      = besideCongestion w.events ++ cs.flatMap (releaseReport reason) := by
  induction cs generalizing w with
  | nil => simp
  | cons c cs ih =>
    rw [List.foldl_cons, ih, Work.release_besideCongestion, List.flatMap_cons, List.append_assoc]

/-- The groups after the releases of a list of records of the table, and their CONGESTION events: each
busy count falls by the slots that are left (R151). -/
theorem Work.foldl_release_group (reason : Option ReleaseReason) (cs : List Connection) {w : Work}
    (h : SettledGroups w.state) (hids : w.state.connections.Pairwise fun c d => c.id < d.id)
    (hne : ∀ c ∈ w.state.connections, c.source ≠ c.destination)
    (hcs : cs.Pairwise fun c d => c.id < d.id) (hmem : ∀ c ∈ cs, c ∈ w.state.connections)
    (g : Nat) :
    (cs.foldl (Work.release reason) w).state.group g = (w.state.group g).fallenBy
        (w.state.slotsLeft (cs.foldl (Work.release reason) w).state.connections g)
      ∧ congestionsOf g (cs.foldl (Work.release reason) w).events = congestionsOf g w.events
          ++ congestionReport g (w.state.group g)
            ((cs.foldl (Work.release reason) w).state.group g) := by
  induction cs generalizing w with
  | nil =>
    have hnone : w.state.slotsLeft w.state.connections g = 0 := by
      simp only [State.slotsLeft, List.countP_eq_zero, State.named]
      intro n _
      cases w.state.connections.any (fun c => c.names (96 + n)) <;> simp
    simp [hnone, (h.2 g).fallenBy_zero, congestionReport]
  | cons c cs ih =>
    obtain ⟨hfirst, hcs'⟩ := List.pairwise_cons.1 hcs
    have hc : c ∈ w.state.connections := hmem c (by simp)
    obtain ⟨hgroup, hevents⟩ := Work.release_group reason h c g
    have hconn := Work.release_connections reason w c
    have hsub : ∀ d ∈ (w.release reason c).state.connections, d ∈ w.state.connections := fun d hd =>
      (List.mem_filter.1 (hconn ▸ hd)).1
    have hslot := (w.release_onlyCalls reason c).slot
    have hsettled : SettledGroups (w.release reason c).state :=
      ⟨fun n => by rw [hslot]; exact h.1 n,
        fun k => by rw [(Work.release_group reason h c k).1]; exact (h.2 k).fallenBy _⟩
    obtain ⟨hgroup', hevents'⟩ := ih hsettled (hconn ▸ hids.filter _) (fun d hd => hne d (hsub d hd))
      hcs' fun d hd => by
        rw [hconn]
        exact List.mem_filter.2 ⟨hmem d (by simp [hd]), by simpa using (hfirst d hd).ne'⟩
    have hafter : ∀ d ∈ (cs.foldl (Work.release reason) (w.release reason c)).state.connections,
        d ∈ (w.release reason c).state.connections := fun d hd =>
      (List.mem_filter.1 (Work.foldl_release_connections reason cs _ ▸ hd)).1
    rw [← Work.slotsLeft_dropped hc hids (hne c hc), Work.dropped_connections, ← hconn] at hgroup
    rw [List.foldl_cons]
    refine ⟨?_, ?_⟩
    · rw [hgroup', hgroup, Group.fallenBy_fallenBy, State.slotsLeft_add hslot hsub hafter]
    · rw [hevents', hevents, List.append_assoc, hgroup', hgroup, congestionReport_fallenBy]

/-! ### The releases of one selection (R154) -/

/-- No record joins an endpoint to itself (R88). -/
theorem TableLaw.source_ne_destination {s : State} (h : TableLaw s) :
    ∀ c ∈ s.connections, c.source ≠ c.destination := fun c hc => by
  obtain ⟨-, -, hrecords⟩ := h
  obtain ⟨-, -, -, hne⟩ := hrecords c hc
  exact hne

/-- What a selection of releases makes of the tables: `Releases` is its effect. -/
theorem Work.releaseWhere_releases {w : Work} (reason : Option ReleaseReason)
    (gone : Connection → Bool) (ht : TableLaw w.state) :
    Releases w.state (w.releaseWhere reason gone).state gone := by
  have hne := ht.source_ne_destination
  obtain ⟨hids, -, -⟩ := ht
  have hconn := w.releaseWhere_connections reason gone hids
  refine ⟨hconn, fun n => ?_, fun k => ?_, ?_, fun hg hc g => ?_⟩
  · unfold Work.releaseWhere
    rw [Work.foldl_release_leg, List.any_filter]
  · unfold Work.releaseWhere
    rw [Work.foldl_release_key, List.countP_filter]
    simp only [Bool.and_comm]
  · unfold Work.releaseWhere
    rw [Work.foldl_release_watches]
    simp only [List.any_filter]
  · rw [State.slotsFreed_eq_slotsLeft, ← hconn]
    exact (Work.foldl_release_group reason _ (hg.settledGroups hc) hids
      hne (hids.filter _)
      (fun c hm => (List.mem_filter.1 hm).1) g).1

/-- The CONGESTION events of a selection of releases (R123). -/
theorem Work.releaseWhere_congestionsOf {w : Work} (reason : Option ReleaseReason)
    (gone : Connection → Bool) (ht : TableLaw w.state) (hg : GroupLaw w.state)
    (hc : CongestionLaw w.state) (g : Nat) :
    congestionsOf g (w.releaseWhere reason gone).events = congestionsOf g w.events
      ++ congestionReport g (w.state.group g) ((w.releaseWhere reason gone).state.group g) := by
  have hne := ht.source_ne_destination
  obtain ⟨hids, -, -⟩ := ht
  exact (Work.foldl_release_group reason _ (hg.settledGroups hc) hids
    hne (hids.filter _)
    (fun c hm => (List.mem_filter.1 hm).1) g).2

/-- The other events of a selection of releases: its reports, in ascending id (R153, R154). -/
theorem Work.releaseWhere_besideCongestion (w : Work) (reason : Option ReleaseReason)
    (gone : Connection → Bool) :
    besideCongestion (w.releaseWhere reason gone).events = besideCongestion w.events
      ++ (w.state.connections.filter gone).flatMap (releaseReport reason) :=
  w.foldl_release_besideCongestion reason _

end Sys2Proof.Machine
end

section
/-! SUPPORT. The call-keeping restart: O42 (R1, R16, R53, R109, R126, R127, R147, R169, R170, R173,
R175). -/

namespace Sys2Proof.Machine

/-! ### Posting during a restart (R11) -/

/-- During RESTARTING posting leaves nothing but the missed-events flags of the ports it is bound for. -/
theorem State.postAll_missed {s : State} (hr : s.restart ≠ none) (es : List Event) (p : Port) :
    ((s.postAll es).port p).missed = true ↔
      (s.port p).missed = true ∨ ∃ e ∈ es, p ∈ destinations e := by
  unfold State.postAll
  induction es generalizing s with
  | nil => simp
  | cons e es ih =>
    rw [List.foldl_cons, ih (by rwa [State.post_restart]), State.post_port]
    by_cases h : p ∈ destinations e <;> simp [h, PortState.posted, hr]

/-- An event that is no other than a CONGESTION event goes to Ports A and B (R10). -/
theorem congestion_of_besideCongestion_nil {es : List Event} (h : besideCongestion es = [])
    {e : Event} (he : e ∈ es) : ∃ k c n, e = .congestion k c n := by
  have hno := List.filter_eq_nil_iff.1 h e he
  cases e with
  | congestion k c n => exact ⟨k, c, n, rfl⟩
  | _ => exact absurd rfl hno

theorem exists_congestionsOf_ne_nil {es : List Event} (h : besideCongestion es = []) :
    es ≠ [] ↔ ∃ g, congestionsOf g es ≠ [] := by
  constructor
  · intro hne
    obtain ⟨e, he⟩ := List.exists_mem_of_ne_nil es hne
    obtain ⟨k, c, n, rfl⟩ := congestion_of_besideCongestion_nil h he
    exact ⟨k, List.ne_nil_of_mem (List.mem_filter.2 ⟨he, by simp⟩)⟩
  · rintro ⟨g, hg⟩ rfl
    exact hg rfl

/-- A fall of the busy count is reported when it leaves the group CLEAR. -/
theorem congestionReport_fallenBy_ne_nil (k : Nat) (g : Group) (n : Nat) :
    congestionReport k g (g.fallenBy n) ≠ [] ↔
      g.congested = true ∧ (g.fallenBy n).congested = false := by
  unfold congestionReport Group.fallenBy
  cases g.congested <;> cases decide (g.abatement < g.busy - n) <;> simp

/-! ### The release of the PENDING records (R109) -/

/-- The work that discards the PENDING records at the start of a call-keeping restart. -/
def State.keepWork (s : State) (cause : RestartCause) : Work :=
  (Work.start (s.keepTables cause)).releaseWhere none fun c => !c.live

theorem State.startKeep_eq (s : State) (cause : RestartCause) :
    s.startKeep cause = (s.keepWork cause).state.postAll (s.keepWork cause).events := rfl

theorem State.keepWork_onlyCalls (s : State) (cause : RestartCause) :
    OnlyCalls (s.keepTables cause) (s.keepWork cause).state :=
  Work.releaseWhere_onlyCalls (Work.start (s.keepTables cause)) none _

/-- The records that are discarded are not reported: CONGESTION alone is raised (R109, R153). -/
theorem State.keepWork_besideCongestion (s : State) (cause : RestartCause) :
    besideCongestion (s.keepWork cause).events = [] := by
  rw [State.keepWork, Work.releaseWhere_besideCongestion]
  exact List.flatMap_eq_nil_iff.2 fun _ _ => rfl

/-- Without a PENDING record there is nothing to discard. -/
theorem State.exists_pending_of_keepWork_events {s : State} {cause : RestartCause}
    (h : (s.keepWork cause).events ≠ []) : ∃ c ∈ s.connections, c.live = false := by
  by_contra hno
  push Not at hno
  have hnone : s.connections.filter (fun c => !c.live) = [] :=
    List.filter_eq_nil_iff.2 fun c hc => by simp [Bool.eq_true_of_not_eq_false (hno c hc)]
  have hconn : (Work.start (s.keepTables cause)).state.connections = s.connections := rfl
  refine h ?_
  rw [State.keepWork, Work.releaseWhere, hconn, hnone]
  rfl

/-- What a call-keeping restart makes of the tables of calls (R109, R127, R147, R126). -/
theorem State.startKeep_releases {s : State} (ht : TableLaw s) (cause : RestartCause) :
    Releases s (s.startKeep cause) fun c => !c.live := by
  have hwork : Releases s (s.keepWork cause).state fun c => !c.live :=
    Work.releaseWhere_releases (w := Work.start (s.keepTables cause)) none _ ht
  obtain ⟨hconn, hleg, hkey, hwatch, hgroup⟩ := hwork
  rw [State.startKeep_eq]
  exact ⟨by simpa using hconn, by simpa using hleg, by simpa using hkey, by simpa using hwatch,
    by simpa using hgroup⟩

/-- The flags a call-keeping restart leaves: set where a CONGESTION event was lost (R11). -/
theorem State.startKeep_missed (s : State) (cause : RestartCause) (q : Port) :
    ((s.startKeep cause).port q).missed = true ↔ q ≠ .m ∧ (s.keepWork cause).events ≠ [] := by
  have hbeside := s.keepWork_besideCongestion cause
  have hport : (s.keepWork cause).state.port q = (s.keepTables cause).port q := by
    rw [s.keepWork_onlyCalls cause]
    rfl
  have hrestart : (s.keepWork cause).state.restart ≠ none := by
    rw [s.keepWork_onlyCalls cause]
    nofun
  rw [State.startKeep_eq, State.postAll_missed hrestart, hport, State.keepTables_port]
  have hdest : ∀ e ∈ (s.keepWork cause).events, q ∈ destinations e ↔ q ≠ .m := fun e he => by
    obtain ⟨k, c, n, rfl⟩ := congestion_of_besideCongestion_nil hbeside he
    cases q <;> simp [destinations]
  simp only [restartPort, Bool.false_eq_true, false_or]
  constructor
  · rintro ⟨e, he, hq⟩
    exact ⟨(hdest e he).1 hq, List.ne_nil_of_mem he⟩
  · rintro ⟨hq, hne⟩
    obtain ⟨e, he⟩ := List.exists_mem_of_ne_nil _ hne
    exact ⟨e, he, (hdest e he).2 hq⟩

/-- A CONGESTION event is lost exactly when a group falls CLEAR (R122, R123). -/
theorem State.keepWork_events_ne_nil {s : State} (ht : TableLaw s) (hg : GroupLaw s)
    (hc : CongestionLaw s) (cause : RestartCause) :
    (s.keepWork cause).events ≠ [] ↔
      ∃ g, (s.group g).congested = true ∧ ((s.startKeep cause).group g).congested = false := by
  rw [exists_congestionsOf_ne_nil (s.keepWork_besideCongestion cause)]
  refine exists_congr fun g => ?_
  have hevents := Work.releaseWhere_congestionsOf (w := Work.start (s.keepTables cause)) none
    (fun c => !c.live) ht hg hc g
  obtain ⟨-, -, -, -, hgroups⟩ := State.startKeep_releases ht cause
  have hgroup := hgroups hg hc g
  have hposted : (s.startKeep cause).group g = (s.keepWork cause).state.group g := by
    rw [State.startKeep_eq, State.postAll_group]
  have hreport : congestionsOf g (s.keepWork cause).events
      = congestionReport g (s.group g) ((s.startKeep cause).group g) := by
    rw [hposted]
    exact hevents
  rw [hreport, hgroup]
  exact congestionReport_fallenBy_ne_nil g _ _

/-! ### What the laws say of the LIVE records -/

/-- No two records share a leg (R133). -/
theorem PrivacyLaw.leg_ne {s : State} (h : PrivacyLaw s) {c d : Connection}
    (hc : c ∈ s.connections) (hd : d ∈ s.connections) (hne : c ≠ d) {part part' : PrivacyPart}
    (hpart : c.privacy = some part) (hpart' : d.privacy = some part') : part.leg ≠ part'.leg := by
  have hsymm : Std.Symm fun c d : Connection =>
      ∀ part ∈ c.privacy, ∀ part' ∈ d.privacy, part.leg ≠ part'.leg :=
    ⟨fun _ _ h _ hm _ hm' => (h _ hm' _ hm).symm⟩
  obtain ⟨-, hlegs, -⟩ := h
  exact hlegs.forall hc hd hne part hpart part' hpart'

/-- The leg of a LIVE record is no PENDING record's, and stays (R128, R147). -/
theorem State.startKeep_leg_of_live {s : State} (ht : TableLaw s) (hp : PrivacyLaw s)
    (cause : RestartCause) {c : Connection} (hc : c ∈ s.connections) (hlive : c.live = true)
    {part : PrivacyPart} (hpart : c.privacy = some part) :
    (s.startKeep cause).leg part.leg = s.leg part.leg := by
  obtain ⟨-, hlegs, -⟩ := State.startKeep_releases ht cause
  rw [hlegs, if_neg]
  simp only [List.any_eq_true, Bool.and_eq_true, Bool.not_eq_true', beq_iff_eq,
    Option.map_eq_some_iff, not_exists, not_and]
  rintro d hd hpending part' hpart' hleg
  have hne : d ≠ c := fun h => by simp [h, hlive] at hpending
  exact hp.leg_ne hd hc hne hpart' hpart hleg

/-- No trace record that is not marked names a PENDING record: the watches stay (R160, R169). -/
theorem State.startKeep_watches {s : State} (ht : TableLaw s) (hw : WatchLaw s)
    (cause : RestartCause) : (s.startKeep cause).watches = s.watches := by
  obtain ⟨-, -, -, hwatches, -⟩ := State.startKeep_releases ht cause
  obtain ⟨-, htripped, -⟩ := hw
  rw [hwatches]
  ext1 n hn
  rw [Vector.getElem_map]
  have hwatch : s.watch n = s.watches[n] := by simp [State.watch, hn]
  cases hv : s.watches[n] with
  | idle => rfl
  | armed => rfl
  | tripped identity request hold t =>
    refine if_neg ?_
    rintro ⟨hgone, hsince⟩
    obtain ⟨c, hc, hid, hlive⟩ :=
      (htripped n t hold (by rw [hwatch, hv]; rfl)).2 hsince
    obtain ⟨d, hd, hdgone⟩ := List.any_eq_true.1 hgone
    obtain ⟨hpending, hdid⟩ : d.live = false ∧ d.id = t.connectionId := by simpa using hdgone
    rw [eq_of_id_eq ht.1 hd hc (hdid.trans hid.symm), hlive] at hpending
    cases hpending

/-! ### RESTART KEEP -/

theorem execRestartKeep_of_takes {s : State} {p : Port} {tag : Byte}
    (h : s.Takes p (queuedOrder 0x71 tag [])) (ha : s.HolderOrM p) :
    execRestartKeep s = .next (s.startKeep .orderKeep) := by
  have htaken : (s.taken p).startKeep .orderKeep = s.startKeep .orderKeep := by
    have htables : (s.taken p).keepTables .orderKeep = s.keepTables .orderKeep := by
      cases p <;> rfl
    rw [State.startKeep, htables, State.startKeep]
  rw [← htaken]
  exact takeOrder_own h rfl rfl rfl (authorityCheck_holderOrM ha)

/-- What a call-keeping restart leaves of a port's own fields: its mode, its cause set with the cause
recorded, and the bytes sent (R1, R175). -/
theorem State.startKeep_port (s : State) (cause : RestartCause) (q : Port) :
    ((s.startKeep cause).port q).mode = (s.port q).mode
      ∧ ((s.startKeep cause).port q).causes = recordCause cause (s.port q).causes
      ∧ ((s.startKeep cause).port q).sent = (s.port q).sent := by
  rw [(s.startKeep_onlyCallTables cause).1 q, State.keepTables_port]
  exact ⟨rfl, rfl, rfl⟩

theorem State.startKeep_station (s : State) (cause : RestartCause) (n : Nat) :
    (s.startKeep cause).station n = (s.station n).keptByRestart := by
  rw [← s.keepTables_station cause, (s.startKeep_onlyCallTables cause).2]
  rfl

theorem State.startKeep_line (s : State) (cause : RestartCause) {n : Nat} (hn : n < 48) :
    (s.startKeep cause).line n = { s.line n with lastSecond := true } := by
  rw [← s.keepTables_line cause hn, (s.startKeep_onlyCallTables cause).2]
  rfl

/-- All that a call-keeping restart can change. -/
theorem State.startKeep_frame (s : State) (cause : RestartCause) :
    s.startKeep cause = { s with
      portA := (s.startKeep cause).portA, portB := (s.startKeep cause).portB
      portM := (s.startKeep cause).portM, lastServed := .m, mastership := .vacant
      lines := (s.startKeep cause).lines, stations := (s.startKeep cause).stations
      connections := (s.startKeep cause).connections, legs := (s.startKeep cause).legs
      keys := (s.startKeep cause).keys, groups := (s.startKeep cause).groups
      watches := (s.startKeep cause).watches, restart := some .keep, restartSince := s.clock } := by
  have h := (s.startKeep_onlyCallTables cause).2
  have hlines := congrArg State.lines h
  have hstations := congrArg State.stations h
  refine h.trans ?_
  rw [hlines, hstations]
  rfl

/-- Settles O42: the tables of `keepTables`, the releases of the PENDING records, and the CONGESTION
events that are lost. -/
theorem keepRestartKeepsLiveRecordsAndAdmittedStations :
    Obligations.KeepRestartKeepsLiveRecordsAndAdmittedStations := by
  unfold Obligations.KeepRestartKeepsLiveRecordsAndAdmittedStations
  intro s p tag htakes hholder htable
  have hstart := s.startKeep_startsRestart .orderKeep
  refine ⟨s.startKeep .orderKeep, execRestartKeep_of_takes htakes hholder,
    State.startKeep_releases htable _, fun q => ?_, fun n => ?_, fun n hn => s.startKeep_line _ hn,
    s.startKeep_frame _, fun hg hc q => ?_, fun hp c hc hlive part hpart =>
      State.startKeep_leg_of_live htable hp _ hc hlive hpart,
    fun hw => State.startKeep_watches htable hw _⟩
  · obtain ⟨horders, hout, htransfer⟩ := hstart.2 q
    obtain ⟨hmode, hcauses, hsent⟩ := s.startKeep_port .orderKeep q
    refine ⟨horders, hout, hmode, hcauses, hsent, fun hmissed => ?_, htransfer⟩
    obtain ⟨hq, hevents⟩ := (s.startKeep_missed _ q).1 hmissed
    exact ⟨hq, State.exists_pending_of_keepWork_events hevents⟩
  · rw [State.startKeep_station]
    unfold Station.keptByRestart
    cases (s.station n).state <;> rfl
  · rw [State.startKeep_missed, State.keepWork_events_ne_nil htable hg hc]

end Sys2Proof.Machine
end

section
/-! SUPPORT. The mastership orders and the lapse timer: O11 to O14 (R17 to R25). -/

namespace Sys2Proof.Machine

/-! ### The answers of the mastership orders -/

/-- The take of an order that makes HELD(X) with a fresh lapse timer and is replied to with DONE
(R17, R18). -/
def State.doneHeld (s : State) (p : Port) (code tag : Byte) (x : Controller) : State :=
  s.done p code tag (1 :: controllerCode (some x) :: bytes2 s.lapseInterval)
    fun t => { t with mastership := .held x (s.clock + 1000 * s.lapseInterval) }

/-- The take of an order that makes NONE and is replied to with DONE (R21, R23). -/
def State.doneVacant (s : State) (p : Port) (code tag : Byte) : State :=
  s.done p code tag (0 :: 0 :: bytes2 s.lapseInterval) fun t => { t with mastership := .vacant }

/-- The lapse timer started at the take expires L after the take (R17). -/
theorem State.taken_holdMastership (s : State) (p : Port) (x : Controller) :
    (s.taken p).holdMastership x
      = { s.taken p with mastership := .held x (s.clock + 1000 * s.lapseInterval) } := by
  simp [State.holdMastership, State.after]

theorem masteryFields_held (s : State) (x : Controller) (expiry : Nat) :
    masteryFields { s with mastership := .held x expiry }
      = 1 :: controllerCode (some x) :: bytes2 s.lapseInterval := rfl

theorem masteryFields_vacant (s : State) :
    masteryFields { s with mastership := .vacant } = 0 :: 0 :: bytes2 s.lapseInterval := rfl

section answers

variable (s : State) (p : Port) (code tag : Byte) (params : List Byte)

/-- A mastership order that raises no event (R18, R20). -/
theorem State.replied_masteryDone_none (f : State → State) (former : Option Controller) :
    (s.taken p).replied p (queuedOrder code tag params) (masteryDone (f (s.taken p)) none former)
      = s.done p code tag (masteryFields (f (s.taken p))) f := rfl

/-- A mastership order that raises MASTERSHIP: the event follows the reply (R8, R25). -/
theorem State.replied_masteryDone_some (f : State → State) (cause : MasteryCause)
    (former : Option Controller) :
    (s.taken p).replied p (queuedOrder code tag params)
        (masteryDone (f (s.taken p)) (some cause) former)
      = (s.done p code tag (masteryFields (f (s.taken p))) f).post
          ((f (s.taken p)).mastershipEvent cause former) := rfl

theorem State.replied_held_none (x : Controller) (former : Option Controller) :
    (s.taken p).replied p (queuedOrder code tag params)
        (masteryDone ((s.taken p).holdMastership x) none former)
      = s.doneHeld p code tag x := by
  rw [State.taken_holdMastership, State.replied_masteryDone_none s p code tag params
    fun t => { t with mastership := .held x (s.clock + 1000 * s.lapseInterval) },
    masteryFields_held, State.taken_lapseInterval]
  rfl

theorem State.replied_held_some (x : Controller) (cause : MasteryCause)
    (former : Option Controller) :
    (s.taken p).replied p (queuedOrder code tag params)
        (masteryDone ((s.taken p).holdMastership x) (some cause) former)
      = (s.doneHeld p code tag x).post (.mastership .held (some x) cause former) := by
  rw [State.taken_holdMastership, State.replied_masteryDone_some s p code tag params
    fun t => { t with mastership := .held x (s.clock + 1000 * s.lapseInterval) },
    masteryFields_held, State.taken_lapseInterval]
  rfl

theorem State.replied_vacant_some (cause : MasteryCause) (former : Option Controller) :
    (s.taken p).replied p (queuedOrder code tag params)
        (masteryDone { s.taken p with mastership := .vacant } (some cause) former)
      = (s.doneVacant p code tag).post (.mastership .none none cause former) := by
  rw [State.replied_masteryDone_some s p code tag params fun t => { t with mastership := .vacant },
    masteryFields_vacant, State.taken_lapseInterval]
  rfl

end answers

/-! ### The orders of a controller (R18, R20, R23) -/

/-- An order without parameters from a controller's port passes the checks of R8, and its answer is
the row's own. -/
theorem takeOrder_byController {body : Controller → State → Answer} {s : State} {p : Port}
    {x : Controller} {code tag : Byte} (hp : controllerOf p = some x)
    (hl : lengthFits (queuedOrder code tag []) = true)
    (h : s.Takes p (queuedOrder code tag [])) :
    takeOrder (ofCode code) anyCodes .controller (fun p _ s => byController body p s) s
      = .next ((s.taken p).replied p (queuedOrder code tag []) (body x (s.taken p))) := by
  rw [takeOrder_own h (by simp [ofCode]) hl rfl (by simp [authorityCheck, hp])]
  simp [byController, hp]

/-- An order of a controller from Port M fails check 2 (R8, R9). -/
theorem takeOrder_byController_portM {body : Controller → State → Answer} {s : State}
    {code tag : Byte} (hl : lengthFits (queuedOrder code tag []) = true)
    (h : s.Takes .m (queuedOrder code tag [])) :
    takeOrder (ofCode code) anyCodes .controller (fun p _ s => byController body p s) s
      = .next (s.refusal .m code tag .notAllowed []) := by
  rw [takeOrder_mine h (by simp [ofCode])]
  simp [answerTo, hl, anyCodes, authorityCheck, controllerOf, State.replied_refuse]

theorem claimBy_vacant {s : State} (hm : s.mastership = .vacant) (x : Controller) :
    claimBy x s = masteryDone (s.holdMastership x) (some .claimed) none := by
  simp [claimBy, hm]

theorem claimBy_held {s : State} {y : Controller} {expiry : Nat}
    (hm : s.mastership = .held y expiry) (x : Controller) :
    claimBy x s = if y = x then masteryDone (s.holdMastership x) none none
      else .refuse .held [controllerCode (some y)] := by
  simp [claimBy, hm, eq_comm]

theorem claimBy_lapsed {s : State} {y : Controller} (hm : s.mastership = .lapsed y)
    (x : Controller) :
    claimBy x s = masteryDone (s.holdMastership x)
      (some (if y = x then .recovered else .takeover)) (some y) := by
  simp [claimBy, hm, eq_comm]

/-- Settles O11: `claimBy` by the state of the record, and the class of CLAIM (R9). -/
theorem claimIsDecidedByTheRecord : Obligations.ClaimIsDecidedByTheRecord := by
  unfold Obligations.ClaimIsDecidedByTheRecord
  refine ⟨fun s p x tag hp h => ?_, fun s tag h =>
    takeOrder_byController_portM (body := claimBy) rfl h⟩
  refine (takeOrder_byController (body := claimBy) hp rfl h).trans (congrArg _ ?_)
  have hstands := s.taken_mastership p
  cases hm : s.mastership with rw [hm] at hstands
  | vacant => rw [claimBy_vacant hstands, State.replied_held_some]; rfl
  | held y expiry =>
    rw [claimBy_held hstands]
    by_cases hy : y = x
    · simp only [if_pos hy, State.replied_held_none]; rfl
    · simp only [if_neg hy, State.replied_refuse]; rfl
  | lapsed y => rw [claimBy_lapsed hstands, State.replied_held_some]; rfl

theorem pulseBy_vacant {s : State} (hm : s.mastership = .vacant) (x : Controller) :
    pulseBy x s = .refuse .notHolder [] := by
  simp [pulseBy, hm]

theorem pulseBy_held {s : State} {y : Controller} {expiry : Nat}
    (hm : s.mastership = .held y expiry) (x : Controller) :
    pulseBy x s = if y = x then masteryDone (s.holdMastership x) none none
      else .refuse .notHolder [] := by
  simp [pulseBy, hm, eq_comm]

theorem pulseBy_lapsed {s : State} {y : Controller} (hm : s.mastership = .lapsed y)
    (x : Controller) :
    pulseBy x s = if y = x then masteryDone (s.holdMastership x) (some .recovered) (some y)
      else .refuse .notHolder [] := by
  simp [pulseBy, hm, eq_comm]

/-- PULSE by the state of the record (R20). -/
theorem execPulse_of_takes {s : State} {p : Port} {x : Controller} {tag : Byte}
    (hp : controllerOf p = some x) (h : s.Takes p (queuedOrder 0x02 tag [])) :
    exec .pulse s = .next (match s.mastership with
      | .vacant => s.refusal p 0x02 tag .notHolder []
      | .held y _ =>
        if y = x then s.doneHeld p 0x02 tag x else s.refusal p 0x02 tag .notHolder []
      | .lapsed y =>
        if y = x then
          (s.doneHeld p 0x02 tag x).post (.mastership .held (some x) .recovered (some x))
        else s.refusal p 0x02 tag .notHolder []) := by
  refine (takeOrder_byController (body := pulseBy) hp rfl h).trans (congrArg _ ?_)
  have hstands := s.taken_mastership p
  cases hm : s.mastership with rw [hm] at hstands
  | vacant => rw [pulseBy_vacant hstands]; rfl
  | held y expiry =>
    rw [pulseBy_held hstands]
    by_cases hy : y = x
    · simp only [if_pos hy, State.replied_held_none]
    · simp only [if_neg hy]; rfl
  | lapsed y =>
    rw [pulseBy_lapsed hstands]
    by_cases hy : y = x
    · subst hy; simp only [if_true, State.replied_held_some]
    · simp only [if_neg hy]; rfl

/-- YIELD by the state of the record (R23): only the holder, HELD or LAPSED, yields. -/
theorem execYield_of_takes {s : State} {p : Port} {x : Controller} {tag : Byte}
    (hp : controllerOf p = some x) (h : s.Takes p (queuedOrder 0x03 tag [])) :
    exec .yield s = .next (if s.mastership.holder = some x then
        (s.doneVacant p 0x03 tag).post (.mastership .none none .yielded (some x))
      else s.refusal p 0x03 tag .notHolder []) := by
  refine (takeOrder_byController (body := yieldBy) hp rfl h).trans (congrArg _ ?_)
  unfold yieldBy
  rw [State.taken_mastership]
  by_cases hx : s.mastership.holder = some x
  · simp only [if_pos hx, State.replied_vacant_some]
  · simp only [if_neg hx]; rfl

/-- Settles O12: `pulseBy` by the state of the record, `yieldBy` by its holder, and the class of
both (R9). -/
theorem pulseAndYieldAreDecidedByTheRecord : Obligations.PulseAndYieldAreDecidedByTheRecord := by
  unfold Obligations.PulseAndYieldAreDecidedByTheRecord
  refine ⟨fun s p x tag hp => ⟨fun h => execPulse_of_takes hp h, fun h => ?_⟩, fun s tag =>
    ⟨fun h => takeOrder_byController_portM (body := pulseBy) rfl h,
      fun h => takeOrder_byController_portM (body := yieldBy) rfl h⟩⟩
  rw [execYield_of_takes hp h]
  cases s.mastership with
  | vacant => rfl
  | held y expiry => simp only [Mastership.holder, Option.some.injEq]; rfl
  | lapsed y => simp only [Mastership.holder, Option.some.injEq]; rfl

/-! ### The orders of Port M, and LOOK MASTERSHIP (R21, R22, R24) -/

/-- The targets of ASSIGN by their codes (R21, R176). -/
theorem assignTargetOf_controllerCode (target : Option Controller) :
    assignTargetOf (controllerCode target) = some target := by
  rcases target with _ | _ | _ <;> rfl

/-- ASSIGN answers with its target, whatever the record is (R21). -/
theorem execAssign_of_takes {s : State} {tag : Byte} {target : Option Controller}
    (h : s.Takes .m (queuedOrder 0x04 tag [controllerCode target])) :
    exec .assign s = .next ((s.taken .m).replied .m (queuedOrder 0x04 tag [controllerCode target])
      (assignTo target (s.taken .m))) := by
  have hparam : assignTargetOf (paramByte [controllerCode target] 0) = some target :=
    assignTargetOf_controllerCode target
  refine (takeOrder_own (mine := ofCode 0x04) (authority := .portMOnly)
    (codesFit := fun params => (assignTargetOf (paramByte params 0)).isSome)
    (body := fun _ params s => assignTo ((assignTargetOf (paramByte params 0)).getD none) s)
    h rfl rfl (by simp [hparam]) rfl).trans (congrArg _ ?_)
  simp only [queuedOrder_params, hparam, Option.getD_some]

theorem execAssign_none {s : State} {tag : Byte} (h : s.Takes .m (queuedOrder 0x04 tag [0])) :
    exec .assign s = .next ((s.doneVacant .m 0x04 tag).post
      (.mastership .none none .assigned s.mastership.holder)) := by
  refine (execAssign_of_takes (target := none) h).trans (congrArg _ ?_)
  exact s.replied_vacant_some .m 0x04 tag _ .assigned _

theorem execAssign_some {s : State} {tag : Byte} {x : Controller}
    (h : s.Takes .m (queuedOrder 0x04 tag [controllerCode (some x)])) :
    exec .assign s = .next ((s.doneHeld .m 0x04 tag x).post
      (.mastership .held (some x) .assigned s.mastership.holder)) := by
  refine (execAssign_of_takes h).trans (congrArg _ ?_)
  exact s.replied_held_some .m 0x04 tag _ x .assigned _

/-- SET LAPSE stores the clamped interval, and the record with its timer stands (R15, R22). -/
theorem execSetLapse_of_takes {s : State} {tag hi lo : Byte}
    (h : s.Takes .m (queuedOrder 0x05 tag [hi, lo])) :
    exec .setLapse s = .next (s.done .m 0x05 tag
      (masteryStateCode s.mastership.state :: controllerCode s.mastership.holder
        :: bytes2 (max 64 (min 4096 (hi ++ lo : Word16).toNat)))
      fun t => { t with lapseInterval := max 64 (min 4096 (hi ++ lo : Word16).toNat) }) := by
  refine (takeOrder_own (mine := ofCode 0x05) (codesFit := anyCodes) (authority := .portMOnly)
    (body := fun _ params s =>
      masteryDone { s with lapseInterval := clampTo 64 4096 (param2 params 0) } none none)
    h rfl rfl rfl rfl).trans (congrArg _ ?_)
  have hclamp : clampTo 64 4096 (param2 [hi, lo] 0)
      = max 64 (min 4096 (hi ++ lo : Word16).toNat) :=
    congrArg (max 64) (Nat.min_comm _ _)
  simp only [queuedOrder_params, hclamp]
  rfl

/-- LOOK MASTERSHIP reports the record, L and the time that remains, and changes nothing (R24). -/
theorem execLookMastership_of_takes {s : State} {p : Port} {tag : Byte}
    (h : s.Takes p (queuedOrder 0x06 tag [])) :
    exec .lookMastership s = .next (s.done p 0x06 tag
      (masteryStateCode s.mastership.state :: controllerCode s.mastership.holder
        :: (bytes2 s.lapseInterval ++ bytes2 s.leaseRemaining)) fun t => t) := by
  refine (takeOrder_own (mine := ofCode 0x06) (codesFit := anyCodes) (authority := .anyPort)
    (body := fun _ _ s => .plain (masteryFields s ++ bytes2 s.leaseRemaining) s)
    h rfl rfl rfl rfl).trans (congrArg _ ?_)
  have hlease : (s.taken p).leaseRemaining = s.leaseRemaining := by simp [State.leaseRemaining]
  simp only [masteryFields, hlease, State.taken_mastership, State.taken_lapseInterval]
  rfl

/-- Settles O13: the three orders, the reports read by the state of the record. -/
theorem assignSetLapseAndLookMastershipComplete :
    Obligations.AssignSetLapseAndLookMastershipComplete := by
  unfold Obligations.AssignSetLapseAndLookMastershipComplete
  intro s tag hi lo holder stateCode
  have hholder : s.mastership.holder = holder := by
    simp only [holder]; cases s.mastership <;> rfl
  have hcode : masteryStateCode s.mastership.state = stateCode := by
    simp only [stateCode]; cases s.mastership <;> rfl
  rw [← hholder, ← hcode]
  refine ⟨execAssign_none, fun x => execAssign_some, execSetLapse_of_takes, fun p h => ?_⟩
  rw [execLookMastership_of_takes h]
  unfold State.leaseRemaining State.remaining
  cases s.mastership <;> rfl

/-! ### The lapse timer (R17) -/

/-- Settles O14: the record is HELD exactly while the timer runs. -/
theorem lapseTimerExpiryMakesTheHolderLapsed :
    Obligations.LapseTimerExpiryMakesTheHolderLapsed := by
  unfold Obligations.LapseTimerExpiryMakesTheHolderLapsed
  refine ⟨fun s x expiry hm => ?_, fun s hm => ?_⟩
  · change execLapseTimerExpiry s = _
    unfold execLapseTimerExpiry
    rw [hm]
    rfl
  · change execLapseTimerExpiry s = _
    unfold execLapseTimerExpiry
    obtain hm | ⟨x, hm⟩ := hm <;> rw [hm]

end Sys2Proof.Machine
end

section
/-! SUPPORT. What the commands of stations, lines, deadlines and frames make of the mastership
record: nothing, O15 (R28). Each operation commutes with a change of the record. -/

namespace Sys2Proof.Machine

/-- The state with another mastership record. -/
def State.withMastership (s : State) (m : Mastership) : State := { s with mastership := m }

/-- Work on a state with another mastership record. -/
def Work.withMastership (w : Work) (m : Mastership) : Work :=
  { w with state := w.state.withMastership m }

/-! ### The state's own operations

What is read does not show the record, and what is written leaves it. The proofs are `(rfl)` and not
`rfl`: the side goal of `Work.update_withMastership` asks `simp` for rewriting steps, and by `rfl`
lemmas it would only unfold. -/

section state

variable (s : State) (m : Mastership)

@[simp] theorem State.withMastership_port (p : Port) :
    (s.withMastership m).port p = s.port p := by cases p <;> rfl
@[simp] theorem State.withMastership_line (n : Nat) :
    (s.withMastership m).line n = s.line n := (rfl)
@[simp] theorem State.withMastership_station (n : Nat) :
    (s.withMastership m).station n = s.station n := (rfl)
@[simp] theorem State.withMastership_slot (n : Nat) :
    (s.withMastership m).slot n = s.slot n := (rfl)
@[simp] theorem State.withMastership_group (n : Nat) :
    (s.withMastership m).group n = s.group n := (rfl)
@[simp] theorem State.withMastership_key (n : Nat) :
    (s.withMastership m).key n = s.key n := (rfl)
@[simp] theorem State.withMastership_leg (n : Nat) :
    (s.withMastership m).leg n = s.leg n := (rfl)
@[simp] theorem State.withMastership_watch (n : Nat) :
    (s.withMastership m).watch n = s.watch n := (rfl)
@[simp] theorem State.withMastership_entry (identity : Nat) :
    (s.withMastership m).entry identity = s.entry identity := (rfl)
@[simp] theorem State.withMastership_muteCode :
    (s.withMastership m).muteCode = s.muteCode := (rfl)
@[simp] theorem State.withMastership_receivedSample (e : Nat) :
    (s.withMastership m).receivedSample e = s.receivedSample e := (rfl)
@[simp] theorem State.withMastership_restarting :
    (s.withMastership m).restarting = s.restarting := (rfl)
@[simp] theorem State.withMastership_named (e : Nat) :
    (s.withMastership m).named e = s.named e := (rfl)
@[simp] theorem State.withMastership_hears (n : Nat) :
    (s.withMastership m).hears n = s.hears n := (rfl)
@[simp] theorem State.withMastership_channelReady (n : Nat) :
    (s.withMastership m).channelReady n = s.channelReady n := (rfl)
@[simp] theorem State.withMastership_watchedEnd (identity : Nat) (c : Connection) :
    (s.withMastership m).watchedEnd identity c = s.watchedEnd identity c := (rfl)
@[simp] theorem State.withMastership_traceOf (role : TraceRole) (c : Connection) :
    (s.withMastership m).traceOf role c = s.traceOf role c := (rfl)
@[simp] theorem State.withMastership_admittedElsewhere (identity n : Nat) :
    (s.withMastership m).admittedElsewhere identity n = s.admittedElsewhere identity n := (rfl)

@[simp] theorem State.setPort_withMastership (p : Port) (v : PortState) :
    (s.withMastership m).setPort p v = (s.setPort p v).withMastership m := by cases p <;> rfl
@[simp] theorem State.setLine_withMastership (n : Nat) (v : LinePort) :
    (s.withMastership m).setLine n v = (s.setLine n v).withMastership m := (rfl)
@[simp] theorem State.setStation_withMastership (n : Nat) (v : Station) :
    (s.withMastership m).setStation n v = (s.setStation n v).withMastership m := (rfl)
@[simp] theorem State.setGroup_withMastership (n : Nat) (v : Group) :
    (s.withMastership m).setGroup n v = (s.setGroup n v).withMastership m := (rfl)
@[simp] theorem State.setLeg_withMastership (n : Nat) (v : Option Leg) :
    (s.withMastership m).setLeg n v = (s.setLeg n v).withMastership m := (rfl)
@[simp] theorem State.setWatch_withMastership (n : Nat) (v : Watch) :
    (s.withMastership m).setWatch n v = (s.setWatch n v).withMastership m := (rfl)
@[simp] theorem State.setOutgoing_withMastership (n : Nat) (v : Byte) :
    (s.withMastership m).setOutgoing n v = (s.setOutgoing n v).withMastership m := (rfl)
@[simp] theorem State.mapConnection_withMastership (id : Nat) (f : Connection → Connection) :
    (s.withMastership m).mapConnection id f = (s.mapConnection id f).withMastership m := (rfl)
@[simp] theorem State.dropConnection_withMastership (id : Nat) :
    (s.withMastership m).dropConnection id = (s.dropConnection id).withMastership m := (rfl)
@[simp] theorem State.endTrace_withMastership (id : Nat) :
    (s.withMastership m).endTrace id = (s.endTrace id).withMastership m := (rfl)
@[simp] theorem State.setStationState_withMastership (n : Nat) (v : StationState) :
    (s.withMastership m).setStationState n v = (s.setStationState n v).withMastership m := (rfl)
@[simp] theorem State.placeMessage_withMastership (n : Nat) (message : StationMessage) :
    (s.withMastership m).placeMessage n message
      = (s.placeMessage n message).withMastership m := (rfl)
@[simp] theorem State.emptySlot_withMastership (n : Nat) :
    (s.withMastership m).emptySlot n = (s.emptySlot n).withMastership m := (rfl)
@[simp] theorem State.reach_withMastership (instant : Nat) :
    (s.withMastership m).reach instant = (s.reach instant).withMastership m := (rfl)
@[simp] theorem State.openFrame_withMastership :
    (s.withMastership m).openFrame = s.openFrame.withMastership m := (rfl)

@[simp] theorem State.freeLeg_withMastership (c : Connection) :
    (s.withMastership m).freeLeg c = (s.freeLeg c).withMastership m := by
  unfold State.freeLeg
  cases c.privacy <;> rfl

@[simp] theorem State.startLeg_withMastership (c : Connection) :
    (s.withMastership m).startLeg c = (s.startLeg c).withMastership m := by
  unfold State.startLeg
  cases c.privacy with
  | none => rfl
  | some part =>
    simp only [State.withMastership_leg]
    cases s.leg part.leg <;> rfl

@[simp] theorem State.sendFrom_withMastership (n : Nat) (second : Bool) :
    (s.withMastership m).sendFrom n second = (s.sendFrom n second).withMastership m := by
  unfold State.sendFrom
  simp only [State.withMastership_station]
  cases (s.station (2 * n + if second = true then 1 else 0)).nextMessage <;> rfl

theorem State.postTo_withMastership (e : Event) (p : Port) :
    (s.withMastership m).postTo e p = (s.postTo e p).withMastership m := by
  unfold State.postTo State.loseEvent State.append
  simp only [State.withMastership_port, State.withMastership_restarting,
    State.setPort_withMastership]
  split <;> rfl

theorem State.post_withMastership (e : Event) :
    (s.withMastership m).post e = (s.post e).withMastership m :=
  List.foldl_hom (State.withMastership · m) fun t p => t.postTo_withMastership m e p

theorem State.postAll_withMastership (es : List Event) :
    (s.withMastership m).postAll es = (s.postAll es).withMastership m :=
  List.foldl_hom (State.withMastership · m) fun t e => t.post_withMastership m e

end state

/-! ### Work -/

section work

variable (w : Work) (m : Mastership)

@[simp] theorem Work.withMastership_state :
    (w.withMastership m).state = w.state.withMastership m := rfl

@[simp] theorem Work.start_withMastership (s : State) :
    Work.start (s.withMastership m) = (Work.start s).withMastership m := rfl

@[simp] theorem Work.finish_withMastership :
    (w.withMastership m).finish = w.finish.withMastership m :=
  w.state.postAll_withMastership m w.events

@[simp] theorem Work.raise_withMastership (e : Event) :
    (w.withMastership m).raise e = (w.raise e).withMastership m := rfl

/-- An update that ignores the record, done in work. -/
@[simp] theorem Work.update_withMastership {f : State → State}
    (hf : ∀ s : State, f (s.withMastership m) = (f s).withMastership m) :
    (w.withMastership m).update f = (w.update f).withMastership m := by
  unfold Work.update Work.withMastership
  rw [hf]

@[simp] theorem Work.withMastership_ite (c : Prop) [Decidable c] (v : Work) :
    (if c then v else w).withMastership m
      = if c then v.withMastership m else w.withMastership m :=
  apply_ite (Work.withMastership · m) c v w

@[simp] theorem Work.reevaluate_withMastership (g : Nat) :
    (w.withMastership m).reevaluate g = (w.reevaluate g).withMastership m := by
  simp [Work.reevaluate]

@[simp] theorem Work.recount_withMastership (g : Nat) (f : Nat → Nat) :
    (w.withMastership m).recount g f = (w.recount g f).withMastership m := by
  simp [Work.recount]

@[simp] theorem Work.leaveSlot_withMastership (e : Nat) :
    (w.withMastership m).leaveSlot e = (w.leaveSlot e).withMastership m := by
  simp [Work.leaveSlot]

@[simp] theorem Work.release_withMastership (reason : Option ReleaseReason) (c : Connection) :
    (w.withMastership m).release reason c = (w.release reason c).withMastership m := by
  cases reason <;> simp [Work.release]

@[simp] theorem Work.releaseWhere_withMastership (reason : Option ReleaseReason)
    (selects : Connection → Bool) :
    (w.withMastership m).releaseWhere reason selects
      = (w.releaseWhere reason selects).withMastership m :=
  List.foldl_hom (Work.withMastership · m) fun v c => v.release_withMastership m reason c

@[simp] theorem Work.withdraw_withMastership (reason : ReleaseReason) (n : Nat) :
    (w.withMastership m).withdraw reason n = (w.withdraw reason n).withMastership m := by
  cases hn : (w.state.station n).state <;> simp [Work.withdraw, hn]

/-! ### The line side (R49 to R51) -/

@[simp] theorem Work.clearPosition_withMastership (reason : ReleaseReason) (n : Nat) :
    (w.withMastership m).clearPosition reason n = (w.clearPosition reason n).withMastership m := by
  cases hn : (w.state.station n).state <;> simp [Work.clearPosition, hn]

@[simp] theorem Work.loseLink_withMastership (n : Nat) :
    (w.withMastership m).loseLink n = (w.loseLink n).withMastership m := by
  cases hn : (w.state.station n).state <;> simp [Work.loseLink, hn]

@[simp] theorem Work.reportLink_withMastership (n : Nat) (up : Bool) :
    (w.withMastership m).reportLink n up = (w.reportLink n up).withMastership m := by
  simp [Work.reportLink]

@[simp] theorem Work.disableForBabble_withMastership (n : Nat) :
    (w.withMastership m).disableForBabble n = (w.disableForBabble n).withMastership m := by
  simp [Work.disableForBabble]

/-! ### The messages of stations (R58 to R66) -/

@[simp] theorem Work.countFailure_withMastership (n identity : Nat) (reason : RefusalReason) :
    (w.withMastership m).countFailure n identity reason
      = (w.countFailure n identity reason).withMastership m := by
  unfold Work.countFailure
  dsimp only
  rw [Work.withMastership_ite]
  rfl

@[simp] theorem Work.issueChallenge_withMastership (n identity : Nat) (e : DirectoryEntry) :
    (w.withMastership m).issueChallenge n identity e
      = (w.issueChallenge n identity e).withMastership m := rfl

@[simp] theorem Work.judgeRegister_withMastership (n identity : Nat) :
    (w.withMastership m).judgeRegister n identity
      = (w.judgeRegister n identity).withMastership m := by
  cases he : w.state.entry identity <;> simp [Work.judgeRegister, he]

@[simp] theorem Work.takeRegister_withMastership (n identity : Nat) :
    (w.withMastership m).takeRegister n identity
      = (w.takeRegister n identity).withMastership m := by
  cases hn : (w.state.station n).state <;> simp [Work.takeRegister, hn]

@[simp] theorem Work.admitStation_withMastership (n identity : Nat) :
    (w.withMastership m).admitStation n identity
      = (w.admitStation n identity).withMastership m := by
  cases hf : w.state.admittedElsewhere identity n <;> simp [Work.admitStation, hf]

@[simp] theorem Work.takeAnswer_withMastership (n : Nat) (response : Word16) :
    (w.withMastership m).takeAnswer n response = (w.takeAnswer n response).withMastership m := by
  cases hn : (w.state.station n).state <;> simp [Work.takeAnswer, hn]

@[simp] theorem Work.takeLeave_withMastership (n : Nat) :
    (w.withMastership m).takeLeave n = (w.takeLeave n).withMastership m := by
  cases hn : (w.state.station n).state <;> simp [Work.takeLeave, hn]

/-! ### The frame start (R102 to R105) -/

@[simp] theorem Work.examine_withMastership (c : Connection) (n : Nat) :
    (w.withMastership m).examine c n = (w.examine c n).withMastership m := by
  cases hn : w.state.watch n with
  | idle | tripped => simp [Work.examine, hn]
  | armed identity request =>
    cases he : w.state.watchedEnd identity c <;> cases request <;> simp [Work.examine, hn, he]

@[simp] theorem Work.promote_withMastership (c : Connection) :
    (w.withMastership m).promote c = (w.promote c).withMastership m := by
  have hexamined : ∀ (v : Work) (ns : List Nat),
      ns.foldl (fun v n => v.examine c n) (v.withMastership m)
        = (ns.foldl (fun v n => v.examine c n) v).withMastership m := fun v ns =>
    List.foldl_hom (Work.withMastership · m) fun v n => v.examine_withMastership m c n
  simp [Work.promote, hexamined]

@[simp] theorem Work.promoteAll_withMastership :
    (w.withMastership m).promoteAll = w.promoteAll.withMastership m :=
  List.foldl_hom (Work.withMastership · m) fun v c => v.promote_withMastership m c

theorem Work.raiseAll_withMastership (es : List Event) :
    es.foldl Work.raise (w.withMastership m) = (es.foldl Work.raise w).withMastership m :=
  List.foldl_hom (Work.withMastership · m) fun v e => v.raise_withMastership m e

@[simp] theorem Work.carry_withMastership (c : Connection) :
    (w.withMastership m).carry c = (w.carry c).withMastership m := by
  cases hc : c.privacy with
  | none => simp [Work.carry, hc]
  | some part =>
    cases hl : w.state.leg part.leg <;> simp [Work.carry, hc, hl, Work.raiseAll_withMastership]

@[simp] theorem Work.carryAll_withMastership :
    (w.withMastership m).carryAll = w.carryAll.withMastership m :=
  List.foldl_hom (Work.withMastership · m) fun v c => v.carry_withMastership m c

end work

/-! ### The commands (R28) -/

/-- An outcome with another mastership record in its next state. -/
def outcomeWithMastership (m : Mastership) :
    Host.Outcome State Fault Refusal → Host.Outcome State Fault Refusal
  | .next t => .next (t.withMastership m)
  | .fault r => .fault r
  | .refused r => .refused r

@[simp] theorem outcomeWithMastership_next (m : Mastership) (t : State) :
    outcomeWithMastership m (.next t) = .next (t.withMastership m) := rfl

@[simp] theorem outcomeWithMastership_ite (m : Mastership) (c : Prop) [Decidable c]
    (x y : Host.Outcome State Fault Refusal) :
    outcomeWithMastership m (if c then x else y)
      = if c then outcomeWithMastership m x else outcomeWithMastership m y :=
  apply_ite _ c x y

section commands

variable (s : State) (m : Mastership)

theorem execRegister_withMastership (n : Fin 96) (identity : Word16) :
    execRegister n identity (s.withMastership m)
      = outcomeWithMastership m (execRegister n identity s) := by
  simp [execRegister]

theorem execAnswer_withMastership (n : Fin 96) (response : Word16) :
    execAnswer n response (s.withMastership m)
      = outcomeWithMastership m (execAnswer n response s) := by
  simp [execAnswer]

theorem execLeave_withMastership (n : Fin 96) :
    execLeave n (s.withMastership m) = outcomeWithMastership m (execLeave n s) := by
  simp [execLeave]

theorem execSignal_withMastership (n : Fin 96) (bytes : List Byte) :
    execSignal n bytes (s.withMastership m)
      = outcomeWithMastership m (execSignal n bytes s) := by
  cases hn : (s.station n).state <;> simp [execSignal, hn]

theorem execAnswerDeadlineExpiry_withMastership (n : Fin 96) :
    execAnswerDeadlineExpiry n (s.withMastership m)
      = outcomeWithMastership m (execAnswerDeadlineExpiry n s) := by
  cases hn : (s.station n).state <;> simp [execAnswerDeadlineExpiry, hn]

theorem execHoldOffExpiry_withMastership (n : Fin 96) :
    execHoldOffExpiry n (s.withMastership m)
      = outcomeWithMastership m (execHoldOffExpiry n s) := by
  cases hn : (s.station n).state <;> simp [execHoldOffExpiry, hn]

theorem execBabble_withMastership (n : Fin 48) :
    execBabble n (s.withMastership m) = outcomeWithMastership m (execBabble n s) := by
  simp [execBabble]

theorem execLinkUp_withMastership (n : Fin 48) :
    execLinkUp n (s.withMastership m) = outcomeWithMastership m (execLinkUp n s) := by
  simp [execLinkUp]

theorem execLinkDown_withMastership (n : Fin 48) :
    execLinkDown n (s.withMastership m) = outcomeWithMastership m (execLinkDown n s) := by
  simp [execLinkDown]

theorem execBeginSend_withMastership (n : Fin 48) :
    execBeginSend n (s.withMastership m) = outcomeWithMastership m (execBeginSend n s) := by
  cases hserved : servedSecond (s.line n) (s.station (2 * n)) (s.station (2 * n + 1)) <;>
    simp [execBeginSend, hserved]

theorem execFrameStart_withMastership :
    execFrameStart (s.withMastership m) = outcomeWithMastership m (execFrameStart s) := by
  simp [execFrameStart]

/-- A command of the call side does the same in every state of the mastership record (R28). -/
theorem exec_callSide_withMastership {i : Instr} (hi : IsCallSideCommand i) :
    exec i (s.withMastership m) = outcomeWithMastership m (exec i s) := by
  cases i
  case register n identity => exact execRegister_withMastership s m n identity
  case answer n response => exact execAnswer_withMastership s m n response
  case leave n => exact execLeave_withMastership s m n
  case signal n bytes => exact execSignal_withMastership s m n bytes
  case answerDeadlineExpiry n => exact execAnswerDeadlineExpiry_withMastership s m n
  case holdOffExpiry n => exact execHoldOffExpiry_withMastership s m n
  case babble n => exact execBabble_withMastership s m n
  case linkUp n => exact execLinkUp_withMastership s m n
  case linkDown n => exact execLinkDown_withMastership s m n
  case beginSend n => exact execBeginSend_withMastership s m n
  case frameStart => exact execFrameStart_withMastership s m
  case unfitStationMessage | sendCompletion | sampleArrival => rfl
  all_goals exact hi.elim

end commands

/-- Settles O15: a command that does the same under every record, does it under the record that
stands, so it leaves that record. -/
theorem callsAndStationsIgnoreMastership : Obligations.CallsAndStationsIgnoreMastership := by
  unfold Obligations.CallsAndStationsIgnoreMastership
  intro i hi s t m ht
  have hsame : ∀ m, exec i (s.withMastership m) = .next (t.withMastership m) := fun m => by
    rw [exec_callSide_withMastership s m hi, ht, outcomeWithMastership_next]
  have hstands : t = t.withMastership s.mastership :=
    Host.Outcome.next.inj (ht.symm.trans (hsame s.mastership))
  exact ⟨(congrArg State.mastership hstands).trans rfl, hsame m⟩

end Sys2Proof.Machine
end

section
/-! SUPPORT. What a change of the state does to the tables that the laws of the directory, of admission
and of the connection table read: the relation "the tables recede", and the operations that keep to it
(R39, R49 to R51, R53, R59, R65, R67, R88, R148). -/

namespace Sys2Proof.Machine

/-! ### The tables stand -/

/-- t has the directory, the precedence map, the line ports, the stations and the connection table of
s. -/
structure SameTables (s t : State) : Prop where
  directory : t.directory = s.directory
  precedenceMap : t.precedenceMap = s.precedenceMap
  lines : t.lines = s.lines
  stations : t.stations = s.stations
  connections : t.connections = s.connections

theorem OnlyPorts.sameTables {s t : State} (h : OnlyPorts s t) : SameTables s t := by
  unfold OnlyPorts at h
  rw [h]
  exact ⟨rfl, rfl, rfl, rfl, rfl⟩

theorem State.taken_sameTables (s : State) (p : Port) : SameTables s (s.taken p) := by
  rw [State.taken_eq]
  exact ⟨rfl, rfl, rfl, rfl, rfl⟩

theorem SameTables.station {s t : State} (h : SameTables s t) (n : Nat) :
    t.station n = s.station n := by
  unfold State.station
  rw [h.stations]

theorem SameTables.line {s t : State} (h : SameTables s t) (n : Nat) : t.line n = s.line n := by
  unfold State.line
  rw [h.lines]

theorem SameTables.classOf {s t : State} (h : SameTables s t) (n : Nat) :
    t.classOf n = s.classOf n := by
  unfold State.classOf
  rw [h.precedenceMap]

theorem SameTables.entry {s t : State} (h : SameTables s t) (identity : Nat) :
    t.entry identity = s.entry identity := by
  unfold State.entry
  rw [h.directory]

/-! ### Records leave the connection table -/

/-- What the laws of the connection table read of a record: id, source, destination and class. -/
def Connection.ends (c : Connection) : Nat × Nat × Nat × Nat :=
  (c.id, c.source, c.destination, c.cls)

/-- Records of s have left the table of t; those that stand keep their ids, endpoints and classes. -/
def TableShrinks (s t : State) : Prop :=
  (t.connections.map Connection.ends).Sublist (s.connections.map Connection.ends)

theorem TableShrinks.of_eq {s t : State} (h : t.connections = s.connections) : TableShrinks s t := by
  unfold TableShrinks
  rw [h]

theorem TableShrinks.trans {s t u : State} (h : TableShrinks s t) (h' : TableShrinks t u) :
    TableShrinks s u := List.Sublist.trans h' h

theorem TableShrinks.of_filter {s t : State} {f : Connection → Bool}
    (h : t.connections = s.connections.filter f) : TableShrinks s t := by
  unfold TableShrinks
  rw [h]
  exact List.filter_sublist.map _

/-- A change to a record that leaves its id, endpoints and class (R102, R163). -/
theorem State.mapConnection_shrinks (s : State) (id : Nat) {f : Connection → Connection}
    (hf : ∀ c, (f c).ends = c.ends) : TableShrinks s (s.mapConnection id f) := by
  have hends : (s.mapConnection id f).connections.map Connection.ends
      = s.connections.map Connection.ends := by
    simp only [State.mapConnection, List.map_map]
    refine List.map_congr_left fun c _ => ?_
    by_cases h : c.id = id <;> simp [h, hf]
  unfold TableShrinks
  rw [hends]

theorem Work.release_shrinks (r : Option ReleaseReason) (w : Work) (c : Connection) :
    TableShrinks w.state (w.release r c).state := .of_filter (w.release_connections r c)

theorem Work.releaseWhere_shrinks (w : Work) (r : Option ReleaseReason) (f : Connection → Bool) :
    TableShrinks w.state (w.releaseWhere r f).state :=
  .of_filter (w.foldl_release_connections r _)

/-! ### Stations leave the states that name an identity -/

theorem StationState.concerns_iff (state : StationState) (identity : Nat) :
    state.concerns identity ↔ state.identity = some identity := by
  cases state <;> simp [StationState.concerns, StationState.identity]

theorem StationState.admittedIdentity_eq_some (state : StationState) (identity : Nat) :
    state.admittedIdentity = some identity ↔ state = .admitted identity := by
  cases state <;> simp [StationState.admittedIdentity]

theorem StationState.challengedIdentity_of_identity {state : StationState} {identity : Nat}
    (h : state.identity = some identity) (hne : state ≠ .admitted identity) :
    state.challengedIdentity = some identity := by
  cases state <;> simp_all [StationState.identity, StationState.challengedIdentity]

/-- A station record keeps its state, or leaves it for one that names no identity; messages to deliver
may go, and go all where an ADMITTED station leaves (R53, R56, R67). -/
def Station.Recedes (old new : Station) : Prop :=
  new.deliver <:+ old.deliver
    ∧ (new.state = old.state
        ∨ new.state.identity = none ∧ (old.state.admittedIdentity = none ∨ new.deliver = []))

theorem Station.Recedes.refl (st : Station) : st.Recedes st := ⟨List.suffix_rfl, .inl rfl⟩

theorem Station.Recedes.trans {a b c : Station} (h : a.Recedes b) (h' : b.Recedes c) :
    a.Recedes c := by
  obtain ⟨hd, hs⟩ := h
  obtain ⟨hd', hs'⟩ := h'
  refine ⟨hd'.trans hd, ?_⟩
  rcases hs' with hsame' | ⟨hnone', hempty'⟩
  · rcases hs with hsame | ⟨hnone, hempty⟩
    · exact .inl (hsame'.trans hsame)
    · refine .inr ⟨hsame' ▸ hnone, hempty.imp_right fun he => ?_⟩
      rw [he] at hd'
      exact List.suffix_nil.1 hd'
  · rcases hs with hsame | ⟨hnone, hempty⟩
    · exact .inr ⟨hnone', hsame ▸ hempty'⟩
    · refine .inr ⟨hnone', hempty.imp_right fun he => ?_⟩
      rw [he] at hd'
      exact List.suffix_nil.1 hd'

/-- What a station record is named for when it has receded, it was named for before. -/
theorem Station.Recedes.identity {old new : Station} (h : old.Recedes new) {identity : Nat}
    (hi : new.state.identity = some identity) : new.state = old.state := by
  rcases h.2 with hsame | ⟨hnone, -⟩
  · exact hsame
  · rw [hnone] at hi; cases hi

theorem Station.withdrawn_recedes (st : Station) : st.Recedes st.withdrawn :=
  ⟨List.nil_suffix, .inr ⟨rfl, .inr rfl⟩⟩

theorem Station.cleared_recedes (st : Station) : st.Recedes st.cleared := by
  unfold Station.cleared
  split
  · exact ⟨List.nil_suffix, .inr ⟨rfl, .inr rfl⟩⟩
  · rename_i h
    exact ⟨List.suffix_rfl, .inr ⟨rfl, .inl (by rw [h]; rfl)⟩⟩
  · rename_i h
    exact ⟨List.suffix_rfl, .inr ⟨rfl, .inl (by rw [h]; rfl)⟩⟩
  · exact ⟨List.suffix_rfl, .inl rfl⟩
  · exact ⟨List.suffix_rfl, .inl rfl⟩

theorem Station.lost_recedes (st : Station) : st.Recedes st.lost := by
  unfold Station.lost
  split
  · exact ⟨List.nil_suffix, .inr ⟨rfl, .inr rfl⟩⟩
  · rename_i h
    exact ⟨List.suffix_rfl, .inr ⟨rfl, .inl (by rw [h]; rfl)⟩⟩
  all_goals exact ⟨List.suffix_rfl, .inl rfl⟩

theorem Station.keptByRestart_recedes (st : Station) : st.Recedes st.keptByRestart := by
  refine ⟨List.nil_suffix, ?_⟩
  cases h : st.state <;> simp [Station.keptByRestart, h, StationState.identity]

theorem Station.nextMessage_recedes {st rest : Station} {m : StationMessage}
    (h : st.nextMessage = some (m, rest)) : st.Recedes rest := by
  unfold Station.nextMessage at h
  split at h
  · obtain rfl := (Prod.mk.inj (Option.some.inj h)).2
    exact ⟨List.suffix_rfl, .inl rfl⟩
  · split at h
    · rename_i hd
      obtain rfl := (Prod.mk.inj (Option.some.inj h)).2
      exact ⟨hd ▸ List.suffix_cons _ _, .inl rfl⟩
    · cases h

/-! ### The tables recede -/

/-- From s to t the tables have receded: the directory, the precedence map and the settings of the line
ports stand, station records have kept or left their states, and records have left the connection
table. -/
structure Recedes (s t : State) : Prop where
  directory : t.directory = s.directory
  precedenceMap : t.precedenceMap = s.precedenceMap
  lines : ∀ n, (t.line n).condition = (s.line n).condition ∧ (t.line n).pairing = (s.line n).pairing
  stations : ∀ n, (s.station n).Recedes (t.station n)
  connections : TableShrinks s t

theorem SameTables.recedes {s t : State} (h : SameTables s t) : Recedes s t where
  directory := h.directory
  precedenceMap := h.precedenceMap
  lines n := by rw [h.line]; exact ⟨rfl, rfl⟩
  stations n := by rw [h.station]; exact .refl _
  connections := .of_eq h.connections

theorem Recedes.refl (s : State) : Recedes s s := SameTables.recedes ⟨rfl, rfl, rfl, rfl, rfl⟩

theorem Recedes.trans {s t u : State} (h : Recedes s t) (h' : Recedes t u) : Recedes s u where
  directory := h'.directory.trans h.directory
  precedenceMap := h'.precedenceMap.trans h.precedenceMap
  lines n := ⟨(h'.lines n).1.trans (h.lines n).1, (h'.lines n).2.trans (h.lines n).2⟩
  stations n := (h.stations n).trans (h'.stations n)
  connections := h.connections.trans h'.connections

/-- A station record that recedes. -/
theorem State.setStation_recedes (s : State) (n : Nat) {v : Station}
    (h : (s.station n).Recedes v) : Recedes s (s.setStation n v) where
  directory := rfl
  precedenceMap := rfl
  lines _ := ⟨rfl, rfl⟩
  stations m := by
    rw [State.station_setStation]
    split
    · rename_i hm; rw [hm.1]; exact h
    · exact .refl _
  connections := .of_eq rfl

/-- A line port whose settings stand. -/
theorem State.setLine_recedes (s : State) (n : Nat) {v : LinePort}
    (hc : v.condition = (s.line n).condition) (hp : v.pairing = (s.line n).pairing) :
    Recedes s (s.setLine n v) where
  directory := rfl
  precedenceMap := rfl
  lines m := by
    rw [State.line_setLine]
    split
    · rename_i hm; rw [hm.1]; exact ⟨hc, hp⟩
    · exact ⟨rfl, rfl⟩
  stations _ := .refl _
  connections := .of_eq rfl

/-- Work on the tables of calls alone, by which records leave the table. -/
theorem OnlyCalls.recedes {s t : State} (h : OnlyCalls s t) (hc : TableShrinks s t) :
    Recedes s t := by
  unfold OnlyCalls at h
  exact
    { directory := by rw [h]
      precedenceMap := by rw [h]
      lines := fun n => by rw [h]; exact ⟨rfl, rfl⟩
      stations := fun n => by rw [h]; exact .refl _
      connections := hc }

theorem State.mapConnection_recedes (s : State) (id : Nat) {f : Connection → Connection}
    (hf : ∀ c, (f c).ends = c.ends) : Recedes s (s.mapConnection id f) :=
  OnlyCalls.recedes rfl (s.mapConnection_shrinks id hf)

theorem Work.release_recedes (r : Option ReleaseReason) (w : Work) (c : Connection) :
    Recedes w.state (w.release r c).state := (w.release_onlyCalls r c).recedes (w.release_shrinks r c)

theorem Work.releaseWhere_recedes (w : Work) (r : Option ReleaseReason) (f : Connection → Bool) :
    Recedes w.state (w.releaseWhere r f).state :=
  (w.releaseWhere_onlyCalls r f).recedes (w.releaseWhere_shrinks r f)

/-- A withdrawal (R67). -/
theorem Work.withdraw_recedes (w : Work) (r : ReleaseReason) (n : Nat) :
    Recedes w.state (w.withdraw r n).state := by
  unfold Work.withdraw
  split
  · refine Recedes.trans ?_ (Work.releaseWhere_recedes _ _ _)
    exact w.state.setStation_recedes n (Station.withdrawn_recedes _)
  · exact .refl _

theorem State.placeMessage_recedes (s : State) (n : Nat) (m : StationMessage) :
    Recedes s (s.placeMessage n m) := s.setStation_recedes n ⟨List.suffix_rfl, .inl rfl⟩

theorem State.emptySlot_recedes (s : State) (n : Nat) : Recedes s (s.emptySlot n) :=
  s.setStation_recedes n ⟨List.suffix_rfl, .inl rfl⟩

/-- A station that is not ADMITTED leaves its state for one that names no identity. -/
theorem State.setStationState_recedes (s : State) (n : Nat) {state : StationState}
    (hold : (s.station n).state.admittedIdentity = none) (hnew : state.identity = none) :
    Recedes s (s.setStationState n state) :=
  s.setStation_recedes n ⟨List.suffix_rfl, .inr ⟨hnew, .inl hold⟩⟩

/-- The clearing of a position (R49). -/
theorem Work.clearPosition_recedes (w : Work) (r : ReleaseReason) (n : Nat) :
    Recedes w.state (w.clearPosition r n).state := by
  unfold Work.clearPosition
  refine Recedes.trans ?_ (State.emptySlot_recedes _ n)
  split
  · exact w.withdraw_recedes r n
  · rename_i h; exact w.state.setStationState_recedes n (by rw [h]; rfl) rfl
  · rename_i h; exact w.state.setStationState_recedes n (by rw [h]; rfl) rfl
  · exact .refl _
  · exact .refl _

theorem Work.clearPositions_recedes (w : Work) (r : ReleaseReason) (ns : List Nat) :
    Recedes w.state (ns.foldl (fun w n => w.clearPosition r n) w).state := by
  induction ns generalizing w with
  | nil => exact .refl _
  | cons n ns ih => exact (w.clearPosition_recedes r n).trans (ih _)

/-- The loss of the link at a position (R51). -/
theorem Work.loseLink_recedes (w : Work) (n : Nat) : Recedes w.state (w.loseLink n).state := by
  unfold Work.loseLink
  refine Recedes.trans ?_ (State.emptySlot_recedes _ n)
  split
  · exact w.withdraw_recedes _ n
  · rename_i h; exact w.state.setStationState_recedes n (by rw [h]; rfl) rfl
  all_goals exact .refl _

/-- A report of a link (R51). -/
theorem Work.reportLink_recedes (w : Work) (n : Nat) (up : Bool) :
    Recedes w.state (w.reportLink n up).state := by
  unfold Work.reportLink
  split
  · exact .refl _
  · split
    · exact w.state.setLine_recedes n rfl rfl
    · refine Recedes.trans ?_ ((Work.loseLink_recedes _ _).trans (Work.loseLink_recedes _ _))
      exact w.state.setLine_recedes n rfl rfl

theorem Work.rereadLinks_recedes (w : Work) (links : List Bool) :
    Recedes w.state (w.rereadLinks links).state := by
  unfold Work.rereadLinks
  generalize List.range 48 = ns
  induction ns generalizing w with
  | nil => exact .refl _
  | cons n ns ih => exact (w.reportLink_recedes n _).trans (ih _)

/-- An abandonment (R65). -/
theorem Work.abandon_recedes (w : Work) (r : RefusalReason) (n : Nat) :
    Recedes w.state (w.abandon r n).state := by
  unfold Work.abandon
  split
  · rename_i h
    exact (w.state.setStationState_recedes n (by rw [h]; rfl) rfl).trans
      (State.placeMessage_recedes _ n _)
  · exact .refl _

theorem Work.abandonIdentity_recedes (w : Work) (r : RefusalReason) (identity : Nat)
    (selects : Nat → Bool) : Recedes w.state (w.abandonIdentity r identity selects).state := by
  unfold Work.abandonIdentity
  generalize w.state.challengedPositions identity selects = ns
  induction ns generalizing w with
  | nil => exact .refl _
  | cons n ns ih => exact (w.abandon_recedes r n).trans (ih _)

theorem Work.withdrawIdentity_recedes (w : Work) (r : ReleaseReason) (identity : Nat) :
    Recedes w.state (w.withdrawIdentity r identity).state := by
  unfold Work.withdrawIdentity
  split
  · exact w.withdraw_recedes r _
  · exact .refl _

/-- The requests of REMOVE and SUSPEND (R33, R35). -/
theorem Work.retireIdentity_recedes (w : Work) (r : ReleaseReason) (identity : Nat) :
    Recedes w.state (w.retireIdentity r identity).state :=
  (w.withdrawIdentity_recedes r identity).trans (Work.abandonIdentity_recedes _ _ _ _)

/-- The first two requests of AMEND (R38). -/
theorem Work.applyHomePorts_recedes (w : Work) (e : DirectoryEntry) :
    Recedes w.state (w.applyHomePorts e).state := by
  unfold Work.applyHomePorts
  refine Recedes.trans ?_ (Work.abandonIdentity_recedes _ _ _ _)
  split
  · split
    · exact w.withdraw_recedes _ _
    · exact .refl _
  · exact .refl _

/-- The third request of AMEND (R38, R156). -/
theorem Work.judgeClass_recedes (w : Work) (e : DirectoryEntry) :
    Recedes w.state (w.judgeClass e).state := by
  unfold Work.judgeClass
  split
  · exact w.releaseWhere_recedes _ _
  · exact .refl _

/-- A counted failure of a station that is not ADMITTED (R59). -/
theorem Work.countFailure_recedes (w : Work) {n : Nat} (identity : Nat) (r : RefusalReason)
    (h : (w.state.station n).state.admittedIdentity = none) :
    Recedes w.state (w.countFailure n identity r).state := by
  unfold Work.countFailure
  dsimp only
  have hplaced := w.state.placeMessage_recedes n (.refuse r)
  have hstill : ((w.state.placeMessage n (.refuse r)).station n).state.admittedIdentity = none := by
    rw [State.placeMessage_station]
    split <;> exact h
  refine hplaced.trans (t := w.state.placeMessage n (.refuse r)) ?_
  split
  · exact State.setStation_recedes _ n ⟨List.suffix_rfl, .inr ⟨rfl, .inl hstill⟩⟩
  · exact State.setStation_recedes _ n ⟨List.suffix_rfl, .inr ⟨rfl, .inl hstill⟩⟩

theorem State.clearHold_recedes (s : State) (n : Nat) : Recedes s (s.clearHold n) := by
  unfold State.clearHold
  split
  · refine Recedes.trans ?_ (State.mapConnection_recedes _ _ ?_)
    · exact SameTables.recedes ⟨rfl, rfl, rfl, rfl, rfl⟩
    · exact fun _ => rfl
  · exact .refl _

/-- The message that a channel takes leaves its slot or its deliver queue (R57). -/
theorem State.sendFrom_recedes (s : State) (n : Nat) (second : Bool) :
    Recedes s (s.sendFrom n second) := by
  unfold State.sendFrom
  dsimp only
  split
  · rename_i h
    exact (s.setStation_recedes _ (Station.nextMessage_recedes h)).trans
      (State.setLine_recedes _ n rfl rfl)
  · exact .refl _

/-! ### The frame start (R102, R103) -/

theorem State.startLeg_connections (s : State) (c : Connection) :
    (s.startLeg c).connections = s.connections := by
  unfold State.startLeg
  split
  · rfl
  · split <;> rfl

theorem OnlyFrames.recedes {s t : State} (h : OnlyFrames s t) (hc : TableShrinks s t) :
    Recedes s t := by
  unfold OnlyFrames at h
  exact
    { directory := by rw [h]
      precedenceMap := by rw [h]
      lines := fun n => by rw [h]; exact ⟨rfl, rfl⟩
      stations := fun n => by rw [h]; exact .refl _
      connections := hc }

theorem Work.examine_recedes (w : Work) (c : Connection) (n : Nat) :
    Recedes w.state (w.examine c n).state := by
  unfold Work.examine
  split
  · split
    · have hset : ∀ v, Recedes w.state (w.state.setWatch n v) := fun _ =>
        SameTables.recedes ⟨rfl, rfl, rfl, rfl, rfl⟩
      dsimp only
      split
      · refine (hset _).trans (State.mapConnection_recedes _ _ ?_)
        exact fun _ => rfl
      · exact hset _
    · exact .refl _
  · exact .refl _
  · exact .refl _

theorem Work.promote_recedes (w : Work) (c : Connection) :
    Recedes w.state (w.promote c).state := by
  unfold Work.promote
  have hexamined : ∀ (ns : List Nat) (w : Work),
      Recedes w.state (ns.foldl (fun w n => w.examine c n) w).state := by
    intro ns
    induction ns with
    | nil => exact fun w => .refl _
    | cons n ns ih => exact fun w => (w.examine_recedes c n).trans (ih _)
  refine Recedes.trans ?_ (hexamined _ _)
  refine Recedes.trans ?_
    ((State.startLeg_onlyFrames _ c).recedes (.of_eq (State.startLeg_connections _ c)))
  refine w.state.mapConnection_recedes c.id ?_
  exact fun _ => rfl

theorem Work.promoteAll_recedes (w : Work) : Recedes w.state w.promoteAll.state := by
  unfold Work.promoteAll
  generalize w.state.connections.filter (fun c => !c.live) = cs
  induction cs generalizing w with
  | nil => exact .refl _
  | cons c cs ih => exact (w.promote_recedes c).trans (ih _)

theorem Work.carryAll_recedes (w : Work) : Recedes w.state w.carryAll.state := by
  refine w.carryAll_onlyFrames.recedes (.of_eq ?_)
  unfold Work.carryAll
  generalize w.state.connections.filter (fun c => c.live) = cs
  induction cs generalizing w with
  | nil => rfl
  | cons c cs ih => exact (ih _).trans (w.carry_connections c)

end Sys2Proof.Machine
end

section
/-! SUPPORT. The rows that take an order and by which the tables recede or stand, one lemma a row; and
the other commands by which they recede (R9, R28). -/

namespace Sys2Proof.Machine

/-! ### The take of a row keeps what its own answer keeps -/

/-- A predicate that reads the directory, the precedence map, the line ports, the stations and the
connection table alone. -/
def OfTables (I : State → Prop) : Prop := ∀ s t, SameTables s t → I s → I t

theorem Recedes.ofTables (s : State) : OfTables (Recedes s) :=
  fun _ _ hsame h => h.trans hsame.recedes

/-- What an answer to an order leaves has a property. -/
def Answer.Leaves (I : State → Prop) : Answer → Prop
  | .refuse _ _ => True
  | .done _ w => I w.state
  | .restart t => I t

theorem Answer.Leaves.imp {I J : State → Prop} (h : ∀ t, I t → J t) {a : Answer}
    (ha : a.Leaves I) : a.Leaves J := by
  cases a with
  | refuse => trivial
  | done fields w => exact h _ ha
  | restart t => exact h _ ha

/-- A take keeps a property of the tables that the row's own answers keep: refusals, replies and events
change no table (R8). -/
theorem takeOrder_keeps {I : State → Prop} (hI : OfTables I) {mine : OrderRecord → Bool}
    {codesFit : List Byte → Bool} {authority : Authority} {body : Port → List Byte → State → Answer}
    {s t : State} (hs : I s)
    (hbody : ∀ p o u, mine o = true → lengthFits o = true → codesFit o.params = true → I u →
      (body p o.params u).Leaves I)
    (h : takeOrder mine codesFit authority body s = .next t) : I t := by
  rcases takeOrder_cases h with rfl | ⟨p, o, -, hm, rfl⟩
  · exact hs
  have htaken : I (s.taken p) := hI _ _ (s.taken_sameTables p) hs
  have hrefused : ∀ outcome fields,
      I ((s.taken p).replied p o (.refuse outcome fields)) := fun _ _ =>
    hI _ _ (State.append_onlyPorts _ _ _).sameTables htaken
  unfold answerTo
  split
  · exact hrefused _ _
  · rename_i hform
    rw [Bool.or_eq_true, not_or, Bool.not_eq_true', Bool.not_eq_true', Bool.not_eq_false,
      Bool.not_eq_false] at hform
    have hown := hbody p o (s.taken p) hm hform.1 hform.2 htaken
    split
    · exact hrefused _ _
    · generalize body p o.params (s.taken p) = own at hown
      cases own with
      | refuse outcome fields => exact hrefused _ _
      | done fields w =>
        exact hI _ _ ((State.append_onlyPorts _ _ _).trans (State.postAll_onlyPorts _ _)).sameTables
          hown
      | restart u => exact hown

/-- By every command of a row the tables recede. -/
def RecedingRow (i : Instr) : Prop := ∀ s t, exec i s = .next t → Recedes s t

/-- A row whose own answers let the tables recede. -/
theorem recedingRow_of_take {i : Instr} {mine : OrderRecord → Bool} {codes : List Byte → Bool}
    {authority : Authority} {body : Port → List Byte → State → Answer}
    (meaning : State → Host.Outcome State Fault Refusal)
    (hexec : ∀ s, exec i s = meaning s)
    (htake : ∀ s, meaning s = takeOrder mine codes authority body s)
    (hbody : ∀ p params s, (body p params s).Leaves (Recedes s)) : RecedingRow i := by
  intro s t h
  rw [hexec, htake] at h
  exact takeOrder_keeps (Recedes.ofTables s) (Recedes.refl s)
    (fun p o u _ _ _ hu => (hbody p o.params u).imp fun _ => hu.trans) h

/-- Nothing of the tables is written. -/
theorem Recedes.of_eq {s t : State} (hd : t.directory = s.directory)
    (hp : t.precedenceMap = s.precedenceMap) (hl : t.lines = s.lines)
    (hs : t.stations = s.stations) (hc : t.connections = s.connections) : Recedes s t :=
  SameTables.recedes ⟨hd, hp, hl, hs, hc⟩

/-! ### Mastership (R18 to R24) -/

theorem masteryDone_leaves {I : State → Prop} {t : State} (h : I t) (cause : Option MasteryCause)
    (former : Option Controller) : (masteryDone t cause former).Leaves I := by
  cases cause <;> exact h

theorem byController_leaves {I : State → Prop} {s : State} {body : Controller → State → Answer}
    (h : ∀ x, (body x s).Leaves I) (p : Port) : (byController body p s).Leaves I := by
  unfold byController
  split
  · exact h _
  · trivial

theorem State.holdMastership_recedes (s : State) (x : Controller) :
    Recedes s (s.holdMastership x) := .of_eq rfl rfl rfl rfl rfl

theorem claim_recedes : RecedingRow .claim :=
  recedingRow_of_take execClaim (fun _ => rfl) (fun _ => rfl) fun p _ s =>
    byController_leaves (fun x => by
      have hheld := s.holdMastership_recedes x
      unfold claimBy
      split
      · exact masteryDone_leaves hheld _ _
      · split
        · exact masteryDone_leaves hheld _ _
        · trivial
      · exact masteryDone_leaves hheld _ _) p

theorem pulse_recedes : RecedingRow .pulse :=
  recedingRow_of_take execPulse (fun _ => rfl) (fun _ => rfl) fun p _ s =>
    byController_leaves (fun x => by
      have hheld := s.holdMastership_recedes x
      unfold pulseBy
      split
      · split
        · exact masteryDone_leaves hheld _ _
        · trivial
      · split
        · exact masteryDone_leaves hheld _ _
        · trivial
      · trivial) p

theorem yield_recedes : RecedingRow .yield :=
  recedingRow_of_take execYield (fun _ => rfl) (fun _ => rfl) fun p _ s =>
    byController_leaves (fun x => by
      unfold yieldBy
      split
      · refine masteryDone_leaves ?_ _ _
        exact .of_eq rfl rfl rfl rfl rfl
      · trivial) p

theorem assign_recedes : RecedingRow .assign :=
  recedingRow_of_take execAssign (fun _ => rfl) (fun _ => rfl) fun _ _ s =>
    masteryDone_leaves (by
      split
      · exact s.holdMastership_recedes _
      · exact .of_eq rfl rfl rfl rfl rfl) _ _

theorem setLapse_recedes : RecedingRow .setLapse :=
  recedingRow_of_take execSetLapse (fun _ => rfl) (fun _ => rfl) fun _ _ _ => by
    refine masteryDone_leaves ?_ _ _
    exact .of_eq rfl rfl rfl rfl rfl

theorem lookMastership_recedes : RecedingRow .lookMastership :=
  recedingRow_of_take execLookMastership (fun _ => rfl) (fun _ => rfl) fun _ _ s => Recedes.refl s

/-! ### The directory and the precedence map (R40 to R43) -/

theorem lookEntry_recedes : RecedingRow .lookEntry :=
  recedingRow_of_take execLookEntry (fun _ => rfl) (fun _ => rfl) fun _ _ s => by
    split
    · trivial
    · split
      · exact Recedes.refl s
      · trivial

theorem lookNextEntry_recedes : RecedingRow .lookNextEntry :=
  recedingRow_of_take execLookNextEntry (fun _ => rfl) (fun _ => rfl) fun _ _ s => by
    split
    · trivial
    · split
      · exact Recedes.refl s
      · trivial

theorem lookPrecedenceMap_recedes : RecedingRow .lookPrecedenceMap :=
  recedingRow_of_take execLookPrecedenceMap (fun _ => rfl) (fun _ => rfl) fun _ _ s =>
    Recedes.refl s

/-! ### Admission (R52, R68, R70 to R73) -/

theorem lookPort_recedes : RecedingRow .lookPort :=
  recedingRow_of_take execLookPort (fun _ => rfl) (fun _ => rfl) fun _ _ s => by
    dsimp only
    split
    · trivial
    · exact Recedes.refl s

theorem withdraw_recedes : RecedingRow .withdraw :=
  recedingRow_of_take execWithdraw (fun _ => rfl) (fun _ => rfl) fun _ _ s => by
    unfold withdrawPosition
    split
    · trivial
    · split
      · trivial
      · exact (Work.start s).withdraw_recedes _ _

theorem releaseLockout_recedes : RecedingRow .releaseLockout :=
  recedingRow_of_take execReleaseLockout (fun _ => rfl) (fun _ => rfl) fun _ params s => by
    dsimp only
    split
    · trivial
    · change Recedes s (if _ then _ else _)
      split
      · rename_i hlocked
        exact s.setStation_recedes _
          ⟨List.suffix_rfl, .inr ⟨rfl, .inl (by rw [hlocked]; rfl)⟩⟩
      · exact Recedes.refl s

theorem lookStation_recedes : RecedingRow .lookStation :=
  recedingRow_of_take execLookStation (fun _ => rfl) (fun _ => rfl) fun _ _ s => by
    dsimp only
    split
    · trivial
    · exact Recedes.refl s

theorem setAdmissionTimes_recedes : RecedingRow .setAdmissionTimes :=
  recedingRow_of_take execSetAdmissionTimes (fun _ => rfl) (fun _ => rfl) fun _ _ _ =>
    Recedes.of_eq rfl rfl rfl rfl rfl

theorem lookAdmissionTimes_recedes : RecedingRow .lookAdmissionTimes :=
  recedingRow_of_take execLookAdmissionTimes (fun _ => rfl) (fun _ => rfl) fun _ _ s =>
    Recedes.refl s

theorem seedChallenge_recedes : RecedingRow .seedChallenge :=
  recedingRow_of_take execSeedChallenge (fun _ => rfl) (fun _ => rfl) fun _ _ _ =>
    Recedes.of_eq rfl rfl rfl rfl rfl

/-! ### The switching network (R99 to R108) -/

theorem releaseById_recedes : RecedingRow .releaseById :=
  recedingRow_of_take execReleaseById (fun _ => rfl) (fun _ => rfl) fun _ _ s => by
    unfold releaseId
    split
    · trivial
    · split
      · trivial
      · split
        · trivial
        · exact Work.release_recedes none (Work.start s) _

theorem releaseByTag_recedes : RecedingRow .releaseByTag :=
  recedingRow_of_take execReleaseByTag (fun _ => rfl) (fun _ => rfl) fun _ _ s => by
    unfold releaseTag
    split
    · trivial
    · exact (Work.start s).releaseWhere_recedes _ _

theorem setMuteCode_recedes : RecedingRow .setMuteCode :=
  recedingRow_of_take execSetMuteCode (fun _ => rfl) (fun _ => rfl) fun _ _ _ =>
    Recedes.of_eq rfl rfl rfl rfl rfl

theorem lookConnection_recedes : RecedingRow .lookConnection :=
  recedingRow_of_take execLookConnection (fun _ => rfl) (fun _ => rfl) fun _ _ s => by
    split
    · trivial
    · split
      · exact Recedes.refl s
      · trivial

theorem lookNextConnection_recedes : RecedingRow .lookNextConnection :=
  recedingRow_of_take execLookNextConnection (fun _ => rfl) (fun _ => rfl) fun _ _ s => by
    split
    · trivial
    · split
      · exact Recedes.refl s
      · trivial

theorem lookEndpoint_recedes : RecedingRow .lookEndpoint :=
  recedingRow_of_take execLookEndpoint (fun _ => rfl) (fun _ => rfl) fun _ _ s => by
    split
    · trivial
    · exact Recedes.refl s

theorem lookNetwork_recedes : RecedingRow .lookNetwork :=
  recedingRow_of_take execLookNetwork (fun _ => rfl) (fun _ => rfl) fun _ _ s => Recedes.refl s

/-! ### Trunk groups (R111 to R124) -/

theorem setTrunk_recedes : RecedingRow .setTrunk :=
  recedingRow_of_take execSetTrunk (fun _ => rfl) (fun _ => rfl) fun _ _ _ => by
    unfold setTrunkSlot
    dsimp only
    split
    · trivial
    · split
      · trivial
      · exact Recedes.of_eq rfl rfl rfl rfl rfl

theorem setGroup_recedes : RecedingRow .setGroup :=
  recedingRow_of_take execSetGroup (fun _ => rfl) (fun _ => rfl) fun _ _ _ => by
    unfold setGroupSettings
    dsimp only
    split
    · trivial
    · refine Recedes.trans ?_
        ((Work.reevaluate_onlyCalls _ _).recedes (.of_eq (Work.reevaluate_connections _ _)))
      exact .of_eq rfl rfl rfl rfl rfl

theorem lookTrunk_recedes : RecedingRow .lookTrunk :=
  recedingRow_of_take execLookTrunk (fun _ => rfl) (fun _ => rfl) fun _ _ s => by
    split
    · trivial
    · exact Recedes.refl s

theorem lookGroup_recedes : RecedingRow .lookGroup :=
  recedingRow_of_take execLookGroup (fun _ => rfl) (fun _ => rfl) fun _ _ s => by
    dsimp only
    split
    · trivial
    · exact Recedes.refl s

/-! ### Call privacy (R129 to R131, R142, R145) -/

theorem onFreeKey_leaves {I : State → Prop} {s : State} {own : Answer} (h : own.Leaves I)
    (index : Nat) : (onFreeKey index s own).Leaves I := by
  unfold onFreeKey
  split
  · trivial
  · split
    · trivial
    · exact h

theorem loadKey_recedes : RecedingRow .loadKey :=
  recedingRow_of_take execLoadKey (fun _ => rfl) (fun _ => rfl) fun _ _ _ => by
    refine onFreeKey_leaves ?_ _
    exact Recedes.of_eq rfl rfl rfl rfl rfl

theorem eraseKey_recedes : RecedingRow .eraseKey :=
  recedingRow_of_take execEraseKey (fun _ => rfl) (fun _ => rfl) fun _ _ _ => by
    refine onFreeKey_leaves ?_ _
    exact Recedes.of_eq rfl rfl rfl rfl rfl

theorem lookKey_recedes : RecedingRow .lookKey :=
  recedingRow_of_take execLookKey (fun _ => rfl) (fun _ => rfl) fun _ _ s => by
    dsimp only
    split
    · trivial
    · exact Recedes.refl s

theorem resync_recedes : RecedingRow .resync :=
  recedingRow_of_take execResync (fun _ => rfl) (fun _ => rfl) fun _ _ _ => by
    unfold resyncId
    split
    · trivial
    · split
      · trivial
      · split
        · exact Recedes.of_eq rfl rfl rfl rfl rfl
        · trivial

theorem lookLeg_recedes : RecedingRow .lookLeg :=
  recedingRow_of_take execLookLeg (fun _ => rfl) (fun _ => rfl) fun _ _ _ => by
    unfold lookLegId
    split
    · trivial
    · split
      · trivial
      · split
        · trivial
        · exact Recedes.of_eq rfl rfl rfl rfl rfl

/-! ### Call trace (R161 to R167) -/

theorem armWatch_recedes : RecedingRow .armWatch :=
  recedingRow_of_take execArmWatch (fun _ => rfl) (fun _ => rfl) fun _ _ _ => by
    unfold armWatchOn
    split
    · trivial
    · split
      · trivial
      · split
        · trivial
        · exact Recedes.of_eq rfl rfl rfl rfl rfl

/-- A watch that has been written touches no table. -/
theorem State.setWatch_recedes (s : State) (n : Nat) (v : Watch) : Recedes s (s.setWatch n v) :=
  .of_eq rfl rfl rfl rfl rfl

theorem disarmWatch_recedes : RecedingRow .disarmWatch :=
  recedingRow_of_take execDisarmWatch (fun _ => rfl) (fun _ => rfl) fun _ _ s => by
    dsimp only
    split
    · trivial
    · exact (s.clearHold_recedes _).trans (State.setWatch_recedes _ _ _)

theorem clearTrace_recedes : RecedingRow .clearTrace :=
  recedingRow_of_take execClearTrace (fun _ => rfl) (fun _ => rfl) fun _ _ s => by
    unfold clearTraceOf
    split
    · trivial
    · split
      · trivial
      · exact Recedes.refl s
      · exact (s.clearHold_recedes _).trans (State.setWatch_recedes _ _ _)

theorem releaseHold_recedes : RecedingRow .releaseHold :=
  recedingRow_of_take execReleaseHold (fun _ => rfl) (fun _ => rfl) fun _ _ s => by
    unfold releaseHoldOf
    split
    · trivial
    · split
      · trivial
      · trivial
      · exact s.clearHold_recedes _

theorem lookWatch_recedes : RecedingRow .lookWatch :=
  recedingRow_of_take execLookWatch (fun _ => rfl) (fun _ => rfl) fun _ _ _ => by
    unfold lookWatchOf
    split
    · trivial
    · exact Recedes.of_eq rfl rfl rfl rfl rfl

/-! ### Restart control and the issuing port (R13, R170, R173, R175) -/

/-- A call-keeping restart: station records are kept or left, and PENDING records leave the table
(R53, R109). -/
theorem State.startKeep_recedes (s : State) (cause : RestartCause) :
    Recedes s (s.startKeep cause) := by
  have htables : Recedes s (s.keepTables cause) :=
    { directory := rfl
      precedenceMap := rfl
      lines := fun n => by
        by_cases hn : n < 48
        · rw [State.keepTables_line s cause hn]
          exact ⟨rfl, rfl⟩
        · simp [State.line, State.keepTables, hn]
      stations := fun n => by
        rw [State.keepTables_station]
        exact Station.keptByRestart_recedes _
      connections := .of_eq rfl }
  exact (htables.trans (Work.releaseWhere_recedes (Work.start (s.keepTables cause)) none _)).trans
    (Work.finish_onlyPorts _).sameTables.recedes

theorem restartKeep_recedes : RecedingRow .restartKeep :=
  recedingRow_of_take execRestartKeep (fun _ => rfl) (fun _ => rfl) fun _ _ s =>
    s.startKeep_recedes .orderKeep

theorem State.setPort_recedes (s : State) (p : Port) (v : PortState) : Recedes s (s.setPort p v) :=
  (s.setPort_onlyPorts p v).sameTables.recedes

theorem readCauses_recedes : RecedingRow .readCauses :=
  recedingRow_of_take execReadCauses (fun _ => rfl) (fun _ => rfl) fun p _ s => s.setPort_recedes p _

theorem setPortMode_recedes : RecedingRow .setPortMode :=
  recedingRow_of_take execSetPortMode (fun _ => rfl) (fun _ => rfl) fun p _ s => s.setPort_recedes p _

theorem unknownOrder_recedes : RecedingRow .unknownOrder :=
  recedingRow_of_take execUnknownOrder (fun _ => rfl) (fun _ => rfl) fun _ _ _ => trivial

/-! ### The other commands -/

theorem Recedes.finish {s : State} {w : Work} (h : Recedes s w.state) : Recedes s w.finish :=
  h.trans w.finish_onlyPorts.sameTables.recedes

theorem State.openTransfer_onlyPorts (s : State) (p : Port) : OnlyPorts s (s.openTransfer p) :=
  s.setPort_onlyPorts p _

/-- A transfer changes its port alone (R2 to R5). -/
theorem State.completing_recedes (s : State) (p : Port) (v : PortState) :
    Recedes s ((s.inTransfer p).setPort p v) := by
  refine Recedes.trans ?_ (State.setPort_recedes _ p v)
  unfold State.inTransfer
  split
  · exact .refl s
  · exact s.setPort_recedes p _

theorem orderTransfer_recedes (p : Port) (part : TransferPart) (record : List Byte) :
    RecedingRow (.orderTransfer p part record) := by
  intro s t h
  cases part <;> obtain rfl := Host.Outcome.next.inj h
  · exact s.setPort_recedes p _
  · exact s.completing_recedes p _

theorem fetchTransfer_recedes (p : Port) (part : TransferPart) :
    RecedingRow (.fetchTransfer p part) := by
  intro s t h
  cases part <;> obtain rfl := Host.Outcome.next.inj h
  · exact s.setPort_recedes p _
  · exact s.completing_recedes p _

theorem statusTransfer_recedes (p : Port) (part : TransferPart) :
    RecedingRow (.statusTransfer p part) := by
  intro s t h
  cases part <;> obtain rfl := Host.Outcome.next.inj h
  · exact s.setPort_recedes p _
  · exact s.completing_recedes p _

theorem unknownTransferKind_recedes (p : Port) (kind : Option Byte) :
    RecedingRow (.unknownTransferKind p kind) := by
  intro s t h
  obtain rfl := Host.Outcome.next.inj h
  exact s.completing_recedes p _

theorem lapseTimerExpiry_recedes : RecedingRow .lapseTimerExpiry := by
  intro s t h
  change execLapseTimerExpiry s = _ at h
  unfold execLapseTimerExpiry at h
  split at h <;> obtain rfl := Host.Outcome.next.inj h
  · exact .finish (.of_eq rfl rfl rfl rfl rfl)
  · exact .refl s

theorem State.reach_recedes (s : State) (instant : Nat) : Recedes s (s.reach instant) :=
  .of_eq rfl rfl rfl rfl rfl

theorem answerDeadlineExpiry_recedes (n : Fin 96) : RecedingRow (.answerDeadlineExpiry n) := by
  intro s t h
  change execAnswerDeadlineExpiry n s = _ at h
  unfold execAnswerDeadlineExpiry at h
  split at h <;> obtain rfl := Host.Outcome.next.inj h
  · rename_i identity _ _ deadline hn
    refine .finish ((s.reach_recedes deadline).trans 
      ((Work.start (s.reach deadline)).countFailure_recedes _ _ ?_))
    change (s.station n).state.admittedIdentity = none
    rw [hn]
    rfl
  all_goals exact .refl s

theorem holdOffExpiry_recedes (n : Fin 96) : RecedingRow (.holdOffExpiry n) := by
  intro s t h
  change execHoldOffExpiry n s = _ at h
  unfold execHoldOffExpiry at h
  split at h <;> obtain rfl := Host.Outcome.next.inj h
  · rename_i deadline hn
    refine (s.reach_recedes deadline).trans (State.setStationState_recedes _ _ ?_ rfl)
    change (s.station n).state.admittedIdentity = none
    rw [hn]
    rfl
  all_goals exact .refl s

theorem Work.takeLeave_recedes (w : Work) (n : Nat) : Recedes w.state (w.takeLeave n).state := by
  unfold Work.takeLeave
  split
  · exact w.withdraw_recedes _ n
  · rename_i h; exact w.state.setStationState_recedes n (by rw [h]; rfl) rfl
  all_goals exact .refl _

theorem leave_recedes (n : Fin 96) : RecedingRow (.leave n) := by
  intro s t h
  change execLeave n s = _ at h
  unfold execLeave at h
  split at h <;> obtain rfl := Host.Outcome.next.inj h
  · exact .finish (Work.takeLeave_recedes (Work.start s) n)
  · exact .refl s

theorem signal_recedes (n : Fin 96) (bytes : List Byte) : RecedingRow (.signal n bytes) := by
  intro s t h
  change execSignal n bytes s = _ at h
  unfold execSignal at h
  split at h
  · split at h <;> obtain rfl := Host.Outcome.next.inj h
    case h_1 => exact .finish (.refl s)
    all_goals exact .refl s
  · obtain rfl := Host.Outcome.next.inj h
    exact .refl s

theorem unfitStationMessage_recedes (n : Fin 48) (message : List Byte) :
    RecedingRow (.unfitStationMessage n message) := by
  intro s t h
  obtain rfl := Host.Outcome.next.inj h
  exact .refl s

theorem linkUp_recedes (n : Fin 48) : RecedingRow (.linkUp n) := by
  intro s t h
  change execLinkUp n s = _ at h
  unfold execLinkUp at h
  split at h <;> obtain rfl := Host.Outcome.next.inj h
  · exact .refl s
  · exact .finish ((Work.start s).reportLink_recedes _ _)

theorem linkDown_recedes (n : Fin 48) : RecedingRow (.linkDown n) := by
  intro s t h
  change execLinkDown n s = _ at h
  unfold execLinkDown at h
  split at h <;> obtain rfl := Host.Outcome.next.inj h
  · exact .refl s
  · exact .finish ((Work.start s).reportLink_recedes _ _)

theorem beginSend_recedes (n : Fin 48) : RecedingRow (.beginSend n) := by
  intro s t h
  change execBeginSend n s = _ at h
  unfold execBeginSend at h
  split at h
  · split at h <;> obtain rfl := Host.Outcome.next.inj h
    · exact s.sendFrom_recedes _ _
    · exact .refl s
  · obtain rfl := Host.Outcome.next.inj h
    exact .refl s

theorem sendCompletion_recedes (n : Fin 48) : RecedingRow (.sendCompletion n) := by
  intro s t h
  obtain rfl := Host.Outcome.next.inj h
  exact s.setLine_recedes n rfl rfl

theorem sampleArrival_recedes (samples : List Byte) : RecedingRow (.sampleArrival samples) := by
  intro s t h
  change execSampleArrival samples s = _ at h
  unfold execSampleArrival at h
  obtain rfl := Host.Outcome.next.inj h
  exact .of_eq rfl rfl rfl rfl rfl

theorem frameStart_recedes : RecedingRow .frameStart := by
  intro s t h
  change execFrameStart s = _ at h
  unfold execFrameStart at h
  obtain rfl := Host.Outcome.next.inj h
  have hopened : Recedes s s.openFrame := .of_eq rfl rfl rfl rfl rfl
  exact .finish (hopened.trans
    ((Work.start s.openFrame).promoteAll_recedes.trans (Work.carryAll_recedes _)))

theorem resetPinRelease_recedes : RecedingRow .resetPinRelease := by
  intro s t h
  change execResetPinRelease s = _ at h
  unfold execResetPinRelease at h
  split at h <;> obtain rfl := Host.Outcome.next.inj h
  · exact .of_eq rfl rfl rfl rfl rfl
  · exact .refl s

theorem State.endRestart_recedes (s : State) (mode : RestartMode) :
    Recedes s (s.endRestart mode) := by
  have hended : Recedes s { s with restart := none } := .of_eq rfl rfl rfl rfl rfl
  exact hended.trans (((State.append_onlyPorts _ _ _).trans (State.append_onlyPorts _ _ _)).trans
    (State.append_onlyPorts _ _ _)).sameTables.recedes

theorem restartComplete_recedes (links : List Bool) : RecedingRow (.restartComplete links) := by
  intro s t h
  change execRestartComplete links s = _ at h
  unfold execRestartComplete at h
  split at h
  · split at h <;> obtain rfl := Host.Outcome.next.inj h
    · exact .refl s
    · exact .finish ((s.endRestart_recedes _).trans
        ((Work.start (s.endRestart _)).rereadLinks_recedes links))
  · obtain rfl := Host.Outcome.next.inj h
    exact .refl s

end Sys2Proof.Machine
end

section
/-! SUPPORT. What every step keeps, for a property of the tables that stands while they recede; and what
the commands by which tables may grow do to the calls (R9, R61, R170). -/

namespace Sys2Proof.Machine

/-! ### Commands by which the tables may grow -/

/-- The commands by which the directory, the precedence map, the settings of line ports, the states of
stations or the connection table may take on something new. -/
def MayAdvance (i : Instr) : Prop :=
  match i with
  | .enter | .remove | .setSecret | .amend | .suspend | .resume | .setPrecedenceMap | .setPort
  | .deliver | .connect | .restartCold | .register .. | .answer .. | .babble _ | .powerOn
  | .resetPin => True
  | _ => False

/-- By every other command the tables recede. -/
theorem exec_recedes {i : Instr} (hi : ¬MayAdvance i) : RecedingRow i := by
  cases i
  case orderTransfer p part record => exact orderTransfer_recedes p part record
  case fetchTransfer p part => exact fetchTransfer_recedes p part
  case statusTransfer p part => exact statusTransfer_recedes p part
  case unknownTransferKind p kind => exact unknownTransferKind_recedes p kind
  case unknownOrder => exact unknownOrder_recedes
  case claim => exact claim_recedes
  case pulse => exact pulse_recedes
  case yield => exact yield_recedes
  case assign => exact assign_recedes
  case setLapse => exact setLapse_recedes
  case lookMastership => exact lookMastership_recedes
  case lookEntry => exact lookEntry_recedes
  case lookNextEntry => exact lookNextEntry_recedes
  case lookPrecedenceMap => exact lookPrecedenceMap_recedes
  case lookPort => exact lookPort_recedes
  case withdraw => exact withdraw_recedes
  case releaseLockout => exact releaseLockout_recedes
  case lookStation => exact lookStation_recedes
  case setAdmissionTimes => exact setAdmissionTimes_recedes
  case lookAdmissionTimes => exact lookAdmissionTimes_recedes
  case seedChallenge => exact seedChallenge_recedes
  case releaseById => exact releaseById_recedes
  case releaseByTag => exact releaseByTag_recedes
  case setMuteCode => exact setMuteCode_recedes
  case lookConnection => exact lookConnection_recedes
  case lookNextConnection => exact lookNextConnection_recedes
  case lookEndpoint => exact lookEndpoint_recedes
  case lookNetwork => exact lookNetwork_recedes
  case setTrunk => exact setTrunk_recedes
  case setGroup => exact setGroup_recedes
  case lookTrunk => exact lookTrunk_recedes
  case lookGroup => exact lookGroup_recedes
  case loadKey => exact loadKey_recedes
  case eraseKey => exact eraseKey_recedes
  case lookKey => exact lookKey_recedes
  case resync => exact resync_recedes
  case lookLeg => exact lookLeg_recedes
  case armWatch => exact armWatch_recedes
  case disarmWatch => exact disarmWatch_recedes
  case clearTrace => exact clearTrace_recedes
  case releaseHold => exact releaseHold_recedes
  case lookWatch => exact lookWatch_recedes
  case restartKeep => exact restartKeep_recedes
  case readCauses => exact readCauses_recedes
  case setPortMode => exact setPortMode_recedes
  case lapseTimerExpiry => exact lapseTimerExpiry_recedes
  case answerDeadlineExpiry n => exact answerDeadlineExpiry_recedes n
  case holdOffExpiry n => exact holdOffExpiry_recedes n
  case leave n => exact leave_recedes n
  case signal n bytes => exact signal_recedes n bytes
  case unfitStationMessage n message => exact unfitStationMessage_recedes n message
  case linkUp n => exact linkUp_recedes n
  case linkDown n => exact linkDown_recedes n
  case beginSend n => exact beginSend_recedes n
  case sendCompletion n => exact sendCompletion_recedes n
  case sampleArrival samples => exact sampleArrival_recedes samples
  case frameStart => exact frameStart_recedes
  case resetPinRelease => exact resetPinRelease_recedes
  case restartComplete links => exact restartComplete_recedes links
  all_goals exact absurd trivial hi

/-! ### What every step keeps -/

/-- A property of the tables that stands while they recede. -/
def KeptByReceding (I : State → Prop) : Prop := ∀ s t, Recedes s t → I s → I t

theorem KeptByReceding.ofTables {I : State → Prop} (hI : KeptByReceding I) : OfTables I :=
  fun s t hsame => hI s t hsame.recedes

/-- Every command of a row keeps a property. -/
def KeepingRow (I : State → Prop) (i : Instr) : Prop := ∀ s t, I s → exec i s = .next t → I t

/-- A row whose own answers keep a property. -/
theorem keepingRow_of_take {I : State → Prop} (hI : KeptByReceding I) {i : Instr}
    {mine : OrderRecord → Bool} {codes : List Byte → Bool} {authority : Authority}
    {body : Port → List Byte → State → Answer} (meaning : State → Host.Outcome State Fault Refusal)
    (hexec : ∀ s, exec i s = meaning s)
    (htake : ∀ s, meaning s = takeOrder mine codes authority body s)
    (hbody : ∀ p o u, mine o = true → lengthFits o = true → I u → (body p o.params u).Leaves I) :
    KeepingRow I i := by
  intro s t hs h
  rw [hexec, htake] at h
  exact takeOrder_keeps hI.ofTables hs (fun p o u hm hl _ hu => hbody p o u hm hl hu) h

theorem keepingRow_register {I : State → Prop} (hI : KeptByReceding I)
    (h : ∀ s n identity, n < 96 → State.hears s n = true → I s →
      I ((Work.start s).takeRegister n identity).state)
    (n : Fin 96) (identity : Word16) : KeepingRow I (.register n identity) := by
  intro s t hs ht
  change execRegister n identity s = .next t at ht
  unfold execRegister at ht
  split at ht <;> obtain rfl := Host.Outcome.next.inj ht
  · exact hI _ _ (Recedes.finish (.refl _)) (h s _ _ n.isLt ‹_› hs)
  · exact hs

theorem keepingRow_answer {I : State → Prop} (hI : KeptByReceding I)
    (h : ∀ w n response, n < 96 → I w.state → I (Work.takeAnswer w n response).state)
    (n : Fin 96) (response : Word16) : KeepingRow I (.answer n response) := by
  intro s t hs ht
  change execAnswer n response s = .next t at ht
  unfold execAnswer at ht
  split at ht <;> obtain rfl := Host.Outcome.next.inj ht
  · exact hI _ _ (Recedes.finish (.refl _)) (h (Work.start s) _ _ n.isLt hs)
  · exact hs

/-- BABBLE counts, and past the tolerance the port is disabled (R50). -/
theorem keepingRow_babble {I : State → Prop} (hI : KeptByReceding I)
    (h : ∀ w n, n < 48 → I w.state → I (Work.disableForBabble w n).state) (n : Fin 48) :
    KeepingRow I (.babble n) := by
  intro s t hs ht
  have hcounted : I (s.setLine n.val
      { s.line n.val with babbleCount := (s.line n.val).babbleCount + 1 }) :=
    hI _ _ (State.setLine_recedes s n.val rfl rfl) hs
  change execBabble n s = .next t at ht
  unfold execBabble at ht
  dsimp only at ht
  split at ht
  · obtain rfl := Host.Outcome.next.inj ht
    exact hs
  · split at ht <;> obtain rfl := Host.Outcome.next.inj ht
    · exact hI _ _ (Recedes.finish (.refl _)) (h (Work.start _) _ n.isLt hcounted)
    · exact hcounted

/-- The three commands that restart the part cold (R170). -/
theorem keepingRow_cold {I : State → Prop} (hI : KeptByReceding I)
    (h : ∀ s cause, I (State.startCold cause s)) :
    KeepingRow I .restartCold ∧ KeepingRow I .powerOn ∧ KeepingRow I .resetPin := by
  refine ⟨?_, fun s t _ ht => ?_, fun s t hs ht => ?_⟩
  · exact keepingRow_of_take hI execRestartCold (fun _ => rfl) (fun _ => rfl)
      fun _ _ u _ _ _ => h u _
  · obtain rfl := Host.Outcome.next.inj ht
    exact h s _
  · change execResetPin s = .next t at ht
    unfold execResetPin at ht
    split at ht <;> obtain rfl := Host.Outcome.next.inj ht
    · exact hs
    · exact hI (s.startCold .pin) _ (.of_eq rfl rfl rfl rfl rfl) (h s _)

/-- The idle step, and then a command of the queue: a step keeps a property that stands while the
tables recede, when the commands by which they may grow keep it. -/
theorem step_keeps {I : State → Prop} (hI : KeptByReceding I)
    (hadvance : ∀ i, MayAdvance i → KeepingRow I i) {s t : State} (hs : I s)
    (h : step s = .next t) : I t := by
  unfold step at h
  split at h
  · rename_i c rest _
    have hs' : I { s with pending := rest } := hI s _ (.of_eq rfl rfl rfl rfl rfl) hs
    by_cases hc : MayAdvance c
    · exact hadvance c hc _ t hs' h
    · exact hI _ _ (exec_recedes hc _ t h) hs'
  · obtain rfl := Host.Outcome.next.inj h
    refine hI.ofTables _ _ ?_ hs
    unfold State.idle
    split <;> exact ⟨rfl, rfl, rfl, rfl, rfl⟩

/-- What a REGISTER makes of the tables: nothing, or the station of the position leaves its state, or it
is challenged after that (R58, R60). -/
theorem Work.takeRegister_cases (w : Work) (n identity : Nat) :
    Recedes w.state (w.takeRegister n identity).state
      ∨ ∃ (v : Work) (e : DirectoryEntry), Recedes w.state v.state
        ∧ (v.state.station n).state.identity = none
        ∧ v.state.entry identity = some e ∧ e.suspended = false
        ∧ e.admitsLine (linePortOf n) = true
        ∧ w.takeRegister n identity = v.issueChallenge n identity e := by
  have hjudge : ∀ v : Work, Recedes w.state v.state → (v.state.station n).state.identity = none →
      Recedes w.state (v.judgeRegister n identity).state
        ∨ ∃ e, v.state.entry identity = some e ∧ e.suspended = false
          ∧ e.admitsLine (linePortOf n) = true
          ∧ v.judgeRegister n identity = v.issueChallenge n identity e := by
    intro v hv hnone
    have hidle : (v.state.station n).state.admittedIdentity = none := by
      cases hs : (v.state.station n).state <;> simp_all [StationState.identity,
        StationState.admittedIdentity]
    have hfails := fun r => hv.trans (v.countFailure_recedes identity r hidle)
    unfold Work.judgeRegister
    split
    · exact .inl (hfails _)
    · rename_i e he
      split
      · exact .inl (hfails _)
      · split
        · exact .inl (hfails _)
        · rename_i hsus hadm
          exact .inr ⟨e, he, by simpa using hsus, by simpa using hadm, rfl⟩
  have hissued : ∀ v : Work, Recedes w.state v.state → (v.state.station n).state.identity = none →
      Recedes w.state (v.judgeRegister n identity).state
        ∨ ∃ (u : Work) (e : DirectoryEntry), Recedes w.state u.state
          ∧ (u.state.station n).state.identity = none
          ∧ u.state.entry identity = some e ∧ e.suspended = false
          ∧ e.admitsLine (linePortOf n) = true
          ∧ v.judgeRegister n identity = u.issueChallenge n identity e := fun v hv hnone =>
    (hjudge v hv hnone).imp_right fun ⟨e, he, hsus, hadm, heq⟩ =>
      ⟨v, e, hv, hnone, he, hsus, hadm, heq⟩
  unfold Work.takeRegister
  split
  · rename_i hn
    exact hissued w (.refl _) (by rw [hn]; rfl)
  · rename_i i hn
    refine hissued _ (w.withdraw_recedes _ n) ?_
    by_cases hlt : n < 96
    · rw [Work.withdraw_station w _ hlt, hn]
      simp [Station.withdrawn, StationState.identity]
    · rw [State.station_of_ge _ (Nat.le_of_not_lt hlt)]
      rfl
  all_goals exact .inl (.refl _)

/-! ### Calls recede -/

/-- The precedence map stands, and records leave the connection table. -/
def CallsRecede (s t : State) : Prop := t.precedenceMap = s.precedenceMap ∧ TableShrinks s t

theorem Recedes.calls {s t : State} (h : Recedes s t) : CallsRecede s t :=
  ⟨h.precedenceMap, h.connections⟩

theorem CallsRecede.of_eq {s t : State} (hp : t.precedenceMap = s.precedenceMap)
    (hc : t.connections = s.connections) : CallsRecede s t := ⟨hp, .of_eq hc⟩

theorem CallsRecede.trans {s t u : State} (h : CallsRecede s t) (h' : CallsRecede t u) :
    CallsRecede s u := ⟨h'.1.trans h.1, h.2.trans h'.2⟩

theorem CallsRecede.ofTables (s : State) : OfTables (CallsRecede s) :=
  fun _ _ hsame h => h.trans hsame.recedes.calls

theorem onEntry_leaves {I : State → Prop} {s : State} {identity : Nat}
    {body : DirectoryEntry → Answer}
    (h : ∀ e, s.entry identity = some e → (body e).Leaves I) :
    (onEntry identity s body).Leaves I := by
  unfold onEntry
  split
  · trivial
  · split
    · exact h _ ‹_›
    · trivial

/-- The own answers of the rows that write the directory (R32 to R38). -/
theorem enterEntry_callsRecede (params : List Byte) (s : State) :
    (enterEntry params s).Leaves (CallsRecede s) := by
  unfold enterEntry
  dsimp only
  split
  · trivial
  · split
    · trivial
    · split
      · trivial
      · exact CallsRecede.of_eq rfl rfl

theorem removeEntry_callsRecede (identity : Nat) (s : State) :
    (removeEntry identity s).Leaves (CallsRecede s) :=
  onEntry_leaves fun _ _ =>
    CallsRecede.trans (t := s.dropEntry identity) (.of_eq rfl rfl)
      ((Work.start _).retireIdentity_recedes .removed identity).calls

theorem suspendEntry_callsRecede (identity : Nat) (s : State) :
    (suspendEntry identity s).Leaves (CallsRecede s) :=
  onEntry_leaves fun _ _ => by
    split
    · exact (Recedes.refl s).calls
    · refine CallsRecede.trans ?_ ((Work.start _).retireIdentity_recedes .suspended identity).calls
      exact .of_eq rfl rfl

/-- The work of an AMEND recedes from the directory with the entry changed (R37, R38). -/
theorem amendWork_recedes (params : List Byte) (s : State) (e : DirectoryEntry) :
    Recedes s (if (flagSet (paramByte params 4) || flagSet (paramByte params 6)) = true then
      (if flagSet (paramByte params 8) = true then (Work.start s).applyHomePorts e
        else Work.start s).judgeClass e
      else if flagSet (paramByte params 8) = true then (Work.start s).applyHomePorts e
        else Work.start s).state := by
  have hhomes : Recedes s (if flagSet (paramByte params 8) = true then
      (Work.start s).applyHomePorts e else Work.start s).state := by
    split
    · exact (Work.start s).applyHomePorts_recedes e
    · exact .refl s
  split
  · exact hhomes.trans (Work.judgeClass_recedes _ e)
  · exact hhomes

theorem amendEntry_callsRecede (params : List Byte) (s : State) :
    (amendEntry params s).Leaves (CallsRecede s) := by
  unfold amendEntry
  dsimp only
  split
  · trivial
  · split
    · trivial
    · refine CallsRecede.trans (t := s.mapEntry (param2 params 0) (amendedEntry params)) ?_
        (amendWork_recedes params _ _).calls
      exact .of_eq rfl rfl

/-- SET PORT: the settings of the port, and then the positions it clears (R48, R49). -/
theorem setPortSettings_leaves {I : State → Prop} (params : List Byte) (s : State)
    (h : ∀ w : Work,
      w = (clearedPositions (param1 params 0) (s.line (param1 params 0))
          (newLineSettings params (s.line (param1 params 0)))).foldl
            (fun w n => w.clearPosition .portDisabled n)
            (Work.start (s.setLine (param1 params 0)
              (newLineSettings params (s.line (param1 params 0))))) → I w.state) :
    (setPortSettings params s).Leaves I := by
  unfold setPortSettings
  dsimp only
  split
  · trivial
  · have hcleared := h _ rfl
    simp only [Answer.Leaves]
    split
    · exact hcleared
    · exact hcleared

theorem setPortSettings_callsRecede (params : List Byte) (s : State) :
    (setPortSettings params s).Leaves (CallsRecede s) := by
  refine setPortSettings_leaves params s ?_
  rintro w rfl
  refine CallsRecede.trans ?_ (Work.clearPositions_recedes _ _ _).calls
  exact .of_eq rfl rfl

theorem deliverTo_callsRecede (n : Nat) (bytes : List Byte) (s : State) :
    (deliverTo n bytes s).Leaves (CallsRecede s) := by
  unfold deliverTo
  split
  · trivial
  · split
    · trivial
    · split
      · trivial
      · exact CallsRecede.of_eq rfl rfl

/-- A challenge issued: the sequence advances, and the position is CHALLENGED with the message placed
(R60). -/
theorem Work.issueChallenge_state (w : Work) (n identity : Nat) (e : DirectoryEntry) :
    ∃ sequence value expected deadline, (w.issueChallenge n identity e).state =
      ({ w.state with challengeSequence := sequence }.setStationState n
        (.challenged identity value expected deadline)).placeMessage n (.challenge value) :=
  ⟨_, _, _, _, rfl⟩

theorem Work.issueChallenge_callsRecede (w : Work) (n identity : Nat) (e : DirectoryEntry) :
    CallsRecede w.state (w.issueChallenge n identity e).state := by
  obtain ⟨_, _, _, _, h⟩ := w.issueChallenge_state n identity e
  rw [h]
  exact .of_eq rfl rfl

theorem Work.takeRegister_callsRecede (w : Work) (n identity : Nat) :
    CallsRecede w.state (w.takeRegister n identity).state := by
  rcases w.takeRegister_cases n identity with h | ⟨v, e, hv, -, -, -, -, heq⟩
  · exact h.calls
  · rw [heq]
    exact hv.calls.trans (v.issueChallenge_callsRecede n identity e)

/-- What a correct ANSWER does before the station is ADMITTED: the identity's station elsewhere is
withdrawn (R61). -/
def Work.relocate (w : Work) (n identity : Nat) : Work :=
  match w.state.admittedElsewhere identity n with
  | some other => w.withdraw .relocated other
  | none => w

theorem Work.relocate_recedes (w : Work) (n identity : Nat) :
    Recedes w.state (w.relocate n identity).state := by
  unfold Work.relocate
  split
  · exact w.withdraw_recedes _ _
  · exact .refl _

theorem Work.admitStation_state (w : Work) (n identity : Nat) :
    (w.admitStation n identity).state =
      ((w.relocate n identity).state.setStation n
        { (w.relocate n identity).state.station n with
          state := .admitted identity, failures := 0 }).placeMessage n (.welcome identity) := rfl

theorem Work.takeAnswer_callsRecede (w : Work) (n : Nat) (response : Word16) :
    CallsRecede w.state (w.takeAnswer n response).state := by
  unfold Work.takeAnswer
  split
  · rename_i identity _ _ _ hn
    split
    · rw [Work.admitStation_state]
      exact (w.relocate_recedes n identity).calls.trans (.of_eq rfl rfl)
    · exact (w.countFailure_recedes identity _ (by rw [hn]; rfl)).calls
  all_goals exact (Recedes.refl _).calls

theorem Work.disableForBabble_callsRecede (w : Work) (n : Nat) :
    CallsRecede w.state (w.disableForBabble n).state := by
  refine CallsRecede.trans
    (t := w.state.setLine n { w.state.line n with condition := .disabled .babble })
    (.of_eq rfl rfl) ?_
  exact ((Work.clearPosition_recedes _ _ _).trans (Work.clearPosition_recedes _ _ _)).calls

end Sys2Proof.Machine
end

section
/-! SUPPORT. The law of the connection table, O52, concluded: the record that CONNECT makes, SET
PRECEDENCE MAP, and the cold restart (R42, R88, R90, R92, R97, R173). -/

namespace Sys2Proof.Machine

/-! ### The law is kept while calls recede -/

theorem TableShrinks.exists_ends {s t : State} (h : TableShrinks s t) {c : Connection}
    (hc : c ∈ t.connections) : ∃ d ∈ s.connections, d.ends = c.ends :=
  List.mem_map.1 (h.subset (List.mem_map_of_mem hc))

theorem TableLaw.of_shrinks {s t : State} (hs : TableLaw s) (h : TableShrinks s t) : TableLaw t := by
  obtain ⟨hids, hdestinations, hrecords⟩ := hs
  refine ⟨?_, ?_, fun c hc => ?_⟩
  · have hends : (s.connections.map Connection.ends).Pairwise fun a b => a.1 < b.1 :=
      List.pairwise_map.2 hids
    have hleft : (t.connections.map Connection.ends).Pairwise fun a b => a.1 < b.1 :=
      hends.sublist h
    exact (List.pairwise_map (f := Connection.ends)).1 hleft
  · have hends : (s.connections.map Connection.ends).Pairwise fun a b => a.2.2.1 ≠ b.2.2.1 :=
      List.pairwise_map.2 hdestinations
    have hleft : (t.connections.map Connection.ends).Pairwise fun a b => a.2.2.1 ≠ b.2.2.1 :=
      hends.sublist h
    exact (List.pairwise_map (f := Connection.ends)).1 hleft
  · obtain ⟨d, hd, hends⟩ := h.exists_ends hc
    simp only [Connection.ends, Prod.mk.injEq] at hends
    obtain ⟨hid, hsource, hdestination, -⟩ := hends
    rw [← hid, ← hsource, ← hdestination]
    exact hrecords d hd

theorem ClassLaw.of_callsRecede {s t : State} (hs : ClassLaw s) (h : CallsRecede s t) :
    ClassLaw t := by
  obtain ⟨hmap, hclasses⟩ := hs
  refine ⟨fun n => ?_, fun c hc => ?_⟩
  · unfold State.classOf
    rw [h.1]
    exact hmap n
  · obtain ⟨d, hd, hends⟩ := h.2.exists_ends hc
    simp only [Connection.ends, Prod.mk.injEq] at hends
    obtain ⟨-, -, -, hcls⟩ := hends
    rw [← hcls]
    exact hclasses d hd

/-- The laws that O52 speaks of. -/
def CallLaws (s : State) : Prop := TableLaw s ∧ ClassLaw s

theorem CallLaws.of_callsRecede {s t : State} (hs : CallLaws s) (h : CallsRecede s t) :
    CallLaws t := ⟨hs.1.of_shrinks h.2, hs.2.of_callsRecede h⟩

theorem CallLaws.keptByReceding : KeptByReceding CallLaws :=
  fun _ _ h hs => hs.of_callsRecede h.calls

/-! ### The record that CONNECT makes (R88, R90, R92, R97) -/

theorem insertConnection_perm (c : Connection) (cs : List Connection) :
    (insertConnection c cs).Perm (c :: cs) := by
  induction cs with
  | nil => exact .refl _
  | cons d ds ih =>
    unfold insertConnection
    split
    · exact .refl _
    · exact (ih.cons d).trans (.swap c d ds)

theorem pairwise_insertConnection {c : Connection} {cs : List Connection}
    (h : cs.Pairwise fun d e => d.id < e.id) (hc : ∀ d ∈ cs, d.id ≠ c.id) :
    (insertConnection c cs).Pairwise fun d e => d.id < e.id := by
  induction cs with
  | nil => exact List.pairwise_singleton _ _
  | cons d ds ih =>
    obtain ⟨hd, hds⟩ := List.pairwise_cons.1 h
    have hne : d.id ≠ c.id := hc d (by simp)
    unfold insertConnection
    split
    · rename_i hlt
      refine List.pairwise_cons.2 ⟨fun e he => ?_, h⟩
      rcases List.mem_cons.1 he with rfl | he
      · exact hlt
      · exact hlt.trans (hd e he)
    · refine List.pairwise_cons.2 ⟨fun e he => ?_, ih hds fun e he => hc e (by simp [he])⟩
      rcases (mem_insertConnection c e ds).1 he with rfl | he
      · omega
      · exact hd e he

/-- While the table holds fewer than 160 records, an id is free (R88). -/
theorem State.exists_lowestFreeId {s : State} (h : s.connections.length < 160) :
    ∃ n, s.lowestFreeId = some n := by
  cases hf : s.lowestFreeId with
  | some n => exact ⟨n, rfl⟩
  | none =>
    have hheld : ∀ n ∈ List.range 160, n ∈ s.connections.map (·.id) := fun n hn => by
      have := List.find?_eq_none.1 hf n hn
      simpa [List.all_eq_true] using this
    have hlen := (List.nodup_range.subperm hheld).length_le
    simp only [List.length_range, List.length_map] at hlen
    omega

/-- What checks 2, 3 and 9 leave of a CONNECT (R92, R93, R95). -/
theorem State.connectRefusal_eq_none {s : State} {r : ConnectRequest}
    (h : s.connectRefusal r = none) :
    (r.source ≤ 175 ∧ r.destination ≤ 159 ∧ r.source ≠ r.destination ∧ r.cls ≤ 3)
      ∧ (∀ c ∈ s.connections, c.destination ≠ r.destination) ∧ s.connections.length < 160 := by
  unfold State.connectRefusal at h
  split at h
  · cases h
  rename_i hrange
  split at h
  · cases h
  rename_i hfeeder
  split at h
  · cases h
  split at h
  · cases h
  split at h
  · cases h
  split at h
  · cases h
  split at h
  · cases h
  rename_i hfull
  refine ⟨?_, fun c hc => ?_, ?_⟩
  · simp only [ConnectRequest.outOfRange, Bool.or_eq_true, decide_eq_true_eq, beq_iff_eq, not_or,
      Nat.not_lt] at hrange
    obtain ⟨⟨⟨⟨hsource, hdestination⟩, hne⟩, hcls⟩, -⟩ := hrange
    exact ⟨hsource, hdestination, hne, hcls⟩
  · have hnone : s.feeder r.destination = none := by simpa using hfeeder
    simpa using List.find?_eq_none.1 hnone c hc
  · exact Nat.lt_of_not_le fun hle => hfull (decide_eq_true hle)

/-- R90: a class of the precedence map, or the class of the order. -/
theorem State.recordedClass_le {s : State} (hs : ClassLaw s) {r : ConnectRequest} (hr : r.cls ≤ 3) :
    s.recordedClass r ≤ 3 := by
  have heffective : ∀ n, s.effectiveClass n ≤ 3 := fun n => hs.1 _
  unfold State.recordedClass
  split
  · split
    · split
      · exact heffective _
      · exact Nat.zero_le _
    · exact hr
  · split
    · exact Nat.max_le.2 ⟨heffective _, heffective _⟩
    · split
      · exact heffective _
      · split
        · exact heffective _
        · exact hr

theorem Work.preempt_foldl_recedes (vs : List Nat) (w : Work) :
    Recedes w.state (vs.foldl Work.preempt w).state := by
  induction vs generalizing w with
  | nil => exact .refl _
  | cons v vs ih => exact (Work.releaseWhere_recedes w _ _).trans (ih _)

/-- A record with a free id, whose destination nothing feeds, put into a table that is in order. -/
theorem CallLaws.makeConnection {w : Work} (hw : CallLaws w.state) (r : ConnectRequest)
    {c : Connection} (hid : c.id < 160) (hfree : ∀ d ∈ w.state.connections, d.id ≠ c.id)
    (hfed : ∀ d ∈ w.state.connections, d.destination ≠ c.destination) (hsource : c.source < 176)
    (hdestination : c.destination < 160) (hne : c.source ≠ c.destination) (hcls : c.cls ≤ 3) :
    CallLaws (w.makeConnection r c).state := by
  obtain ⟨⟨hids, hdestinations, hrecords⟩, hmap, hclasses⟩ := hw
  have hprecedence : (w.makeConnection r c).state.precedenceMap = w.state.precedenceMap := by
    rw [w.makeConnection_onlyCalls r c]
  refine ⟨⟨?_, ?_, fun d hd => ?_⟩, fun n => ?_, fun d hd => ?_⟩
  · rw [Work.makeConnection_connections]
    exact pairwise_insertConnection hids hfree
  · rw [Work.makeConnection_connections,
      (insertConnection_perm c _).pairwise_iff (fun h => Ne.symm h)]
    exact List.pairwise_cons.2 ⟨fun d hd => (hfed d hd).symm, hdestinations⟩
  · rw [Work.makeConnection_connections] at hd
    rcases (mem_insertConnection c d _).1 hd with rfl | hd
    · exact ⟨hid, hsource, hdestination, hne⟩
    · exact hrecords d hd
  · unfold State.classOf
    rw [hprecedence]
    exact hmap n
  · rw [Work.makeConnection_connections] at hd
    rcases (mem_insertConnection c d _).1 hd with rfl | hd
    · exact hcls
    · exact hclasses d hd

theorem connectTake_keepsCallLaws (r : ConnectRequest) {s : State} (hs : CallLaws s) :
    (connectTake r s).Leaves CallLaws := by
  unfold connectTake
  split
  · trivial
  rename_i hchecks
  split
  · trivial
  rename_i victims _
  obtain ⟨⟨hsource, hdestination, hne, hcls⟩, hfed, hlen⟩ := State.connectRefusal_eq_none hchecks
  have hrecede := (Work.preempt_foldl_recedes victims (Work.start s)).calls
  generalize victims.foldl Work.preempt (Work.start s) = w at hrecede
  have hlen' : w.state.connections.length < 160 := by
    have := hrecede.2.length_le
    simp only [List.length_map, Work.start_state] at this
    omega
  obtain ⟨n, hn⟩ := State.exists_lowestFreeId hlen'
  obtain ⟨hlt, hfree, -⟩ := State.lowestFreeId_eq_some hn
  have hid : (w.state.newConnection r (s.recordedClass r)).id = n := by
    simp [State.newConnection, hn]
  refine CallLaws.makeConnection (hs.of_callsRecede hrecede) r (by rwa [hid])
    (fun d hd => by rw [hid]; exact hfree d hd) (fun d hd => ?_) (Nat.lt_succ_of_le hsource)
    (Nat.lt_succ_of_le hdestination) hne (State.recordedClass_le hs.2 hcls)
  obtain ⟨d', hd', hends⟩ := hrecede.2.exists_ends hd
  simp only [Connection.ends, Prod.mk.injEq] at hends
  obtain ⟨-, -, hdest, -⟩ := hends
  rw [← hdest]
  exact hfed d' hd'

/-! ### The precedence map and the cold restart (R42, R173) -/

/-- SET PRECEDENCE MAP stores classes 0 to 3 (R42). -/
theorem CallLaws.setPrecedenceMap {s : State} (hs : CallLaws s) {params : List Byte}
    (h : (params.any fun b => decide (3 < b.toNat)) = false) :
    CallLaws { s with precedenceMap := Vector.ofFn fun i : Fin 8 => param1 params i.val } := by
  obtain ⟨htable, hmap, hclasses⟩ := hs
  refine ⟨htable, fun n => ?_, hclasses⟩
  have hparam : ∀ i, param1 params i ≤ 3 := fun i => by
    unfold param1 paramByte
    by_cases hi : i < params.length
    · have := List.any_eq_false.1 h params[i] (List.getElem_mem hi)
      simpa [List.getD, hi] using this
    · simp [List.getD, hi]
  unfold State.classOf
  by_cases hn : n < 8
  · simpa [hn] using hparam n
  · simp [hn]

theorem State.startCold_callLaws (s : State) (cause : RestartCause) :
    CallLaws (s.startCold cause) :=
  CallLaws.of_callsRecede ⟨TableLaw.reset, ClassLaw.reset⟩
    (CallsRecede.of_eq (s := State.reset) rfl rfl)

/-! ### Every command -/

/-- A row by whose own answers calls recede. -/
theorem callLaws_of_take {i : Instr} {mine : OrderRecord → Bool} {codes : List Byte → Bool}
    {authority : Authority} {body : Port → List Byte → State → Answer}
    (meaning : State → Host.Outcome State Fault Refusal) (hexec : ∀ s, exec i s = meaning s)
    (htake : ∀ s, meaning s = takeOrder mine codes authority body s)
    (hbody : ∀ p params u, (body p params u).Leaves (CallsRecede u)) : KeepingRow CallLaws i :=
  keepingRow_of_take CallLaws.keptByReceding meaning hexec htake
    fun p o u _ _ hu => (hbody p o.params u).imp fun _ => hu.of_callsRecede

theorem State.mapEntry_callsRecede (s : State) (identity : Nat)
    (f : DirectoryEntry → DirectoryEntry) : CallsRecede s (s.mapEntry identity f) := .of_eq rfl rfl

theorem setPrecedenceMap_keepsCallLaws : KeepingRow CallLaws .setPrecedenceMap :=
  keepingRow_of_take CallLaws.keptByReceding execSetPrecedenceMap (fun _ => rfl) (fun _ => rfl)
    fun _ o u _ _ hu => by
      dsimp only
      split
      · trivial
      · rename_i hclasses
        exact hu.setPrecedenceMap (Bool.eq_false_iff.2 hclasses)

theorem connect_keepsCallLaws : KeepingRow CallLaws .connect :=
  keepingRow_of_take CallLaws.keptByReceding execConnect (fun _ => rfl) (fun _ => rfl)
    fun _ o _ _ _ hu => connectTake_keepsCallLaws (connectRequest o.params) hu

theorem callLaws_advance {i : Instr} (hi : MayAdvance i) : KeepingRow CallLaws i := by
  have hcold := keepingRow_cold CallLaws.keptByReceding State.startCold_callLaws
  cases i
  case enter =>
    exact callLaws_of_take execEnter (fun _ => rfl) (fun _ => rfl)
      fun _ params u => enterEntry_callsRecede params u
  case remove =>
    exact callLaws_of_take execRemove (fun _ => rfl) (fun _ => rfl)
      fun _ params u => removeEntry_callsRecede (param2 params 0) u
  case setSecret =>
    exact callLaws_of_take execSetSecret (fun _ => rfl) (fun _ => rfl)
      fun _ _ u => onEntry_leaves fun _ _ => u.mapEntry_callsRecede _ _
  case amend =>
    exact callLaws_of_take execAmend (fun _ => rfl) (fun _ => rfl)
      fun _ params u => amendEntry_callsRecede params u
  case suspend =>
    exact callLaws_of_take execSuspend (fun _ => rfl) (fun _ => rfl)
      fun _ params u => suspendEntry_callsRecede (param2 params 0) u
  case resume =>
    exact callLaws_of_take execResume (fun _ => rfl) (fun _ => rfl)
      fun _ _ u => onEntry_leaves fun _ _ => u.mapEntry_callsRecede _ _
  case setPort =>
    exact callLaws_of_take execSetPort (fun _ => rfl) (fun _ => rfl)
      fun _ params u => setPortSettings_callsRecede params u
  case deliver =>
    exact callLaws_of_take execDeliver (fun _ => rfl) (fun _ => rfl)
      fun _ _ u => deliverTo_callsRecede _ _ u
  case setPrecedenceMap => exact setPrecedenceMap_keepsCallLaws
  case connect => exact connect_keepsCallLaws
  case register n identity =>
    exact keepingRow_register CallLaws.keptByReceding
      (fun s n identity _ _ hs =>
        hs.of_callsRecede ((Work.start s).takeRegister_callsRecede n identity)) n identity
  case answer n response =>
    exact keepingRow_answer CallLaws.keptByReceding
      (fun w n response _ hw => hw.of_callsRecede (w.takeAnswer_callsRecede n response)) n response
  case babble n =>
    exact keepingRow_babble CallLaws.keptByReceding
      (fun w n _ hw => hw.of_callsRecede (w.disableForBabble_callsRecede n)) n
  case restartCold => exact hcold.1
  case powerOn => exact hcold.2.1
  case resetPin => exact hcold.2.2
  all_goals exact hi.elim

/-- Settles O52: the tables recede by every command, or a row of `callLaws_advance` keeps its laws. -/
theorem everyStepKeepsTheConnectionTableLaw :
    Obligations.EveryStepKeepsTheConnectionTableLaw := by
  unfold Obligations.EveryStepKeepsTheConnectionTableLaw
  intro s t hs h
  exact step_keeps CallLaws.keptByReceding (fun _ => callLaws_advance) hs h

end Sys2Proof.Machine
end

section
/-! SUPPORT. The law of the directory, O56: what ENTER, REMOVE, AMEND and the orders that change one
field of an entry do to it; every other command leaves the directory, or empties it at a cold restart
(R30, R32 to R37, R173). -/

namespace Sys2Proof.Machine

/-! ### Legal entries -/

/-- R30: the fields of an entry are legal. -/
def DirectoryEntry.Legal (e : DirectoryEntry) : Prop :=
  1 ≤ e.identity ∧ e.identity ≤ 9999 ∧ (∀ n ∈ e.precedence, n ≤ 7)
    ∧ ∀ ports ∈ e.homePorts, ports ≠ [] ∧ ports.length ≤ 4
        ∧ ports.Pairwise (· < ·) ∧ ∀ n ∈ ports, n ≤ 47

theorem directoryLaw_iff (s : State) :
    DirectoryLaw s ↔ s.directory.Pairwise (fun d e => d.identity < e.identity)
      ∧ s.directory.length ≤ 256 ∧ ∀ e ∈ s.directory, e.Legal := .rfl

theorem DirectoryLaw.of_directory {s t : State} (hs : DirectoryLaw s)
    (h : t.directory = s.directory) : DirectoryLaw t := by
  unfold DirectoryLaw
  rw [h]
  exact hs

theorem DirectoryLaw.keptByReceding : KeptByReceding DirectoryLaw :=
  fun _ _ h hs => hs.of_directory h.directory

theorem DirectoryLaw.of_empty {s : State} (h : s.directory = []) : DirectoryLaw s := by
  simp [directoryLaw_iff, h]

/-- An entry changed in place, which keeps its identity and stays legal. -/
theorem DirectoryLaw.mapEntry {s : State} (hs : DirectoryLaw s) (identity : Nat)
    {f : DirectoryEntry → DirectoryEntry} (hid : ∀ e, (f e).identity = e.identity)
    (hlegal : ∀ e, e.Legal → (f e).Legal) : DirectoryLaw (s.mapEntry identity f) := by
  obtain ⟨hsorted, hlength, hentries⟩ := (directoryLaw_iff s).1 hs
  refine (directoryLaw_iff _).2 ⟨?_, ?_, fun e he => ?_⟩
  · have hids : ∀ e : DirectoryEntry,
        (if e.identity == identity then f e else e).identity = e.identity := fun e => by
      split
      · exact hid e
      · rfl
    refine List.pairwise_map.2 (hsorted.imp fun hlt => ?_)
    rw [hids, hids]
    exact hlt
  · simpa [State.mapEntry] using hlength
  · obtain ⟨d, hd, rfl⟩ := List.mem_map.1 he
    split
    · exact hlegal d (hentries d hd)
    · exact hentries d hd

/-! ### The home ports of an order -/

/-- R177: an ENTER or AMEND carries at most 4 home ports. -/
theorem homePortParams_length_le {o : OrderRecord} (h : ofCode 0x10 o = true ∨ ofCode 0x13 o = true)
    (hl : lengthFits o = true) : (homePortParams o.params).length ≤ 4 := by
  have hlengths : orderLengths o.code = some (9, 13) := by
    rcases h with h | h <;> rw [eq_of_beq h] <;> rfl
  unfold lengthFits at hl
  rw [hlengths] at hl
  simp only [Bool.and_eq_true, decide_eq_true_eq] at hl
  have hle := hl.2
  simp only [homePortParams, List.length_map, List.length_drop]
  omega

/-- R32: up to 4 port numbers to 47 make a legal list. -/
theorem homePortsOf_legal {ns ports : List Nat} (hlength : ns.length ≤ 4) (hle : ∀ n ∈ ns, n ≤ 47)
    (h : homePortsOf ns = some ports) :
    ports ≠ [] ∧ ports.length ≤ 4 ∧ ports.Pairwise (· < ·) ∧ ∀ n ∈ ports, n ≤ 47 := by
  obtain ⟨hne, hsorted, hmem⟩ := homePortsOf_spec ns ports h
  refine ⟨?_, ?_, hsorted, fun n hn => hle n ((hmem n).1 hn)⟩
  · rintro rfl
    obtain ⟨n, hn⟩ := List.exists_mem_of_ne_nil ns hne
    exact absurd ((hmem n).2 hn) List.not_mem_nil
  · have hnodup : ports.Nodup := hsorted.imp fun hlt => hlt.ne
    exact ((hnodup.subperm fun n hn => (hmem n).1 hn).length_le).trans hlength

theorem identityInRange_iff (identity : Nat) :
    identityInRange identity = true ↔ 1 ≤ identity ∧ identity ≤ 9999 := by
  simp [identityInRange]

theorem flagSet_eq (b : Byte) : flagSet b = (b == 1) := rfl

/-! ### ENTER (R32) -/

theorem insertEntry_perm (e : DirectoryEntry) (es : List DirectoryEntry) :
    (insertEntry e es).Perm (e :: es) := by
  induction es with
  | nil => exact .refl _
  | cons d ds ih =>
    unfold insertEntry
    split
    · exact .refl _
    · exact (ih.cons d).trans (.swap e d ds)

theorem pairwise_insertEntry {e : DirectoryEntry} {es : List DirectoryEntry}
    (h : es.Pairwise fun c d => c.identity < d.identity) (he : ∀ d ∈ es, d.identity ≠ e.identity) :
    (insertEntry e es).Pairwise fun c d => c.identity < d.identity := by
  rw [insertEntry_eq e es h he]
  refine List.pairwise_append.2 ⟨h.filter _, List.pairwise_cons.2 ⟨?_, h.filter _⟩, ?_⟩
  · simp
  · intro c hc d hd
    simp only [List.mem_filter, List.mem_cons, decide_eq_true_eq] at hc hd
    rcases hd with rfl | hd
    · exact hc.2
    · exact hc.2.trans hd.2

/-- An identity is not present exactly when no entry has it. -/
theorem State.entry_eq_none_iff (s : State) (identity : Nat) :
    s.entry identity = none ↔ ∀ e ∈ s.directory, e.identity ≠ identity := by
  simp [State.entry, List.find?_eq_none]

theorem State.entry_eq_some {s : State} {identity : Nat} {e : DirectoryEntry}
    (h : s.entry identity = some e) : e ∈ s.directory ∧ e.identity = identity :=
  ⟨List.mem_of_find?_eq_some h, by simpa using List.find?_some h⟩

theorem DirectoryLaw.insert {s : State} (hs : DirectoryLaw s) {e : DirectoryEntry} (he : e.Legal)
    (hnew : s.entry e.identity = none) (hroom : s.directory.length < 256) :
    DirectoryLaw { s with directory := insertEntry e s.directory } := by
  obtain ⟨hsorted, -, hentries⟩ := (directoryLaw_iff s).1 hs
  have hperm := insertEntry_perm e s.directory
  refine (directoryLaw_iff _).2 ⟨?_, ?_, fun d hd => ?_⟩
  · exact pairwise_insertEntry hsorted ((s.entry_eq_none_iff _).1 hnew)
  · rw [hperm.length_eq, List.length_cons]
    exact hroom
  · rcases List.mem_cons.1 (hperm.mem_iff.1 hd) with rfl | hd
    · exact he
    · exact hentries d hd

theorem enteredEntry_legal {params : List Byte} (hlength : (homePortParams params).length ≤ 4)
    (h : (!identityInRange (enteredEntry params).identity
      || decide (7 < (enteredEntry params).precedence.getD 0)
      || (homePortParams params).any (fun n => decide (47 < n))) = false) :
    (enteredEntry params).Legal := by
  simp only [Bool.or_eq_false_iff, Bool.not_eq_false', identityInRange_iff, decide_eq_false_iff_not,
    Nat.not_lt, List.any_eq_false, decide_eq_true_eq] at h
  obtain ⟨⟨⟨hlow, hhigh⟩, hprecedence⟩, hports⟩ := h
  refine ⟨hlow, hhigh, fun n hn => ?_, fun ports hp => ?_⟩
  · rw [Option.mem_def.1 hn] at hprecedence
    exact hprecedence
  · exact homePortsOf_legal hlength hports hp

theorem enter_keepsDirectoryLaw : KeepingRow DirectoryLaw .enter :=
  keepingRow_of_take DirectoryLaw.keptByReceding execEnter (fun _ => rfl) (fun _ => rfl)
    fun _ o u hm hl hu => by
      unfold enterEntry
      dsimp only
      split
      · trivial
      rename_i hrange
      split
      · trivial
      rename_i hnew
      split
      · trivial
      rename_i hroom
      exact hu.insert (enteredEntry_legal (homePortParams_length_le (.inl hm) hl)
        (Bool.eq_false_iff.2 hrange)) (by simpa using hnew)
        (Nat.lt_of_not_le fun hle => hroom (decide_eq_true hle))

/-! ### The other orders of the directory -/

theorem remove_keepsDirectoryLaw : KeepingRow DirectoryLaw .remove :=
  keepingRow_of_take DirectoryLaw.keptByReceding execRemove (fun _ => rfl) (fun _ => rfl)
    fun _ o u _ _ hu => onEntry_leaves fun _ _ => by
      obtain ⟨hsorted, hlength, hentries⟩ := (directoryLaw_iff u).1 hu
      have hdropped : DirectoryLaw (u.dropEntry (param2 o.params 0)) :=
        (directoryLaw_iff _).2 ⟨hsorted.filter _, (List.length_filter_le _ _).trans hlength,
          fun e he => hentries e (List.mem_of_mem_filter he)⟩
      exact hdropped.of_directory ((Work.start _).retireIdentity_recedes .removed _).directory

theorem setSecret_keepsDirectoryLaw : KeepingRow DirectoryLaw .setSecret :=
  keepingRow_of_take DirectoryLaw.keptByReceding execSetSecret (fun _ => rfl) (fun _ => rfl)
    fun _ _ _ _ _ hu => onEntry_leaves fun _ _ => hu.mapEntry _ (fun _ => rfl) fun _ he => he

theorem suspend_keepsDirectoryLaw : KeepingRow DirectoryLaw .suspend :=
  keepingRow_of_take DirectoryLaw.keptByReceding execSuspend (fun _ => rfl) (fun _ => rfl)
    fun _ o u _ _ hu => onEntry_leaves fun _ _ => by
      split
      · exact hu
      · have hmapped : DirectoryLaw (u.mapEntry (param2 o.params 0) fun e => { e with suspended := true }) :=
          hu.mapEntry _ (fun _ => rfl) fun _ he => he
        exact hmapped.of_directory ((Work.start _).retireIdentity_recedes .suspended _).directory

theorem resume_keepsDirectoryLaw : KeepingRow DirectoryLaw .resume :=
  keepingRow_of_take DirectoryLaw.keptByReceding execResume (fun _ => rfl) (fun _ => rfl)
    fun _ _ _ _ _ hu => onEntry_leaves fun _ _ => hu.mapEntry _ (fun _ => rfl) fun _ he => he

/-- The values an AMEND puts into an entry are legal (R37). -/
theorem amendedEntry_legal {params : List Byte} (hlength : (homePortParams params).length ≤ 4)
    (h : (!identityInRange (param2 params 0)
      || (flagSet (paramByte params 2) && decide (7 < param1 params 3))
      || (flagSet (paramByte params 8) && (homePortParams params).any (fun n => decide (47 < n))))
        = false) {e : DirectoryEntry} (he : e.Legal) : (amendedEntry params e).Legal := by
  simp only [Bool.or_eq_false_iff, Bool.and_eq_false_iff, flagSet_eq, beq_eq_false_iff_ne,
    decide_eq_false_iff_not, Nat.not_lt, List.any_eq_false, decide_eq_true_eq] at h
  obtain ⟨⟨-, hprecedence⟩, hports⟩ := h
  obtain ⟨hlow, hhigh, hlevel, hhomes⟩ := he
  refine ⟨hlow, hhigh, fun n hn => ?_, fun ports hp => ?_⟩
  · simp only [amendedEntry] at hn
    split at hn
    · rename_i hset
      obtain rfl := Option.some.inj hn
      exact hprecedence.resolve_left (absurd hset)
    · split at hn
      · cases hn
      · exact hlevel n hn
  · simp only [amendedEntry] at hp
    split at hp
    · rename_i hset
      exact homePortsOf_legal hlength (hports.resolve_left (absurd hset)) hp
    · split at hp
      · cases hp
      · exact hhomes ports hp

theorem amend_keepsDirectoryLaw : KeepingRow DirectoryLaw .amend :=
  keepingRow_of_take DirectoryLaw.keptByReceding execAmend (fun _ => rfl) (fun _ => rfl)
    fun _ o u hm hl hu => by
      unfold amendEntry
      dsimp only
      split
      · trivial
      rename_i hrange
      split
      · trivial
      have hlegal := fun e => amendedEntry_legal (e := e)
        (homePortParams_length_le (.inr hm) hl) (Bool.eq_false_iff.2 hrange)
      have hmapped : DirectoryLaw (u.mapEntry (param2 o.params 0) (amendedEntry o.params)) :=
        hu.mapEntry _ (fun _ => rfl) hlegal
      exact hmapped.of_directory (amendWork_recedes o.params _ _).directory

/-! ### The commands that leave the directory -/

theorem setPort_keepsDirectoryLaw : KeepingRow DirectoryLaw .setPort :=
  keepingRow_of_take DirectoryLaw.keptByReceding execSetPort (fun _ => rfl) (fun _ => rfl)
    fun _ o u _ _ hu => setPortSettings_leaves o.params u fun w hw => by
      rw [hw]
      exact hu.of_directory (Work.clearPositions_recedes _ _ _).directory

theorem deliver_keepsDirectoryLaw : KeepingRow DirectoryLaw .deliver :=
  keepingRow_of_take DirectoryLaw.keptByReceding execDeliver (fun _ => rfl) (fun _ => rfl)
    fun _ _ _ _ _ hu => by
      unfold deliverTo
      split
      · trivial
      · split
        · trivial
        · split
          · trivial
          · exact hu

theorem setPrecedenceMap_keepsDirectoryLaw : KeepingRow DirectoryLaw .setPrecedenceMap :=
  keepingRow_of_take DirectoryLaw.keptByReceding execSetPrecedenceMap (fun _ => rfl) (fun _ => rfl)
    fun _ _ _ _ _ hu => by
      dsimp only
      split
      · trivial
      · exact hu

theorem connect_keepsDirectoryLaw : KeepingRow DirectoryLaw .connect :=
  keepingRow_of_take DirectoryLaw.keptByReceding execConnect (fun _ => rfl) (fun _ => rfl)
    fun _ _ u _ _ hu => by
      unfold connectTake
      split
      · trivial
      · split
        · trivial
        · rename_i victims _
          have hmade := fun r c => congrArg State.directory
            ((victims.foldl Work.preempt (Work.start u)).makeConnection_onlyCalls r c)
          exact hu.of_directory
            ((hmade _ _).trans (Work.preempt_foldl_recedes victims (Work.start u)).directory)

theorem Work.takeRegister_directory (w : Work) (n identity : Nat) :
    (w.takeRegister n identity).state.directory = w.state.directory := by
  rcases w.takeRegister_cases n identity with h | ⟨v, e, hv, -, -, -, -, heq⟩
  · exact h.directory
  · obtain ⟨_, _, _, _, hissued⟩ := v.issueChallenge_state n identity e
    rw [heq, hissued]
    exact hv.directory

theorem Work.takeAnswer_directory (w : Work) (n : Nat) (response : Word16) :
    (w.takeAnswer n response).state.directory = w.state.directory := by
  unfold Work.takeAnswer
  split
  · rename_i identity _ _ _ hn
    split
    · rw [Work.admitStation_state]
      exact (w.relocate_recedes n identity).directory
    · exact (w.countFailure_recedes identity _ (by rw [hn]; rfl)).directory
  all_goals rfl

theorem Work.disableForBabble_directory (w : Work) (n : Nat) :
    (w.disableForBabble n).state.directory = w.state.directory :=
  ((Work.clearPosition_recedes _ _ _).trans (Work.clearPosition_recedes _ _ _)).directory

theorem directoryLaw_advance {i : Instr} (hi : MayAdvance i) : KeepingRow DirectoryLaw i := by
  have hcold := keepingRow_cold DirectoryLaw.keptByReceding
    fun s cause => .of_empty (s.startCold_directory cause)
  cases i
  case enter => exact enter_keepsDirectoryLaw
  case remove => exact remove_keepsDirectoryLaw
  case setSecret => exact setSecret_keepsDirectoryLaw
  case amend => exact amend_keepsDirectoryLaw
  case suspend => exact suspend_keepsDirectoryLaw
  case resume => exact resume_keepsDirectoryLaw
  case setPrecedenceMap => exact setPrecedenceMap_keepsDirectoryLaw
  case setPort => exact setPort_keepsDirectoryLaw
  case deliver => exact deliver_keepsDirectoryLaw
  case connect => exact connect_keepsDirectoryLaw
  case register n identity =>
    exact keepingRow_register DirectoryLaw.keptByReceding
      (fun s n identity _ _ hs =>
        hs.of_directory ((Work.start s).takeRegister_directory n identity)) n identity
  case answer n response =>
    exact keepingRow_answer DirectoryLaw.keptByReceding
      (fun w n response _ hw => hw.of_directory (w.takeAnswer_directory n response)) n response
  case babble n =>
    exact keepingRow_babble DirectoryLaw.keptByReceding
      (fun w n _ hw => hw.of_directory (w.disableForBabble_directory n)) n
  case restartCold => exact hcold.1
  case powerOn => exact hcold.2.1
  case resetPin => exact hcold.2.2
  all_goals exact hi.elim

/-- Settles O56: the directory stands, or a row of `directoryLaw_advance` keeps its law. The law of the
queues is not needed: R177 bounds the home ports by the length of the order. -/
theorem everyStepKeepsTheDirectoryInOrder : Obligations.EveryStepKeepsTheDirectoryInOrder := by
  unfold Obligations.EveryStepKeepsTheDirectoryInOrder
  rintro s t ⟨-, hs⟩ h
  exact step_keeps DirectoryLaw.keptByReceding (fun _ => directoryLaw_advance) hs h

end Sys2Proof.Machine
end

section
/-! SUPPORT. The laws of admission, O57: what withdrawals, abandonments and the clearing of positions
leave of the stations that have an identity, and what a challenge and an admission put there (R39, R44,
R49, R56, R58 to R61). -/

namespace Sys2Proof.Machine

/-! ### The laws, by station -/

/-- R39, R44, R93: the identity is present, ENABLED and at home at the position, on a port that serves
it. -/
def State.HomeAt (s : State) (n identity : Nat) : Prop :=
  (∃ e, s.entry identity = some e ∧ e.suspended = false ∧ e.admitsLine (n / 2) = true)
    ∧ (s.line (n / 2)).condition = .enabled
    ∧ (n % 2 = 1 → (s.line (n / 2)).pairing = true)

/-- The laws that O57 speaks of. -/
def AdmissionLaws (s : State) : Prop := AdmissionLaw s ∧ DeliverLaw s

theorem admissionLaw_iff (s : State) :
    AdmissionLaw s ↔ (∀ n identity, (s.station n).state.identity = some identity → s.HomeAt n identity)
      ∧ ∀ n m identity, (s.station n).state = .admitted identity →
        (s.station m).state = .admitted identity → n = m := by
  simp only [AdmissionLaw, State.HomeAt, StationState.concerns_iff]

theorem AdmissionLaws.home {s : State} (hs : AdmissionLaws s) {n identity : Nat}
    (h : (s.station n).state.identity = some identity) : s.HomeAt n identity :=
  ((admissionLaw_iff s).1 hs.1).1 n identity h

theorem AdmissionLaws.unique {s : State} (hs : AdmissionLaws s) {n m identity : Nat}
    (hn : (s.station n).state = .admitted identity) (hm : (s.station m).state = .admitted identity) :
    n = m := hs.1.2 n m identity hn hm

/-- Only an ADMITTED station has messages to deliver (R56). -/
theorem AdmissionLaws.deliver_eq_nil {s : State} (hs : AdmissionLaws s) {n : Nat}
    (h : (s.station n).state.admittedIdentity = none) : (s.station n).deliver = [] := by
  by_contra hne
  obtain ⟨identity, hadmitted⟩ := (hs.2 n).2 hne
  rw [hadmitted] at h
  cases h

/-- The law of admission reads of a station its state alone. -/
theorem AdmissionLaw.of_states {s t : State} (hs : AdmissionLaw s)
    (hstates : ∀ n identity, (t.station n).state.identity = some identity →
      (t.station n).state = (s.station n).state)
    (hhome : ∀ n identity, (t.station n).state.identity = some identity →
      s.HomeAt n identity → t.HomeAt n identity) : AdmissionLaw t := by
  obtain ⟨hhomes, hunique⟩ := (admissionLaw_iff s).1 hs
  refine (admissionLaw_iff t).2 ⟨fun n identity h => ?_, fun n m identity hn hm => ?_⟩
  · exact hhome n identity h (hhomes n identity (hstates n identity h ▸ h))
  · have hkept : ∀ k, (t.station k).state = .admitted identity →
        (s.station k).state = .admitted identity := fun k hk =>
      (hstates k identity (by rw [hk]; rfl)).symm.trans hk
    exact hunique n m identity (hkept n hn) (hkept m hm)

theorem DeliverLaw.of_stationsRecede {s t : State} (hs : DeliverLaw s)
    (h : ∀ n, (s.station n).Recedes (t.station n)) : DeliverLaw t := by
  intro n
  obtain ⟨hlength, hadmitted⟩ := hs n
  obtain ⟨hsuffix, hstate⟩ := h n
  refine ⟨hsuffix.length_le.trans hlength, fun hne => ?_⟩
  have hold : (s.station n).deliver ≠ [] := fun he => hne (List.suffix_nil.1 (he ▸ hsuffix))
  obtain ⟨identity, hs'⟩ := hadmitted hold
  rcases hstate with hsame | ⟨-, hnone | hempty⟩
  · exact ⟨identity, hsame.trans hs'⟩
  · rw [hs'] at hnone
    cases hnone
  · exact absurd hempty hne

/-- Stations recede, and where one keeps an identity, the identity keeps its home there. -/
theorem AdmissionLaws.of_stationsRecede {s t : State} (hs : AdmissionLaws s)
    (h : ∀ n, (s.station n).Recedes (t.station n))
    (hhome : ∀ n identity, (t.station n).state.identity = some identity →
      s.HomeAt n identity → t.HomeAt n identity) : AdmissionLaws t :=
  ⟨hs.1.of_states (fun n _ hi => (h n).identity hi) hhome, hs.2.of_stationsRecede h⟩

/-- A home is read in the directory and the settings of the line ports. -/
theorem State.HomeAt.of_eq {s t : State} {n identity : Nat} (h : s.HomeAt n identity)
    (hd : t.directory = s.directory)
    (hl : (t.line (n / 2)).condition = (s.line (n / 2)).condition
      ∧ (t.line (n / 2)).pairing = (s.line (n / 2)).pairing) : t.HomeAt n identity := by
  unfold State.HomeAt State.entry
  rw [hd, hl.1, hl.2]
  exact h

theorem AdmissionLaws.keptByReceding : KeptByReceding AdmissionLaws :=
  fun _ _ h hs => hs.of_stationsRecede h.stations
    fun n _ _ hhome => hhome.of_eq h.directory (h.lines (n / 2))

/-! ### What the requests of the directory leave -/

/-- A position with no identity has none after the tables recede. -/
theorem Recedes.identity_none {s t : State} (h : Recedes s t) {n : Nat}
    (hn : (s.station n).state.identity = none) : (t.station n).state.identity = none := by
  rcases (h.stations n).2 with hsame | ⟨hnone, -⟩
  · rw [hsame]
    exact hn
  · exact hnone

theorem State.lt_of_identity {s : State} {n identity : Nat}
    (h : (s.station n).state.identity = some identity) : n < 96 := by
  by_contra hge
  rw [s.station_of_ge (Nat.le_of_not_lt hge)] at h
  cases h

/-- Where an identity is ADMITTED at one position, admitted-at is that position (R30). -/
theorem State.admittedAt_of_admitted {s : State} {n identity : Nat}
    (hn : (s.station n).state = .admitted identity)
    (hunique : ∀ m, (s.station m).state = .admitted identity → m = n) :
    s.admittedAt identity = some n := by
  have hlt : n < 96 := State.lt_of_identity (by rw [hn]; rfl)
  cases hfound : s.admittedAt identity with
  | none =>
    have hno := List.find?_eq_none.1 hfound n (List.mem_range.2 hlt)
    rw [hn] at hno
    exact absurd (beq_self_eq_true _) hno
  | some m =>
    have hm := List.find?_some hfound
    rw [beq_iff_eq, StationState.admittedIdentity_eq_some] at hm
    rw [hunique m hm]

theorem Work.withdraw_identity_none (w : Work) (r : ReleaseReason) {n identity : Nat}
    (hn : (w.state.station n).state = .admitted identity) :
    ((w.withdraw r n).state.station n).state.identity = none := by
  have hlt : n < 96 := State.lt_of_identity (by rw [hn]; rfl)
  rw [w.withdraw_station r hlt, hn]
  simp [Station.withdrawn, StationState.identity]

theorem Work.abandon_challengedIdentity (w : Work) (r : RefusalReason) (n : Nat) :
    ((w.abandon r n).state.station n).state.challengedIdentity = none := by
  cases hs : (w.state.station n).state with
  | challenged i v x d =>
    have hlt : n < 96 := State.lt_of_identity (by rw [hs]; rfl)
    rw [w.abandon_challenged r hlt hs]
    simp [State.station_setStation_same _ hlt, StationState.challengedIdentity]
  | vacant | admitted | holdOff | locked =>
    rw [w.abandon_other r n (by rw [hs]; rfl), hs]
    rfl

/-- After the challenges of an identity at the selected positions are abandoned, none is left there. -/
theorem Work.abandonIdentity_challengedIdentity (w : Work) (r : RefusalReason) (identity : Nat)
    {selects : Nat → Bool} {n : Nat} (hn : selects n = true) :
    ((w.abandonIdentity r identity selects).state.station n).state.challengedIdentity
      ≠ some identity := by
  have hkept : ∀ (v u : Work), Recedes v.state u.state →
      (v.state.station n).state.challengedIdentity ≠ some identity →
      (u.state.station n).state.challengedIdentity ≠ some identity := by
    intro v u hrecede hv hu
    have hidentity : (u.state.station n).state.identity = some identity := by
      cases hs : (u.state.station n).state <;>
        simp_all [StationState.challengedIdentity, StationState.identity]
    rw [(hrecede.stations n).identity hidentity] at hu
    exact hv hu
  have hfold : ∀ (ns : List Nat) (v : Work),
      (n ∈ ns ∨ (v.state.station n).state.challengedIdentity ≠ some identity) →
      (((ns.foldl (fun w n => w.abandon r n) v)).state.station n).state.challengedIdentity
        ≠ some identity := by
    intro ns
    induction ns with
    | nil => exact fun v h => h.resolve_left List.not_mem_nil
    | cons m ns ih =>
      intro v h
      refine ih _ ?_
      rcases h with h | h
      · rcases List.mem_cons.1 h with rfl | h
        · right
          rw [v.abandon_challengedIdentity r n]
          exact nofun
        · exact .inl h
      · exact .inr (hkept v _ (v.abandon_recedes r m) h)
  refine hfold _ w ?_
  by_cases hc : (w.state.station n).state.challengedIdentity = some identity
  · left
    have hlt : n < 96 := State.lt_of_identity (identity := identity) (by
      cases hs : (w.state.station n).state <;>
        simp_all [StationState.challengedIdentity, StationState.identity])
    exact List.mem_filter.2 ⟨List.mem_range.2 hlt, by rw [hc, hn]; simp⟩
  · exact .inr hc

/-- A station that has an identity has it ADMITTED or CHALLENGED. -/
theorem StationState.identity_ne_of {state : StationState} {identity : Nat}
    (hadmitted : state ≠ .admitted identity) (hchallenged : state.challengedIdentity ≠ some identity) :
    state.identity ≠ some identity :=
  fun h => hchallenged (StationState.challengedIdentity_of_identity h hadmitted)

/-- The two requests of REMOVE and SUSPEND leave no station with the identity (R39). -/
theorem Work.retireIdentity_identity (w : Work) (r : ReleaseReason) {identity : Nat}
    (hunique : ∀ n m, (w.state.station n).state = .admitted identity →
      (w.state.station m).state = .admitted identity → n = m) (n : Nat) :
    ((w.retireIdentity r identity).state.station n).state.identity ≠ some identity := by
  refine StationState.identity_ne_of (fun hn => ?_)
    (Work.abandonIdentity_challengedIdentity _ _ identity rfl)
  have hwithdrawn : ((w.withdrawIdentity r identity).state.station n).state = .admitted identity :=
    (((Work.abandonIdentity_recedes _ _ _ _).stations n).identity
      (congrArg StationState.identity hn)).symm.trans hn
  have hfirst : (w.state.station n).state = .admitted identity :=
    (((w.withdrawIdentity_recedes r identity).stations n).identity
      (congrArg StationState.identity hwithdrawn)).symm.trans hwithdrawn
  have hat := State.admittedAt_of_admitted hfirst fun m hm => hunique m n hm hfirst
  have hnone := w.withdraw_identity_none r hfirst
  unfold Work.withdrawIdentity at hwithdrawn
  simp only [hat] at hwithdrawn
  rw [hwithdrawn] at hnone
  cases hnone

/-- The first two requests of AMEND leave the identity only at its home ports (R38). -/
theorem Work.applyHomePorts_identity (w : Work) (e : DirectoryEntry)
    (hunique : ∀ n m, (w.state.station n).state = .admitted e.identity →
      (w.state.station m).state = .admitted e.identity → n = m) {n : Nat}
    (hn : ((w.applyHomePorts e).state.station n).state.identity = some e.identity) :
    e.admitsLine (linePortOf n) = true := by
  by_contra hexcluded
  have hselects : (!e.admitsLine (linePortOf n)) = true := by simpa using hexcluded
  refine StationState.identity_ne_of (fun hadmitted => ?_)
    (Work.abandonIdentity_challengedIdentity _ _ e.identity
      (selects := fun n => !e.admitsLine (linePortOf n)) hselects) hn
  have hfirst : (w.state.station n).state = .admitted e.identity :=
    (((w.applyHomePorts_recedes e).stations n).identity hn).symm.trans hadmitted
  have hat := State.admittedAt_of_admitted hfirst fun m hm => hunique m n hm hfirst
  have hnone := (Work.abandonIdentity_recedes _ .notHere e.identity
    fun n => !e.admitsLine (linePortOf n)).identity_none
      (w.withdraw_identity_none .classChange hfirst)
  unfold Work.applyHomePorts at hn
  simp only [hat, hselects, if_true] at hn
  rw [hn] at hnone
  cases hnone

/-! ### The directory under its orders -/

/-- The entry of an identity after the entries of one identity have changed. -/
theorem State.mapEntry_entry (s : State) (identity : Nat) {f : DirectoryEntry → DirectoryEntry}
    (hf : ∀ e, (f e).identity = e.identity) (i : Nat) :
    (s.mapEntry identity f).entry i =
      (s.entry i).map fun e => if i = identity then f e else e := by
  have hids : ∀ e : DirectoryEntry,
      (if e.identity == identity then f e else e).identity = e.identity := fun e => by
    split
    · exact hf e
    · rfl
  unfold State.entry State.mapEntry
  simp only [List.find?_map, Function.comp_def, hids]
  refine Option.map_congr fun e he => ?_
  have hi : e.identity = i := by simpa using List.find?_some (Option.mem_def.1 he)
  simp [hi]

theorem State.dropEntry_entry (s : State) {identity i : Nat} (h : i ≠ identity) :
    (s.dropEntry identity).entry i = s.entry i := by
  simp only [State.entry, State.dropEntry, List.find?_filter]
  congr 1
  funext e
  by_cases he : e.identity = i
  · simp [he, h]
  · simp [he]

theorem insertEntry_find? {e : DirectoryEntry} {p : DirectoryEntry → Bool} (h : p e = false)
    (es : List DirectoryEntry) : (insertEntry e es).find? p = es.find? p := by
  induction es with
  | nil => simp [insertEntry, h]
  | cons d ds ih =>
    unfold insertEntry
    split
    · rw [List.find?_cons_of_neg (by simp [h])]
    · simp only [List.find?_cons, ih]

/-- An identity whose entry is changed so that it stays ENABLED and loses no home port, keeps its
home. -/
theorem State.HomeAt.mapEntry {s : State} {n i : Nat} (h : s.HomeAt n i) {identity : Nat}
    {f : DirectoryEntry → DirectoryEntry} (hf : ∀ e, (f e).identity = e.identity)
    (hkept : ∀ e, i = identity → s.entry i = some e → e.suspended = false →
      e.admitsLine (n / 2) = true → (f e).suspended = false ∧ (f e).admitsLine (n / 2) = true) :
    (s.mapEntry identity f).HomeAt n i := by
  obtain ⟨⟨e, he, hsuspended, hadmits⟩, hline⟩ := h
  refine ⟨⟨if i = identity then f e else e, ?_, ?_⟩, hline⟩
  · rw [s.mapEntry_entry identity hf, he]
    rfl
  · split
    · exact hkept e ‹_› he hsuspended hadmits
    · exact ⟨hsuspended, hadmits⟩

/-! ### The orders of the directory -/

/-- The directory has changed in the entry of one identity, and no station is left with it but where it
keeps its home. -/
theorem AdmissionLaws.of_directoryChange {s d t : State} (hs : AdmissionLaws s)
    (hrecede : Recedes d t) (hstations : d.stations = s.stations)
    (hhome : ∀ n i, (t.station n).state.identity = some i → s.HomeAt n i → d.HomeAt n i) :
    AdmissionLaws t := by
  refine hs.of_stationsRecede (fun n => ?_) fun n i hi h =>
    (hhome n i hi h).of_eq hrecede.directory (hrecede.lines (n / 2))
  have hsame : d.station n = s.station n := by
    unfold State.station
    rw [hstations]
  exact hsame ▸ hrecede.stations n

theorem enter_keepsAdmissionLaws : KeepingRow AdmissionLaws .enter :=
  keepingRow_of_take AdmissionLaws.keptByReceding execEnter (fun _ => rfl) (fun _ => rfl)
    fun _ o u _ _ hu => by
      unfold enterEntry
      dsimp only
      split
      · trivial
      split
      · trivial
      rename_i hnew
      split
      · trivial
      refine hu.of_directoryChange (.refl _) rfl ?_
      rintro n i - ⟨⟨e, he, hhome⟩, hline⟩
      have hne : (enteredEntry o.params).identity ≠ i := fun heq => hnew (by rw [heq, he]; rfl)
      refine ⟨⟨e, ?_, hhome⟩, hline⟩
      rw [← he]
      exact insertEntry_find? (by simpa using hne) u.directory

theorem remove_keepsAdmissionLaws : KeepingRow AdmissionLaws .remove :=
  keepingRow_of_take AdmissionLaws.keptByReceding execRemove (fun _ => rfl) (fun _ => rfl)
    fun _ o u _ _ hu => onEntry_leaves fun _ _ => by
      generalize param2 o.params 0 = identity
      have hgone := (Work.start (u.dropEntry identity)).retireIdentity_identity .removed
        (fun _ _ => hu.unique) (identity := identity)
      refine hu.of_directoryChange (Work.retireIdentity_recedes _ _ _) rfl ?_
      rintro n i hi ⟨⟨e, he, hhome⟩, hline⟩
      have hne : i ≠ identity := by
        rintro rfl
        exact hgone n hi
      exact ⟨⟨e, (u.dropEntry_entry hne).trans he, hhome⟩, hline⟩

theorem setSecret_keepsAdmissionLaws : KeepingRow AdmissionLaws .setSecret :=
  keepingRow_of_take AdmissionLaws.keptByReceding execSetSecret (fun _ => rfl) (fun _ => rfl)
    fun _ _ _ _ _ hu => onEntry_leaves fun _ _ =>
      hu.of_directoryChange (.refl _) rfl fun _ _ _ h =>
        h.mapEntry (fun _ => rfl) fun _ _ _ hsuspended hadmits => ⟨hsuspended, hadmits⟩

theorem resume_keepsAdmissionLaws : KeepingRow AdmissionLaws .resume :=
  keepingRow_of_take AdmissionLaws.keptByReceding execResume (fun _ => rfl) (fun _ => rfl)
    fun _ _ _ _ _ hu => onEntry_leaves fun _ _ =>
      hu.of_directoryChange (.refl _) rfl fun _ _ _ h =>
        h.mapEntry (fun _ => rfl) fun _ _ _ _ hadmits => ⟨rfl, hadmits⟩

theorem suspend_keepsAdmissionLaws : KeepingRow AdmissionLaws .suspend :=
  keepingRow_of_take AdmissionLaws.keptByReceding execSuspend (fun _ => rfl) (fun _ => rfl)
    fun _ o u _ _ hu => onEntry_leaves fun _ _ => by
      split
      · exact hu
      generalize param2 o.params 0 = identity
      have hgone := (Work.start (u.mapEntry identity fun e => { e with suspended := true })
        ).retireIdentity_identity .suspended (fun _ _ => hu.unique) (identity := identity)
      refine hu.of_directoryChange (Work.retireIdentity_recedes _ _ _) rfl ?_
      intro n i hi h
      refine h.mapEntry (fun _ => rfl) ?_
      rintro _ rfl _ _ _
      exact absurd hi (hgone n)

/-- Home ports that an AMEND does not SET, exclude no position (R37). -/
theorem amendedEntry_admitsLine {params : List Byte} (h : flagSet (paramByte params 8) = false)
    {e : DirectoryEntry} {line : Nat} (he : e.admitsLine line = true) :
    (amendedEntry params e).admitsLine line = true := by
  have hne : ¬paramByte params 8 = 1 := by simpa [flagSet] using h
  have hports : (amendedEntry params e).homePorts = none
      ∨ (amendedEntry params e).homePorts = e.homePorts := by
    simp only [amendedEntry, if_neg hne]
    split
    · exact .inl rfl
    · exact .inr rfl
  unfold DirectoryEntry.admitsLine at he ⊢
  rcases hports with hnone | hsame
  · rw [hnone]
  · rw [hsame]
    exact he

/-- R38: after the requests of an AMEND, the identity stands only where the entry has its homes. -/
theorem amendWork_identity {params : List Byte} {s : State} {e : DirectoryEntry}
    (hunique : ∀ n m, (s.station n).state = .admitted e.identity →
      (s.station m).state = .admitted e.identity → n = m) (hset : flagSet (paramByte params 8) = true)
    {n : Nat}
    (hn : ((if (flagSet (paramByte params 4) || flagSet (paramByte params 6)) = true then
        (if flagSet (paramByte params 8) = true then (Work.start s).applyHomePorts e
          else Work.start s).judgeClass e
      else if flagSet (paramByte params 8) = true then (Work.start s).applyHomePorts e
        else Work.start s).state.station n).state.identity = some e.identity) :
    e.admitsLine (n / 2) = true := by
  refine (Work.start s).applyHomePorts_identity e hunique ?_
  simp only [hset, if_true] at hn
  split at hn
  · rwa [← ((Work.judgeClass_recedes _ e).stations n).identity hn]
  · exact hn

theorem amend_keepsAdmissionLaws : KeepingRow AdmissionLaws .amend :=
  keepingRow_of_take AdmissionLaws.keptByReceding execAmend (fun _ => rfl) (fun _ => rfl)
    fun _ o u _ _ hu => by
      unfold amendEntry
      dsimp only
      split
      · trivial
      split
      · trivial
      rename_i old hold
      have hidentity : (amendedEntry o.params old).identity = param2 o.params 0 :=
        (State.entry_eq_some hold).2
      refine hu.of_directoryChange (amendWork_recedes o.params _ _) rfl fun n i hi h => ?_
      refine h.mapEntry (fun _ => rfl) fun e hi' he hsuspended hadmits => ⟨hsuspended, ?_⟩
      obtain rfl : old = e := Option.some.inj (hold.symm.trans (hi' ▸ he))
      cases hset : flagSet (paramByte o.params 8) with
      | false => exact amendedEntry_admitsLine hset hadmits
      | true =>
        exact amendWork_identity (s := u.mapEntry (param2 o.params 0) (amendedEntry o.params))
          (fun _ _ => hu.unique) hset
          (hi.trans (congrArg some (hi'.trans hidentity.symm)))

/-! ### The line ports (R48 to R50) -/

theorem Work.clearPositions_identity (w : Work) (r : ReleaseReason) {ns : List Nat} {n : Nat}
    (hn : n ∈ ns) :
    ((ns.foldl (fun w n => w.clearPosition r n) w).state.station n).state.identity = none := by
  induction ns generalizing w with
  | nil => exact absurd hn List.not_mem_nil
  | cons m ns ih =>
    rcases List.mem_cons.1 hn with rfl | hn
    · refine (Work.clearPositions_recedes _ r ns).identity_none ?_
      by_cases hlt : n < 96
      · rw [w.clearPosition_station r hlt, if_pos rfl]
        unfold Station.cleared
        cases (w.state.station n).state <;> simp [StationState.identity]
      · rw [State.station_of_ge _ (Nat.le_of_not_lt hlt)]
        rfl
    · exact ih _ hn

/-- The settings of a line port have changed, and positions of it are cleared; the others are still
served. -/
theorem AdmissionLaws.setLine {s : State} (hs : AdmissionLaws s) {line : Nat} {new : LinePort}
    (r : ReleaseReason) {ns : List Nat}
    (hserved : ∀ n ∉ ns, n / 2 = line → (s.line line).condition = .enabled →
      (n % 2 = 1 → (s.line line).pairing = true) →
      new.condition = .enabled ∧ (n % 2 = 1 → new.pairing = true)) {w : Work}
    (hw : w.state = s.setLine line new) :
    AdmissionLaws (ns.foldl (fun w n => w.clearPosition r n) w).state := by
  have hrecede := w.clearPositions_recedes r ns
  rw [hw] at hrecede
  refine hs.of_directoryChange hrecede rfl ?_
  rintro n i hi ⟨hentry, henabled, hpairing⟩
  refine ⟨hentry, ?_⟩
  have hn : n ∉ ns := fun hn => by
    rw [w.clearPositions_identity r hn] at hi
    cases hi
  rw [State.line_setLine]
  split
  · rename_i hline
    obtain ⟨rfl, -⟩ := hline
    exact hserved n hn rfl henabled hpairing
  · exact ⟨henabled, hpairing⟩

/-- The positions that SET PORT does not clear are served under the new settings (R48). -/
theorem served_of_not_mem_clearedPositions {line n : Nat} {old new : LinePort}
    (hn : n ∉ clearedPositions line old new) (hline : n / 2 = line)
    (henabled : old.condition = .enabled) (hpairing : n % 2 = 1 → old.pairing = true) :
    new.condition = .enabled ∧ (n % 2 = 1 → new.pairing = true) := by
  unfold clearedPositions at hn
  by_cases hnew : new.condition = .enabled
  · refine ⟨hnew, fun hodd => ?_⟩
    by_contra hnot
    have hoff : new.pairing = false := by simpa using hnot
    refine hn ?_
    have hlast : n = 2 * line + 1 := by omega
    simp [henabled, hnew, hpairing hodd, hoff, hlast]
  · have hboth : n = 2 * line ∨ n = 2 * line + 1 := by omega
    refine absurd ?_ hn
    simpa [henabled, hnew] using hboth

theorem setPort_keepsAdmissionLaws : KeepingRow AdmissionLaws .setPort :=
  keepingRow_of_take AdmissionLaws.keptByReceding execSetPort (fun _ => rfl) (fun _ => rfl)
    fun _ o u _ _ hu => setPortSettings_leaves o.params u fun w hw => by
      rw [hw]
      exact hu.setLine _ (fun _ => served_of_not_mem_clearedPositions) rfl

theorem Work.disableForBabble_admissionLaws (w : Work) (n : Nat) (hw : AdmissionLaws w.state) :
    AdmissionLaws (w.disableForBabble n).state := by
  refine hw.setLine (line := n) (new := { w.state.line n with condition := .disabled .babble })
    .babble (ns := [2 * n, 2 * n + 1]) (fun m hm hline _ _ => ?_) rfl
  simp only [List.mem_cons, List.not_mem_nil, or_false] at hm
  omega

/-! ### Deliveries, challenges and admissions (R56, R60, R61) -/

/-- A message to an ADMITTED station whose queue has room (R56). -/
theorem AdmissionLaws.deliver {s : State} (hs : AdmissionLaws s) {n identity : Nat}
    (hn : (s.station n).state = .admitted identity) (hroom : (s.station n).deliver.length < 4)
    (bytes : List Byte) :
    AdmissionLaws (s.setStation n { s.station n with
      deliver := (s.station n).deliver ++ [bytes] }) := by
  have hstation := fun m => s.station_setStation n m { s.station n with
    deliver := (s.station n).deliver ++ [bytes] }
  refine ⟨hs.1.of_states (fun m i _ => ?_) fun _ _ _ h => h.of_eq rfl ⟨rfl, rfl⟩, fun m => ?_⟩
  · rw [hstation]
    split
    · rename_i hm
      rw [hm.1]
    · rfl
  · rw [hstation]
    split
    · refine ⟨?_, fun _ => ⟨identity, hn⟩⟩
      rw [List.length_append]
      exact hroom
    · exact hs.2 m

theorem deliver_keepsAdmissionLaws : KeepingRow AdmissionLaws .deliver :=
  keepingRow_of_take AdmissionLaws.keptByReceding execDeliver (fun _ => rfl) (fun _ => rfl)
    fun _ o u _ _ hu => by
      generalize param1 o.params 0 = n
      unfold deliverTo
      split
      · trivial
      split
      · trivial
      rename_i hadmitted
      split
      · trivial
      rename_i hroom
      obtain ⟨identity, hidentity⟩ : ∃ identity, u.identityAt n = some identity := by
        simpa [Option.isNone_iff_eq_none, Option.ne_none_iff_exists'] using hadmitted
      have hn : (u.station n).state.admittedIdentity = some identity := by
        unfold State.identityAt at hidentity
        split at hidentity
        · exact hidentity
        · cases hidentity
      exact hu.deliver ((StationState.admittedIdentity_eq_some _ _).1 hn)
        (Nat.lt_of_not_le fun hle => hroom (decide_eq_true hle)) _

/-- One position, whose deliver queue is empty, takes on a state. -/
theorem AdmissionLaws.setPosition {s t : State} (hs : AdmissionLaws s) {n : Nat}
    (hd : t.directory = s.directory) (hl : t.lines = s.lines)
    (hother : ∀ m, m ≠ n → t.station m = s.station m) (hdeliver : (t.station n).deliver = [])
    (hhome : ∀ i, (t.station n).state.identity = some i → s.HomeAt n i)
    (hunique : ∀ i m, (t.station n).state = .admitted i → (s.station m).state = .admitted i →
      m = n) : AdmissionLaws t := by
  have hline : ∀ m, t.line m = s.line m := fun m => by
    unfold State.line
    rw [hl]
  refine ⟨(admissionLaw_iff t).2 ⟨fun m i hi => ?_, fun m k i hm hk => ?_⟩, fun m => ?_⟩
  · refine State.HomeAt.of_eq ?_ hd (by rw [hline]; exact ⟨rfl, rfl⟩)
    by_cases hmn : m = n
    · subst hmn
      exact hhome i hi
    · rw [hother m hmn] at hi
      exact hs.home hi
  · have hat : ∀ j, (t.station j).state = .admitted i → j ≠ n →
        (s.station j).state = .admitted i := fun j hj hjn => hother j hjn ▸ hj
    by_cases hmn : m = n
    · subst hmn
      by_contra hne
      exact hne (hunique i k hm (hat k hk (Ne.symm hne))).symm
    · by_cases hkn : k = n
      · subst hkn
        exact hunique i m hk (hat m hm hmn)
      · exact hs.unique (hat m hm hmn) (hat k hk hkn)
  · by_cases hmn : m = n
    · subst hmn
      rw [hdeliver]
      exact ⟨Nat.zero_le _, fun h => absurd rfl h⟩
    · rw [hother m hmn]
      exact hs.2 m

/-- R54, R93: a position that is heard is on an ENABLED port that serves it. -/
theorem State.line_of_hears {s : State} {n : Nat} (h : s.hears n = true) :
    (s.line (n / 2)).condition = .enabled ∧ (n % 2 = 1 → (s.line (n / 2)).pairing = true) := by
  simp only [State.hears, linePortOf, Bool.and_eq_true, Bool.or_eq_true, beq_iff_eq] at h
  obtain ⟨⟨-, henabled⟩, hserved⟩ := h
  exact ⟨henabled, fun hodd => hserved.resolve_left (by omega)⟩

/-- A challenge at a position that serves the identity and has none yet (R60). -/
theorem AdmissionLaws.issueChallenge {w : Work} (hw : AdmissionLaws w.state) {n identity : Nat}
    (hlt : n < 96) (hnone : (w.state.station n).state.identity = none)
    (hhome : w.state.HomeAt n identity) (e : DirectoryEntry) :
    AdmissionLaws (w.issueChallenge n identity e).state := by
  obtain ⟨sequence, value, expected, deadline, h⟩ := w.issueChallenge_state n identity e
  have hadmitted : (w.state.station n).state.admittedIdentity = none := by
    cases hs : (w.state.station n).state <;>
      simp_all [StationState.identity, StationState.admittedIdentity]
  have hstation := fun m => ((({ w.state with challengeSequence := sequence } : State
    ).setStationState n (.challenged identity value expected deadline)).placeMessage_station n m
      (.challenge value))
  have hn : (w.issueChallenge n identity e).state.station n =
      { w.state.station n with
        state := .challenged identity value expected deadline
        slot := w.state.slotWith n (.challenge value) } := by
    rw [h, hstation, if_pos ⟨rfl, hlt⟩, State.setStationState, State.station_setStation_same _ hlt]
    rfl
  refine hw.setPosition (n := n) (by rw [h]; rfl) (by rw [h]; rfl) (fun m hm => ?_) ?_ ?_ ?_
  · rw [h, hstation, if_neg fun hmn => hm hmn.1, State.setStationState,
      State.station_setStation_ne _ hm]
    rfl
  · rw [hn]
    exact hw.deliver_eq_nil hadmitted
  · intro i hi
    rw [hn] at hi
    exact Option.some.inj hi ▸ hhome
  · intro i m hi
    rw [hn] at hi
    cases hi

theorem takeRegister_admissionLaws (s : State) (n identity : Nat) (hlt : n < 96)
    (hhears : s.hears n = true) (hs : AdmissionLaws s) :
    AdmissionLaws ((Work.start s).takeRegister n identity).state := by
  rcases (Work.start s).takeRegister_cases n identity with
    h | ⟨v, e, hv, hnone, he, hsuspended, hadmits, heq⟩
  · exact AdmissionLaws.keptByReceding _ _ h hs
  · obtain ⟨henabled, hpairing⟩ := State.line_of_hears hhears
    obtain ⟨hcondition, hpaired⟩ := hv.lines (n / 2)
    rw [heq]
    refine (AdmissionLaws.keptByReceding _ _ hv hs).issueChallenge hlt hnone
      ⟨⟨e, he, hsuspended, hadmits⟩, ?_, ?_⟩ e
    · exact hcondition.trans henabled
    · exact fun hodd => hpaired.trans (hpairing hodd)

/-- R61: after the relocation, no other position is ADMITTED with the identity. -/
theorem Work.relocate_unique {w : Work} (hw : AdmissionLaws w.state) {n identity m : Nat}
    (hm : ((w.relocate n identity).state.station m).state = .admitted identity) : m = n := by
  by_contra hne
  have hfirst : (w.state.station m).state = .admitted identity :=
    (((w.relocate_recedes n identity).stations m).identity
      (congrArg StationState.identity hm)).symm.trans hm
  have hlt : m < 96 := State.lt_of_identity (congrArg StationState.identity hfirst)
  cases hfound : w.state.admittedElsewhere identity n with
  | none =>
    have hno := List.find?_eq_none.1 hfound m (List.mem_range.2 hlt)
    simp [hfirst, hne, StationState.admittedIdentity] at hno
  | some k =>
    have hk := List.find?_some hfound
    simp only [Bool.and_eq_true, beq_iff_eq, StationState.admittedIdentity_eq_some] at hk
    obtain rfl : k = m := hw.unique hk.2 hfirst
    have hnone := w.withdraw_identity_none .relocated hfirst
    unfold Work.relocate at hm
    simp only [hfound] at hm
    rw [hm] at hnone
    cases hnone

/-- A correct ANSWER at a position CHALLENGED with the identity (R61). -/
theorem AdmissionLaws.admitStation {w : Work} (hw : AdmissionLaws w.state) {n identity : Nat}
    {value expected : Word16} {deadline : Nat}
    (hn : (w.state.station n).state = .challenged identity value expected deadline) :
    AdmissionLaws (w.admitStation n identity).state := by
  have hidentity : (w.state.station n).state.identity = some identity :=
    congrArg StationState.identity hn
  have hlt : n < 96 := State.lt_of_identity hidentity
  have hrecede := w.relocate_recedes n identity
  have hhome := (hw.home hidentity).of_eq hrecede.directory (hrecede.lines (n / 2))
  have hunique := fun m => Work.relocate_unique hw (n := n) (identity := identity) (m := m)
  have hlaws := AdmissionLaws.keptByReceding _ _ hrecede hw
  have hempty : ((w.relocate n identity).state.station n).deliver = [] := by
    have hold := hw.deliver_eq_nil (n := n) (by rw [hn]; rfl)
    exact List.suffix_nil.1 (hold ▸ (hrecede.stations n).1)
  rw [w.admitStation_state]
  generalize (w.relocate n identity).state = s at *
  have hstation : ∀ m, ((s.setStation n { s.station n with
      state := .admitted identity, failures := 0 }).placeMessage n (.welcome identity)).station m
      = if m = n then { s.station n with
          state := .admitted identity, failures := 0, slot := s.slotWith n (.welcome identity) }
        else s.station m := fun m => by
    rw [State.placeMessage_station, State.station_setStation_same _ hlt, State.slotWith_setStation]
    by_cases hm : m = n
    · simp [hm, hlt]
    · simp [hm, State.station_setStation_ne]
  refine hlaws.setPosition (n := n) rfl rfl (fun m hm => ?_) ?_ (fun i hi => ?_) fun i m hi hm => ?_
  · rw [hstation, if_neg hm]
  · rw [hstation, if_pos rfl]
    exact hempty
  · rw [hstation, if_pos rfl] at hi
    exact Option.some.inj hi ▸ hhome
  · rw [hstation, if_pos rfl] at hi
    exact hunique m (StationState.admitted.inj hi ▸ hm)

theorem Work.takeAnswer_admissionLaws (w : Work) (n : Nat) (response : Word16)
    (hw : AdmissionLaws w.state) : AdmissionLaws (w.takeAnswer n response).state := by
  unfold Work.takeAnswer
  split
  · rename_i identity _ _ _ hn
    split
    · exact hw.admitStation hn
    · exact AdmissionLaws.keptByReceding _ _
        (w.countFailure_recedes identity _ (by rw [hn]; rfl)) hw
  all_goals exact hw

/-! ### Every command -/

theorem setPrecedenceMap_keepsAdmissionLaws : KeepingRow AdmissionLaws .setPrecedenceMap :=
  keepingRow_of_take AdmissionLaws.keptByReceding execSetPrecedenceMap (fun _ => rfl) (fun _ => rfl)
    fun _ _ _ _ _ hu => by
      dsimp only
      split
      · trivial
      · exact hu.of_stationsRecede (fun _ => .refl _) fun _ _ _ h => h.of_eq rfl ⟨rfl, rfl⟩

theorem connect_keepsAdmissionLaws : KeepingRow AdmissionLaws .connect :=
  keepingRow_of_take AdmissionLaws.keptByReceding execConnect (fun _ => rfl) (fun _ => rfl)
    fun _ _ u _ _ hu => by
      unfold connectTake
      split
      · trivial
      split
      · trivial
      rename_i victims _
      have hpreempted := AdmissionLaws.keptByReceding _ _
        (Work.preempt_foldl_recedes victims (Work.start u)) hu
      simp only [Answer.Leaves]
      rw [Work.makeConnection_onlyCalls]
      exact hpreempted

theorem State.startCold_admissionLaws (s : State) (cause : RestartCause) :
    AdmissionLaws (s.startCold cause) := by
  constructor
  · refine (admissionLaw_iff _).2 ⟨fun n i hi => ?_, fun n m i hn => ?_⟩
    · rw [State.startCold_station] at hi
      cases hi
    · rw [State.startCold_station] at hn
      cases hn
  · intro n
    rw [State.startCold_station]
    exact ⟨Nat.zero_le _, fun h => absurd rfl h⟩

theorem admissionLaws_advance {i : Instr} (hi : MayAdvance i) : KeepingRow AdmissionLaws i := by
  have hcold := keepingRow_cold AdmissionLaws.keptByReceding State.startCold_admissionLaws
  cases i
  case enter => exact enter_keepsAdmissionLaws
  case remove => exact remove_keepsAdmissionLaws
  case setSecret => exact setSecret_keepsAdmissionLaws
  case amend => exact amend_keepsAdmissionLaws
  case suspend => exact suspend_keepsAdmissionLaws
  case resume => exact resume_keepsAdmissionLaws
  case setPrecedenceMap => exact setPrecedenceMap_keepsAdmissionLaws
  case setPort => exact setPort_keepsAdmissionLaws
  case deliver => exact deliver_keepsAdmissionLaws
  case connect => exact connect_keepsAdmissionLaws
  case register n identity =>
    exact keepingRow_register AdmissionLaws.keptByReceding takeRegister_admissionLaws n identity
  case answer n response =>
    exact keepingRow_answer AdmissionLaws.keptByReceding
      (fun w n response _ hw => w.takeAnswer_admissionLaws n response hw) n response
  case babble n =>
    exact keepingRow_babble AdmissionLaws.keptByReceding
      (fun w n _ hw => w.disableForBabble_admissionLaws n hw) n
  case restartCold => exact hcold.1
  case powerOn => exact hcold.2.1
  case resetPin => exact hcold.2.2
  all_goals exact hi.elim

/-- Settles O57: stations recede by every command, or a row of `admissionLaws_advance` keeps the
laws. -/
theorem everyStepKeepsTheAdmissionLaw : Obligations.EveryStepKeepsTheAdmissionLaw := by
  unfold Obligations.EveryStepKeepsTheAdmissionLaw
  intro s t hs h
  exact step_keeps AdmissionLaws.keptByReceding (fun _ => admissionLaws_advance) hs h

end Sys2Proof.Machine
end

section
/-! SUPPORT. What the operations make of a state whose secrets are hidden: they read nothing of the
secrets, so they do the same, O49 (R34, R40, R60). -/

namespace Sys2Proof.Machine

/-! ### Hiding the secrets -/

/-- An entry without its secret. -/
def DirectoryEntry.blinded (e : DirectoryEntry) : DirectoryEntry := { e with secret := 0 }

/-- A station state without its expected response. -/
def StationState.blinded : StationState → StationState
  | .challenged identity h _ deadline => .challenged identity h 0 deadline
  | other => other

/-- The state without the secrets of the directory and the expected responses of CHALLENGED
stations. -/
def State.blind (s : State) : State :=
  { s with
    directory := s.directory.map DirectoryEntry.blinded
    stations := s.stations.map Station.blinded }

/-- Work on the state without its secrets. -/
def Work.blind (w : Work) : Work := { w with state := w.state.blind }

section entries

variable (e : DirectoryEntry)

@[simp] theorem DirectoryEntry.blinded_identity : e.blinded.identity = e.identity := (rfl)
@[simp] theorem DirectoryEntry.blinded_precedence : e.blinded.precedence = e.precedence := (rfl)
@[simp] theorem DirectoryEntry.blinded_privacy : e.blinded.privacy = e.privacy := (rfl)
@[simp] theorem DirectoryEntry.blinded_mask : e.blinded.mask = e.mask := (rfl)
@[simp] theorem DirectoryEntry.blinded_homePorts : e.blinded.homePorts = e.homePorts := (rfl)
@[simp] theorem DirectoryEntry.blinded_suspended : e.blinded.suspended = e.suspended := (rfl)
@[simp] theorem DirectoryEntry.blinded_admitsLine (line : Nat) :
    e.blinded.admitsLine line = e.admitsLine line := (rfl)
@[simp] theorem DirectoryEntry.blinded_blinded : e.blinded.blinded = e.blinded := (rfl)

end entries

section stations

variable (st : Station) (state : StationState)

@[simp] theorem StationState.blinded_vacant : StationState.vacant.blinded = .vacant := rfl
@[simp] theorem StationState.blinded_admitted (i : Nat) :
    (StationState.admitted i).blinded = .admitted i := rfl
@[simp] theorem StationState.blinded_holdOff (d : Nat) :
    (StationState.holdOff d).blinded = .holdOff d := rfl
@[simp] theorem StationState.blinded_locked : StationState.locked.blinded = .locked := rfl
@[simp] theorem StationState.blinded_challenged (i d : Nat) (h x : Word16) :
    (StationState.challenged i h x d).blinded = .challenged i h 0 d := rfl

@[simp] theorem StationState.blinded_blinded : state.blinded.blinded = state.blinded := by
  cases state <;> rfl

@[simp] theorem StationState.blinded_admittedIdentity :
    state.blinded.admittedIdentity = state.admittedIdentity := by cases state <;> rfl
@[simp] theorem StationState.blinded_challengedIdentity :
    state.blinded.challengedIdentity = state.challengedIdentity := by cases state <;> rfl
@[simp] theorem StationState.blinded_identity : state.blinded.identity = state.identity := by
  cases state <;> rfl
@[simp] theorem StationState.blinded_code :
    stationStateCode state.blinded = stationStateCode state := by cases state <;> rfl

theorem Station.blinded_eq : st.blinded = { st with state := st.state.blinded } := by
  unfold Station.blinded StationState.blinded
  cases st.state <;> rfl

@[simp] theorem Station.blinded_state : st.blinded.state = st.state.blinded := by
  rw [Station.blinded_eq]
@[simp] theorem Station.blinded_failures : st.blinded.failures = st.failures := (rfl)
@[simp] theorem Station.blinded_slot : st.blinded.slot = st.slot := (rfl)
@[simp] theorem Station.blinded_deliver : st.blinded.deliver = st.deliver := (rfl)
@[simp] theorem Station.blinded_waiting : st.blinded.waiting = st.waiting := (rfl)

@[simp] theorem Station.blinded_blinded : st.blinded.blinded = st.blinded := by
  simp [Station.blinded_eq]

end stations

/-! ### What is read of the state -/

section state

variable (s : State)

@[simp] theorem State.blind_port (p : Port) : s.blind.port p = s.port p := by cases p <;> rfl
@[simp] theorem State.blind_line (n : Nat) : s.blind.line n = s.line n := (rfl)
@[simp] theorem State.blind_slot (n : Nat) : s.blind.slot n = s.slot n := (rfl)
@[simp] theorem State.blind_group (n : Nat) : s.blind.group n = s.group n := (rfl)
@[simp] theorem State.blind_key (n : Nat) : s.blind.key n = s.key n := (rfl)
@[simp] theorem State.blind_leg (n : Nat) : s.blind.leg n = s.leg n := (rfl)
@[simp] theorem State.blind_watch (n : Nat) : s.blind.watch n = s.watch n := (rfl)
@[simp] theorem State.blind_connections : s.blind.connections = s.connections := (rfl)
@[simp] theorem State.blind_mastership : s.blind.mastership = s.mastership := (rfl)
@[simp] theorem State.blind_muteCode : s.blind.muteCode = s.muteCode := (rfl)
@[simp] theorem State.blind_restart : s.blind.restart = s.restart := (rfl)
@[simp] theorem State.blind_resetPin : s.blind.resetPin = s.resetPin := (rfl)
@[simp] theorem State.blind_watches : s.blind.watches = s.watches := (rfl)
@[simp] theorem State.blind_lockoutCount : s.blind.lockoutCount = s.lockoutCount := (rfl)
@[simp] theorem State.blind_after (n : Nat) : s.blind.after n = s.after n := (rfl)
@[simp] theorem State.blind_remaining (n : Nat) : s.blind.remaining n = s.remaining n := (rfl)
@[simp] theorem State.blind_restarting : s.blind.restarting = s.restarting := (rfl)
@[simp] theorem State.blind_named (e : Nat) : s.blind.named e = s.named e := (rfl)
@[simp] theorem State.blind_hears (n : Nat) : s.blind.hears n = s.hears n := (rfl)
@[simp] theorem State.blind_channelReady (n : Nat) : s.blind.channelReady n = s.channelReady n := (rfl)
@[simp] theorem State.blind_receivedSample (e : Nat) :
    s.blind.receivedSample e = s.receivedSample e := (rfl)
@[simp] theorem State.blind_recordCount : s.blind.recordCount = s.recordCount := (rfl)
@[simp] theorem State.blind_connection (id : Nat) : s.blind.connection id = s.connection id := (rfl)
@[simp] theorem State.blind_grant : s.blind.grant = s.grant := by
  simp [State.grant, State.blind]
  rfl

@[simp] theorem State.blind_station (n : Nat) : s.blind.station n = (s.station n).blinded := by
  by_cases h : n < 96
  · simp [State.station, State.blind, h]
  · simp [State.station, State.blind, h]
    rfl

@[simp] theorem State.blind_entry (identity : Nat) :
    s.blind.entry identity = (s.entry identity).map DirectoryEntry.blinded := by
  simp [State.entry, State.blind, List.find?_map]

@[simp] theorem State.blind_identityAt (e : Nat) : s.blind.identityAt e = s.identityAt e := by
  simp [State.identityAt]

@[simp] theorem State.blind_admittedAt (identity : Nat) :
    s.blind.admittedAt identity = s.admittedAt identity := by
  simp [State.admittedAt]

@[simp] theorem State.blind_admittedElsewhere (identity n : Nat) :
    s.blind.admittedElsewhere identity n = s.admittedElsewhere identity n := by
  simp [State.admittedElsewhere]

@[simp] theorem State.blind_challengedPositions (identity : Nat) (selects : Nat → Bool) :
    s.blind.challengedPositions identity selects = s.challengedPositions identity selects := by
  simp [State.challengedPositions]

@[simp] theorem State.blind_effectiveClass (n : Nat) :
    s.blind.effectiveClass n = s.effectiveClass n := by
  have hprecedence : ∀ i : Nat, (s.blind.entry i).bind (·.precedence)
      = (s.entry i).bind (·.precedence) := fun i => by
    rw [State.blind_entry]
    cases s.entry i <;> rfl
  simp only [State.effectiveClass, State.blind_identityAt, State.blind_line, hprecedence]
  rfl

@[simp] theorem State.blind_watchedEnd (identity : Nat) (c : Connection) :
    s.blind.watchedEnd identity c = s.watchedEnd identity c := by
  simp [State.watchedEnd]

@[simp] theorem State.blind_traceOf (role : TraceRole) (c : Connection) :
    s.blind.traceOf role c = s.traceOf role c := by
  simp only [State.traceOf, State.blind_identityAt]
  rfl

@[simp] theorem State.blind_blind : s.blind.blind = s.blind := by
  simp [State.blind, Function.comp_def]

/-! ### What is written -/

@[simp] theorem State.setPort_blind (p : Port) (v : PortState) :
    s.blind.setPort p v = (s.setPort p v).blind := by cases p <;> rfl
@[simp] theorem State.setLine_blind (n : Nat) (v : LinePort) :
    s.blind.setLine n v = (s.setLine n v).blind := (rfl)
@[simp] theorem State.setSlot_blind (n : Nat) (v : TrunkSlot) :
    s.blind.setSlot n v = (s.setSlot n v).blind := (rfl)
@[simp] theorem State.setGroup_blind (n : Nat) (v : Group) :
    s.blind.setGroup n v = (s.setGroup n v).blind := (rfl)
@[simp] theorem State.setKey_blind (n : Nat) (v : KeyContext) :
    s.blind.setKey n v = (s.setKey n v).blind := (rfl)
@[simp] theorem State.setLeg_blind (n : Nat) (v : Option Leg) :
    s.blind.setLeg n v = (s.setLeg n v).blind := (rfl)
@[simp] theorem State.setWatch_blind (n : Nat) (v : Watch) :
    s.blind.setWatch n v = (s.setWatch n v).blind := (rfl)
@[simp] theorem State.setOutgoing_blind (n : Nat) (v : Byte) :
    s.blind.setOutgoing n v = (s.setOutgoing n v).blind := (rfl)
@[simp] theorem State.mapConnection_blind (id : Nat) (f : Connection → Connection) :
    s.blind.mapConnection id f = (s.mapConnection id f).blind := (rfl)
@[simp] theorem State.dropConnection_blind (id : Nat) :
    s.blind.dropConnection id = (s.dropConnection id).blind := (rfl)
@[simp] theorem State.endTrace_blind (id : Nat) : s.blind.endTrace id = (s.endTrace id).blind := (rfl)
@[simp] theorem State.reach_blind (instant : Nat) :
    s.blind.reach instant = (s.reach instant).blind := (rfl)
@[simp] theorem State.openFrame_blind : s.blind.openFrame = s.openFrame.blind := (rfl)
@[simp] theorem State.drawn_blind (n : Nat) : s.blind.drawn n = (s.drawn n).blind := (rfl)
@[simp] theorem State.holdMastership_blind (x : Controller) :
    s.blind.holdMastership x = (s.holdMastership x).blind := (rfl)
@[simp] theorem State.append_blind (p : Port) (entry : Entry) :
    s.blind.append p entry = (s.append p entry).blind := by cases p <;> rfl

theorem State.setStation_blind (n : Nat) (v : Station) :
    s.blind.setStation n v.blinded = (s.setStation n v).blind := by
  simp [State.setStation, State.blind, Vector.map_setIfInBounds]

@[simp] theorem State.setStationState_vacant_blind (n : Nat) :
    s.blind.setStationState n .vacant = (s.setStationState n .vacant).blind := by
  unfold State.setStationState
  rw [← State.setStation_blind, State.blind_station]
  rfl

@[simp] theorem State.placeMessage_blind (n : Nat) (message : StationMessage) :
    s.blind.placeMessage n message = (s.placeMessage n message).blind := by
  unfold State.placeMessage
  rw [← State.setStation_blind, State.blind_station]
  rfl

@[simp] theorem State.emptySlot_blind (n : Nat) : s.blind.emptySlot n = (s.emptySlot n).blind := by
  unfold State.emptySlot
  rw [← State.setStation_blind, State.blind_station]
  rfl

/-- The directory, changed in the entry of one identity. -/
theorem State.mapEntry_blind (identity : Nat) {f g : DirectoryEntry → DirectoryEntry}
    (h : ∀ e, g e.blinded = (f e).blinded) :
    s.blind.mapEntry identity g = (s.mapEntry identity f).blind := by
  simp only [State.mapEntry, State.blind, List.map_map, Function.comp_def,
    DirectoryEntry.blinded_identity, h, apply_ite DirectoryEntry.blinded]

@[simp] theorem State.dropEntry_blind (identity : Nat) :
    s.blind.dropEntry identity = (s.dropEntry identity).blind := by
  simp [State.dropEntry, State.blind, List.filter_map, Function.comp_def]

@[simp] theorem State.freeLeg_blind (c : Connection) :
    s.blind.freeLeg c = (s.freeLeg c).blind := by
  unfold State.freeLeg
  cases c.privacy <;> rfl

@[simp] theorem State.startLeg_blind (c : Connection) :
    s.blind.startLeg c = (s.startLeg c).blind := by
  unfold State.startLeg
  cases c.privacy with
  | none => rfl
  | some part =>
    simp only [State.blind_leg]
    cases s.leg part.leg <;> rfl

@[simp] theorem State.clearHold_blind (n : Nat) : s.blind.clearHold n = (s.clearHold n).blind := by
  unfold State.clearHold
  simp only [State.blind_watch]
  split <;> rfl

theorem Station.nextMessage_blinded (st : Station) :
    st.blinded.nextMessage = st.nextMessage.map fun m => (m.1, m.2.blinded) := by
  unfold Station.nextMessage
  simp only [Station.blinded_slot, Station.blinded_deliver]
  cases st.slot with
  | some m => rfl
  | none => cases st.deliver <;> rfl

@[simp] theorem State.sendFrom_blind (n : Nat) (second : Bool) :
    s.blind.sendFrom n second = (s.sendFrom n second).blind := by
  unfold State.sendFrom
  simp only [State.blind_station, Station.nextMessage_blinded, State.blind_line]
  cases (s.station (2 * n + if second = true then 1 else 0)).nextMessage with
  | none => rfl
  | some m => simp [State.setStation_blind]

theorem State.postTo_blind (e : Event) (p : Port) :
    s.blind.postTo e p = (s.postTo e p).blind := by
  unfold State.postTo State.loseEvent
  simp only [State.blind_port, State.blind_restarting, State.setPort_blind, State.append_blind]
  split <;> rfl

theorem State.post_blind (e : Event) : s.blind.post e = (s.post e).blind :=
  List.foldl_hom State.blind fun t p => t.postTo_blind e p

theorem State.postAll_blind (es : List Event) : s.blind.postAll es = (s.postAll es).blind :=
  List.foldl_hom State.blind fun t e => t.post_blind e

end state

/-! ### Work -/

section work

variable (w : Work)

@[simp] theorem Work.blind_state : w.blind.state = w.state.blind := rfl
@[simp] theorem Work.blind_events : w.blind.events = w.events := rfl
@[simp] theorem Work.blind_blind : w.blind.blind = w.blind := by simp [Work.blind]

@[simp] theorem Work.start_blind (s : State) : Work.start s.blind = (Work.start s).blind := rfl

@[simp] theorem Work.finish_blind : w.blind.finish = w.finish.blind := w.state.postAll_blind w.events

@[simp] theorem Work.raise_blind (e : Event) : w.blind.raise e = (w.raise e).blind := rfl

/-- An update that reads no secret, done in work. -/
@[simp] theorem Work.update_blind {f : State → State} (hf : ∀ s : State, f s.blind = (f s).blind) :
    w.blind.update f = (w.update f).blind := by
  unfold Work.update Work.blind
  rw [hf]

@[simp] theorem Work.blind_ite (c : Prop) [Decidable c] (v : Work) :
    (if c then v else w).blind = if c then v.blind else w.blind := apply_ite Work.blind c v w

@[simp] theorem Work.reevaluate_blind (g : Nat) : w.blind.reevaluate g = (w.reevaluate g).blind := by
  simp [Work.reevaluate]

@[simp] theorem Work.recount_blind (g : Nat) (f : Nat → Nat) :
    w.blind.recount g f = (w.recount g f).blind := by
  simp [Work.recount]

@[simp] theorem Work.leaveSlot_blind (e : Nat) : w.blind.leaveSlot e = (w.leaveSlot e).blind := by
  simp [Work.leaveSlot]

@[simp] theorem Work.release_blind (reason : Option ReleaseReason) (c : Connection) :
    w.blind.release reason c = (w.release reason c).blind := by
  cases reason <;> simp [Work.release]

@[simp] theorem Work.releaseWhere_blind (reason : Option ReleaseReason)
    (selects : Connection → Bool) :
    w.blind.releaseWhere reason selects = (w.releaseWhere reason selects).blind :=
  List.foldl_hom Work.blind fun v c => v.release_blind reason c

/-- A station that leaves ADMITTED (R67). -/
@[simp] theorem State.vacate_blind (s : State) (n : Nat) :
    s.blind.setStation n { s.blind.station n with state := .vacant, deliver := [] }
      = (s.setStation n { s.station n with state := .vacant, deliver := [] }).blind := by
  rw [← State.setStation_blind, State.blind_station]
  rfl

@[simp] theorem Work.withdraw_blind (reason : ReleaseReason) (n : Nat) :
    w.blind.withdraw reason n = (w.withdraw reason n).blind := by
  unfold Work.withdraw
  rw [Work.blind_state, State.blind_station, Station.blinded_state]
  cases (w.state.station n).state <;> simp [-State.blind_station]

@[simp] theorem Work.clearPosition_blind (reason : ReleaseReason) (n : Nat) :
    w.blind.clearPosition reason n = (w.clearPosition reason n).blind := by
  cases hn : (w.state.station n).state <;> simp [Work.clearPosition, hn]

@[simp] theorem Work.loseLink_blind (n : Nat) : w.blind.loseLink n = (w.loseLink n).blind := by
  cases hn : (w.state.station n).state <;> simp [Work.loseLink, hn]

@[simp] theorem Work.abandon_blind (reason : RefusalReason) (n : Nat) :
    w.blind.abandon reason n = (w.abandon reason n).blind := by
  cases hn : (w.state.station n).state <;> simp [Work.abandon, hn]

@[simp] theorem Work.reportLink_blind (n : Nat) (up : Bool) :
    w.blind.reportLink n up = (w.reportLink n up).blind := by
  simp [Work.reportLink]

@[simp] theorem Work.rereadLinks_blind (links : List Bool) :
    w.blind.rereadLinks links = (w.rereadLinks links).blind :=
  List.foldl_hom Work.blind fun v n => by simp

@[simp] theorem Work.disableForBabble_blind (n : Nat) :
    w.blind.disableForBabble n = (w.disableForBabble n).blind := by
  simp [Work.disableForBabble]

@[simp] theorem Work.countFailure_blind (n identity : Nat) (reason : RefusalReason) :
    w.blind.countFailure n identity reason = (w.countFailure n identity reason).blind := by
  have hfailed : ∀ (v : Work) (locks : Bool) (failures : Nat),
      v.blind.update (fun s => s.setStation n { s.station n with
          failures := failures
          state := if locks then .locked else .holdOff (s.after s.holdOffTime) })
        = (v.update fun s => s.setStation n { s.station n with
            failures := failures
            state := if locks then .locked else .holdOff (s.after s.holdOffTime) }).blind :=
    fun v locks failures => Work.update_blind v fun s => by
      rw [← State.setStation_blind, State.blind_station]
      cases locks <;> rfl
  have hplaced : w.blind.update (·.placeMessage n (.refuse reason))
      = (w.update (·.placeMessage n (.refuse reason))).blind :=
    w.update_blind fun s => s.placeMessage_blind n (.refuse reason)
  unfold Work.countFailure
  dsimp only
  rw [hplaced]
  generalize w.update (·.placeMessage n (.refuse reason)) = v
  rw [Work.blind_state, State.blind_station, Station.blinded_failures, State.blind_lockoutCount,
    hfailed]
  split <;> rfl

@[simp] theorem Work.examine_blind (c : Connection) (n : Nat) :
    w.blind.examine c n = (w.examine c n).blind := by
  cases hn : w.state.watch n with
  | idle | tripped => simp [Work.examine, hn]
  | armed identity request =>
    cases he : w.state.watchedEnd identity c <;> cases request <;> simp [Work.examine, hn, he]

@[simp] theorem Work.promote_blind (c : Connection) :
    w.blind.promote c = (w.promote c).blind := by
  have hexamined : ∀ (v : Work) (ns : List Nat),
      ns.foldl (fun v n => v.examine c n) v.blind
        = (ns.foldl (fun v n => v.examine c n) v).blind := fun v ns =>
    List.foldl_hom Work.blind fun v n => v.examine_blind c n
  simp [Work.promote, hexamined]

@[simp] theorem Work.promoteAll_blind : w.blind.promoteAll = w.promoteAll.blind :=
  List.foldl_hom Work.blind fun v c => v.promote_blind c

theorem Work.raiseAll_blind (es : List Event) :
    es.foldl Work.raise w.blind = (es.foldl Work.raise w).blind :=
  List.foldl_hom Work.blind fun v e => v.raise_blind e

@[simp] theorem Work.carry_blind (c : Connection) : w.blind.carry c = (w.carry c).blind := by
  cases hc : c.privacy with
  | none => simp [Work.carry, hc]
  | some part =>
    cases hl : w.state.leg part.leg <;> simp [Work.carry, hc, hl, Work.raiseAll_blind]

@[simp] theorem Work.carryAll_blind : w.blind.carryAll = w.carryAll.blind :=
  List.foldl_hom Work.blind fun v c => v.carry_blind c

end work

end Sys2Proof.Machine
end

section
/-! SUPPORT. The rows that take an order, and the other commands, do the same on a state whose secrets
are hidden, O49; ENTER, SET SECRET and the issue of a challenge do the same once what they wrote is hidden
too (R32, R34, R60). -/

namespace Sys2Proof.Machine

/-! ### Answers and takes -/

/-- An answer without the secrets of the state it leaves. -/
def Answer.blind : Answer → Answer
  | .refuse outcome fields => .refuse outcome fields
  | .done fields w => .done fields w.blind
  | .restart t => .restart t.blind

@[simp] theorem Answer.blind_refuse (outcome : OutcomeCode) (fields : List Byte) :
    (Answer.refuse outcome fields).blind = .refuse outcome fields := rfl
@[simp] theorem Answer.blind_done (fields : List Byte) (w : Work) :
    (Answer.done fields w).blind = .done fields w.blind := rfl
@[simp] theorem Answer.blind_restart (t : State) : (Answer.restart t).blind = .restart t.blind := rfl
@[simp] theorem Answer.blind_plain (fields : List Byte) (s : State) :
    (Answer.plain fields s).blind = .plain fields s.blind := rfl

@[simp] theorem Answer.blind_blind (a : Answer) : a.blind.blind = a.blind := by
  cases a <;> simp

@[simp] theorem Answer.blind_ite (c : Prop) [Decidable c] (a b : Answer) :
    (if c then a else b).blind = if c then a.blind else b.blind := apply_ite Answer.blind c a b

/-- An outcome without the secrets of its next state. -/
def outcomeBlind : Host.Outcome State Fault Refusal → Host.Outcome State Fault Refusal
  | .next t => .next t.blind
  | .fault r => .fault r
  | .refused r => .refused r

@[simp] theorem outcomeBlind_next (t : State) : outcomeBlind (.next t) = .next t.blind := rfl

@[simp] theorem outcomeBlind_ite (c : Prop) [Decidable c] (x y : Host.Outcome State Fault Refusal) :
    outcomeBlind (if c then x else y) = if c then outcomeBlind x else outcomeBlind y :=
  apply_ite _ c x y

@[simp] theorem outcomeBlind_outcomeBlind (x : Host.Outcome State Fault Refusal) :
    outcomeBlind (outcomeBlind x) = outcomeBlind x := by cases x <;> simp [outcomeBlind]

theorem State.replied_blind (s : State) (p : Port) (o : OrderRecord) (a : Answer) :
    s.blind.replied p o a.blind = (s.replied p o a).blind := by
  cases a <;> simp [State.replied, State.postAll_blind]

theorem answerTo_blind (o : OrderRecord) (codes : List Byte → Bool) (authority : Authority) (p : Port)
    (s : State) (own : Answer) :
    answerTo o codes authority p s.blind own.blind = (answerTo o codes authority p s own).blind := by
  unfold answerTo
  rw [State.blind_mastership]
  split
  · rfl
  · cases authorityCheck authority p s.mastership <;> rfl

theorem State.takeHead_blind (s : State) :
    s.blind.takeHead = s.takeHead.map fun h => (h.1, h.2.1, h.2.2.blind) := by
  unfold State.takeHead
  rw [State.blind_grant]
  cases s.grant with
  | none => rfl
  | some p =>
    simp only [State.blind_port]
    cases (s.port p).orders with
    | nil => rfl
    | cons o rest =>
      simp only [State.setPort_blind]
      rfl

/-- A take does the same on a state whose secrets are hidden, when the row's own answer does. -/
theorem takeOrder_blind {mine : OrderRecord → Bool} {codes : List Byte → Bool}
    {authority : Authority} {body : Port → List Byte → State → Answer}
    (hbody : ∀ p params s, (body p params s.blind).blind = (body p params s).blind) (s : State) :
    outcomeBlind (takeOrder mine codes authority body s.blind)
      = outcomeBlind (takeOrder mine codes authority body s) := by
  unfold takeOrder
  rw [State.takeHead_blind]
  cases s.takeHead with
  | none => simp
  | some h =>
    obtain ⟨p, o, taken⟩ := h
    have hsame : (taken.blind.replied p o (answerTo o codes authority p taken.blind
        (body p o.params taken.blind))).blind
          = (taken.replied p o (answerTo o codes authority p taken (body p o.params taken))).blind := by
      rw [← State.replied_blind, State.blind_blind, ← answerTo_blind, State.blind_blind, hbody,
        answerTo_blind, State.replied_blind]
    simp [hsame]

/-- A row does the same, once the secrets are hidden, on a state whose secrets are hidden. -/
def BlindRow (i : Instr) : Prop := ∀ s, outcomeBlind (exec i s.blind) = outcomeBlind (exec i s)

theorem blindRow_of_take {i : Instr} {mine : OrderRecord → Bool} {codes : List Byte → Bool}
    {authority : Authority} {body : Port → List Byte → State → Answer}
    (meaning : State → Host.Outcome State Fault Refusal) (hexec : ∀ s, exec i s = meaning s)
    (htake : ∀ s, meaning s = takeOrder mine codes authority body s)
    (hbody : ∀ p params s, (body p params s.blind).blind = (body p params s).blind) : BlindRow i := by
  intro s
  rw [hexec, hexec, htake, htake]
  exact takeOrder_blind hbody s

/-- A row whose own answer reads no secret and writes none. -/
theorem blindRow_of_answer {i : Instr} {mine : OrderRecord → Bool} {codes : List Byte → Bool}
    {authority : Authority} {body : Port → List Byte → State → Answer}
    (meaning : State → Host.Outcome State Fault Refusal) (hexec : ∀ s, exec i s = meaning s)
    (htake : ∀ s, meaning s = takeOrder mine codes authority body s)
    (hbody : ∀ p params s, body p params s.blind = (body p params s).blind) : BlindRow i :=
  blindRow_of_take meaning hexec htake fun p params s => by rw [hbody, Answer.blind_blind]

/-- A command that reads no secret and writes none. -/
theorem blindRow_of_exec {i : Instr} (h : ∀ s, exec i s.blind = outcomeBlind (exec i s)) :
    BlindRow i := fun s => by rw [h, outcomeBlind_outcomeBlind]

@[simp] theorem releasedBetween_blind (s t : State) :
    releasedBetween s.blind t.blind = releasedBetween s t := (rfl)

/-! ### Mastership (R18 to R24) -/

theorem masteryDone_blind (s : State) (cause : Option MasteryCause) (former : Option Controller) :
    masteryDone s.blind cause former = (masteryDone s cause former).blind := by
  cases cause <;> rfl

theorem byController_blind {body : Controller → State → Answer}
    (h : ∀ x s, body x s.blind = (body x s).blind) (p : Port) (s : State) :
    byController body p s.blind = (byController body p s).blind := by
  cases p
  · exact h .a s
  · exact h .b s
  · rfl

theorem claim_blind : BlindRow .claim :=
  blindRow_of_answer execClaim (fun _ => rfl) (fun _ => rfl) fun p _ =>
    byController_blind (fun x s => by
      unfold claimBy
      rw [State.blind_mastership]
      cases s.mastership <;> simp [masteryDone_blind]) p

theorem pulse_blind : BlindRow .pulse :=
  blindRow_of_answer execPulse (fun _ => rfl) (fun _ => rfl) fun p _ =>
    byController_blind (fun x s => by
      unfold pulseBy
      rw [State.blind_mastership]
      cases s.mastership <;> simp [masteryDone_blind]) p

theorem yield_blind : BlindRow .yield :=
  blindRow_of_answer execYield (fun _ => rfl) (fun _ => rfl) fun p _ =>
    byController_blind (fun x s => by
      unfold yieldBy
      rw [Answer.blind_ite, ← masteryDone_blind]
      rfl) p

theorem assign_blind : BlindRow .assign :=
  blindRow_of_answer execAssign (fun _ => rfl) (fun _ => rfl) fun _ params s => by
    unfold assignTo
    rw [← masteryDone_blind]
    cases (assignTargetOf (paramByte params 0)).getD none <;> rfl

theorem setLapse_blind : BlindRow .setLapse :=
  blindRow_of_answer execSetLapse (fun _ => rfl) (fun _ => rfl) fun _ _ _ => rfl

theorem lookMastership_blind : BlindRow .lookMastership :=
  blindRow_of_answer execLookMastership (fun _ => rfl) (fun _ => rfl) fun _ _ _ => rfl

/-! ### The directory (R32 to R42) -/

theorem onEntry_blind (identity : Nat) (s : State) {body body' : DirectoryEntry → Answer}
    (h : ∀ e, (body' e.blinded).blind = (body e).blind) :
    (onEntry identity s.blind body').blind = (onEntry identity s body).blind := by
  unfold onEntry
  rw [State.blind_entry]
  cases s.entry identity with
  | none => rfl
  | some e => simp only [Option.map_some, Answer.blind_ite, h]

theorem insertEntry_blinded (e : DirectoryEntry) (es : List DirectoryEntry) :
    (insertEntry e (es.map DirectoryEntry.blinded)).map DirectoryEntry.blinded
      = (insertEntry e es).map DirectoryEntry.blinded := by
  induction es with
  | nil => rfl
  | cons d ds ih =>
    simp only [List.map_cons, insertEntry, DirectoryEntry.blinded_identity]
    split
    · simp
    · simp [ih]

theorem State.insert_blind (s : State) (e : DirectoryEntry) :
    ({ s.blind with directory := insertEntry e s.blind.directory } : State).blind
      = ({ s with directory := insertEntry e s.directory } : State).blind := by
  simp [State.blind, insertEntry_blinded, Function.comp_def]

@[simp] theorem State.blind_directory_length (s : State) :
    s.blind.directory.length = s.directory.length := List.length_map _

theorem enter_blind : BlindRow .enter :=
  blindRow_of_take execEnter (fun _ => rfl) (fun _ => rfl) fun _ params s => by
    unfold enterEntry
    simp only [Answer.blind_ite, Answer.blind_plain, Answer.blind_refuse, State.insert_blind,
      State.blind_entry, Option.isSome_map, State.blind_directory_length]
    have hcount : entryCountField { s.blind with
        directory := insertEntry (enteredEntry params) s.blind.directory }
          = entryCountField { s with directory := insertEntry (enteredEntry params) s.directory } := by
      simp only [entryCountField, (insertEntry_perm _ _).length_eq, List.length_cons,
        State.blind_directory_length]
    rw [hcount]

theorem Work.abandonIdentity_blind (w : Work) (reason : RefusalReason) (identity : Nat)
    (selects : Nat → Bool) :
    w.blind.abandonIdentity reason identity selects
      = (w.abandonIdentity reason identity selects).blind := by
  unfold Work.abandonIdentity
  rw [Work.blind_state, State.blind_challengedPositions]
  exact List.foldl_hom Work.blind fun v n => v.abandon_blind reason n

theorem Work.retireIdentity_blind (w : Work) (reason : ReleaseReason) (identity : Nat) :
    w.blind.retireIdentity reason identity = (w.retireIdentity reason identity).blind := by
  have hwithdrawn : w.blind.withdrawIdentity reason identity
      = (w.withdrawIdentity reason identity).blind := by
    unfold Work.withdrawIdentity
    rw [Work.blind_state, State.blind_admittedAt]
    cases w.state.admittedAt identity <;> simp
  unfold Work.retireIdentity
  rw [hwithdrawn, Work.abandonIdentity_blind]

@[simp] theorem State.blind_challengeCount (s : State) (identity : Nat) :
    s.blind.challengeCount identity = s.challengeCount identity := by
  simp [State.challengeCount]

theorem remove_blind : BlindRow .remove :=
  blindRow_of_take execRemove (fun _ => rfl) (fun _ => rfl) fun _ params s => onEntry_blind _ s fun e => by
    simp [Work.retireIdentity_blind]

theorem setSecret_blind : BlindRow .setSecret :=
  blindRow_of_take execSetSecret (fun _ => rfl) (fun _ => rfl) fun _ params s =>
    onEntry_blind _ s fun e => by
      have hblind := fun u : State => u.mapEntry_blind (param2 params 0)
        (f := fun e => { e with secret := paramWord params 2 }) (g := DirectoryEntry.blinded)
        fun _ => rfl
      have hwritten := (hblind s.blind).symm.trans (s.blind_blind.symm ▸ hblind s)
      rw [Answer.blind_plain, Answer.blind_plain, hwritten]

theorem suspend_blind : BlindRow .suspend :=
  blindRow_of_take execSuspend (fun _ => rfl) (fun _ => rfl) fun _ params s => onEntry_blind _ s fun e => by
    have hmapped : s.blind.mapEntry (param2 params 0) (fun e => { e with suspended := true })
        = (s.mapEntry (param2 params 0) fun e => { e with suspended := true }).blind :=
      s.mapEntry_blind _ fun _ => rfl
    simp [hmapped, Work.retireIdentity_blind]

theorem resume_blind : BlindRow .resume :=
  blindRow_of_take execResume (fun _ => rfl) (fun _ => rfl) fun _ params s => onEntry_blind _ s fun e => by
    have hmapped : s.blind.mapEntry (param2 params 0) (fun e => { e with suspended := false })
        = (s.mapEntry (param2 params 0) fun e => { e with suspended := false }).blind :=
      s.mapEntry_blind _ fun _ => rfl
    simp [hmapped]

theorem Work.applyHomePorts_blind (w : Work) (e : DirectoryEntry) :
    w.blind.applyHomePorts e.blinded = (w.applyHomePorts e).blind := by
  unfold Work.applyHomePorts
  simp only [Work.blind_state, DirectoryEntry.blinded_identity, State.blind_admittedAt,
    DirectoryEntry.blinded_admitsLine]
  cases w.state.admittedAt e.identity with
  | none => exact Work.abandonIdentity_blind _ _ _ _
  | some n =>
    simp only [Work.withdraw_blind, ← Work.blind_ite]
    exact Work.abandonIdentity_blind _ _ _ _

theorem Work.judgeClass_blind (w : Work) (e : DirectoryEntry) :
    w.blind.judgeClass e.blinded = (w.judgeClass e).blind := by
  unfold Work.judgeClass
  simp only [Work.blind_state, DirectoryEntry.blinded_identity, State.blind_admittedAt]
  cases w.state.admittedAt e.identity with
  | none => rfl
  | some n => exact w.releaseWhere_blind _ _

theorem amend_blind : BlindRow .amend :=
  blindRow_of_answer execAmend (fun _ => rfl) (fun _ => rfl) fun _ params s => by
    unfold amendEntry
    dsimp only
    rw [Answer.blind_ite, State.blind_entry]
    cases s.entry (param2 params 0) with
    | none => rfl
    | some e =>
      have hamended : amendedEntry params e.blinded = (amendedEntry params e).blinded := rfl
      have hmapped : s.blind.mapEntry (param2 params 0) (amendedEntry params)
          = (s.mapEntry (param2 params 0) (amendedEntry params)).blind :=
        s.mapEntry_blind _ fun _ => rfl
      simp only [Option.map_some, hamended, hmapped, Work.start_blind, Work.applyHomePorts_blind,
        Work.judgeClass_blind, ← Work.blind_ite, Work.blind_state, releasedBetween_blind, State.blind_admittedAt,
        State.blind_challengedPositions, DirectoryEntry.blinded_admitsLine, Answer.blind_done,
        Answer.blind_refuse]
      rfl

theorem lookEntryFields_blind (s : State) (e : DirectoryEntry) :
    lookEntryFields s.blind e.blinded = lookEntryFields s e := by
  have hclass : s.blind.effectiveClass = s.effectiveClass := funext s.blind_effectiveClass
  simp only [lookEntryFields, DirectoryEntry.blinded_identity, State.blind_admittedAt, hclass]
  simp [entryFields, entryCountField]

theorem lookEntry_blind : BlindRow .lookEntry :=
  blindRow_of_answer execLookEntry (fun _ => rfl) (fun _ => rfl) fun _ params s => by
    rw [State.blind_entry]
    cases s.entry (param2 params 0) <;>
      simp [lookEntryFields_blind, entryCountField]

theorem lookNextEntry_blind : BlindRow .lookNextEntry :=
  blindRow_of_answer execLookNextEntry (fun _ => rfl) (fun _ => rfl) fun _ params s => by
    have hfound : (s.blind.directory.find? fun e => decide (param2 params 0 < e.identity))
        = (s.directory.find? fun e => decide (param2 params 0 < e.identity)).map
            DirectoryEntry.blinded := List.find?_map
    rw [hfound]
    cases s.directory.find? fun e => decide (param2 params 0 < e.identity) <;>
      simp [lookEntryFields_blind, entryCountField]

theorem setPrecedenceMap_blind : BlindRow .setPrecedenceMap :=
  blindRow_of_answer execSetPrecedenceMap (fun _ => rfl) (fun _ => rfl) fun _ _ _ => by
    rw [Answer.blind_ite]
    rfl

theorem lookPrecedenceMap_blind : BlindRow .lookPrecedenceMap :=
  blindRow_of_answer execLookPrecedenceMap (fun _ => rfl) (fun _ => rfl) fun _ _ _ => rfl

/-! ### Line ports and stations (R48 to R73) -/

theorem setPort_blind : BlindRow .setPort :=
  blindRow_of_answer execSetPort (fun _ => rfl) (fun _ => rfl) fun _ params s => by
    have hcleared : ∀ (ns : List Nat) (w : Work),
        ns.foldl (fun w n => w.clearPosition .portDisabled n) w.blind
          = (ns.foldl (fun w n => w.clearPosition .portDisabled n) w).blind := fun ns w =>
      List.foldl_hom Work.blind fun v n => v.clearPosition_blind .portDisabled n
    unfold setPortSettings
    simp only [State.blind_line, State.setLine_blind, Work.start_blind, hcleared, Work.raise_blind,
      ← Work.blind_ite, Work.blind_state, releasedBetween_blind, State.blind_station,
      Station.blinded_state, StationState.blinded_admittedIdentity, Answer.blind_ite,
      Answer.blind_done, Answer.blind_refuse]

theorem lookPort_blind : BlindRow .lookPort :=
  blindRow_of_answer execLookPort (fun _ => rfl) (fun _ => rfl) fun _ _ s => by simp

theorem withdraw_blind : BlindRow .withdraw :=
  blindRow_of_answer execWithdraw (fun _ => rfl) (fun _ => rfl) fun _ params s => by
    unfold withdrawPosition
    rw [State.blind_identityAt]
    cases s.identityAt (param1 params 0) <;> simp

theorem deliver_blind : BlindRow .deliver :=
  blindRow_of_answer execDeliver (fun _ => rfl) (fun _ => rfl) fun _ params s => by
    have hdelivered : ∀ (n : Nat) (bytes : List Byte),
        s.blind.setStation n { s.blind.station n with
            deliver := (s.blind.station n).deliver ++ [bytes] }
          = (s.setStation n { s.station n with
              deliver := (s.station n).deliver ++ [bytes] }).blind := fun n bytes => by
      rw [← State.setStation_blind, State.blind_station]
      rfl
    unfold deliverTo
    rw [hdelivered]
    simp only [State.blind_identityAt, State.blind_station, Station.blinded_deliver,
      Answer.blind_ite, Answer.blind_plain, Answer.blind_refuse]

theorem releaseLockout_blind : BlindRow .releaseLockout :=
  blindRow_of_answer execReleaseLockout (fun _ => rfl) (fun _ => rfl) fun _ params s => by
    have hvacated : ∀ n : Nat,
        s.blind.setStation n { s.blind.station n with state := .vacant, failures := 0 }
          = (s.setStation n { s.station n with state := .vacant, failures := 0 }).blind := fun n => by
      rw [← State.setStation_blind, State.blind_station]
      rfl
    have hlocked : ∀ state : StationState, state.blinded = .locked ↔ state = .locked := by
      rintro (_ | _ | _ | _ | _) <;> simp
    dsimp only
    rw [hvacated, ← apply_ite State.blind]
    simp only [State.blind_station, Station.blinded_state, StationState.blinded_code,
      hlocked, Answer.blind_ite, Answer.blind_plain, Answer.blind_refuse]

theorem lookStation_blind : BlindRow .lookStation :=
  blindRow_of_answer execLookStation (fun _ => rfl) (fun _ => rfl) fun _ params s => by
    have hremaining : ∀ state : StationState,
        s.blind.deadlineRemaining state.blinded = s.deadlineRemaining state := by
      rintro (_ | _ | _ | _ | _) <;> rfl
    simp [hremaining]

theorem setAdmissionTimes_blind : BlindRow .setAdmissionTimes :=
  blindRow_of_answer execSetAdmissionTimes (fun _ => rfl) (fun _ => rfl) fun _ _ _ => rfl

theorem lookAdmissionTimes_blind : BlindRow .lookAdmissionTimes :=
  blindRow_of_answer execLookAdmissionTimes (fun _ => rfl) (fun _ => rfl) fun _ _ _ => rfl

theorem seedChallenge_blind : BlindRow .seedChallenge :=
  blindRow_of_answer execSeedChallenge (fun _ => rfl) (fun _ => rfl) fun _ _ _ => rfl

/-! ### Calls (R90 to R121) -/

@[simp] theorem State.blind_lacksAdmission (s : State) (r : ConnectRequest) :
    s.blind.lacksAdmission r = s.lacksAdmission r := by
  simp [State.lacksAdmission]

@[simp] theorem State.blind_serviceCheck (s : State) (r : ConnectRequest) :
    s.blind.serviceCheck r = s.serviceCheck r := by
  unfold State.serviceCheck
  cases r.stationAndTrunk with
  | none => rfl
  | some ends =>
    have hentry : (s.identityAt ends.1).bind s.blind.entry
        = ((s.identityAt ends.1).bind s.entry).map DirectoryEntry.blinded := by
      rw [funext s.blind_entry]
      cases s.identityAt ends.1 <;> rfl
    simp only [State.blind_identityAt, hentry]
    cases (s.identityAt ends.1).bind s.entry <;> rfl

@[simp] theorem State.blind_connectRefusal (s : State) (r : ConnectRequest) :
    s.blind.connectRefusal r = s.connectRefusal r := by
  unfold State.connectRefusal
  rw [State.blind_lacksAdmission, State.blind_serviceCheck]
  rfl

@[simp] theorem State.blind_recordedClass (s : State) (r : ConnectRequest) :
    s.blind.recordedClass r = s.recordedClass r := by
  simp [State.recordedClass]

@[simp] theorem State.blind_judgeTake (s : State) (r : ConnectRequest) (k : Nat) :
    s.blind.judgeTake r k = s.judgeTake r k := (rfl)

@[simp] theorem Work.makeConnection_blind (w : Work) (r : ConnectRequest) (c : Connection) :
    w.blind.makeConnection r c = (w.makeConnection r c).blind := by
  have hentered : ∀ (es : List Nat) (v : Work),
      es.foldl Work.enterSlot v.blind = (es.foldl Work.enterSlot v).blind := fun es v =>
    List.foldl_hom Work.blind fun v e => by simp [Work.enterSlot]
  have hfilled : (w.blind.update fun s =>
      { s with connections := insertConnection c s.connections })
        = (w.update fun s => { s with connections := insertConnection c s.connections }).blind := rfl
  have hallocated : ∀ v : Work,
      (v.blind.update fun s => (c.privacy.map (s.allocateLeg r.start)).getD s)
        = (v.update fun s => (c.privacy.map (s.allocateLeg r.start)).getD s).blind := fun v => by
    cases c.privacy <;> rfl
  have hnewly : w.blind.state.newlyBusy = w.state.newlyBusy := rfl
  unfold Work.makeConnection
  rw [hfilled, hnewly]
  dsimp only
  rw [hallocated, hentered]

theorem connect_blind : BlindRow .connect :=
  blindRow_of_answer execConnect (fun _ => rfl) (fun _ => rfl) fun _ params s => by
    have hpreempted : ∀ (vs : List Nat) (w : Work),
        vs.foldl Work.preempt w.blind = (vs.foldl Work.preempt w).blind := fun vs w =>
      List.foldl_hom Work.blind fun v n => v.releaseWhere_blind _ _
    have hnew : ∀ (t : State) (r : ConnectRequest) (k : Nat),
        t.blind.newConnection r k = t.newConnection r k := fun _ _ _ => rfl
    unfold connectTake
    rw [State.blind_connectRefusal, State.blind_recordedClass, State.blind_judgeTake]
    cases s.connectRefusal (connectRequest params) with
    | some outcome => rfl
    | none =>
      cases s.judgeTake (connectRequest params) (s.recordedClass (connectRequest params)) with
      | error outcome => rfl
      | ok victims => simp [hpreempted, hnew]

theorem releaseById_blind : BlindRow .releaseById :=
  blindRow_of_answer execReleaseById (fun _ => rfl) (fun _ => rfl) fun _ params s => by
    unfold releaseId
    rw [State.blind_connection]
    cases s.connection (param2 params 1) <;> simp

theorem releaseByTag_blind : BlindRow .releaseByTag :=
  blindRow_of_answer execReleaseByTag (fun _ => rfl) (fun _ => rfl) fun _ params s => by
    simp [releaseTag]

theorem setMuteCode_blind : BlindRow .setMuteCode :=
  blindRow_of_answer execSetMuteCode (fun _ => rfl) (fun _ => rfl) fun _ _ _ => rfl

theorem lookConnection_blind : BlindRow .lookConnection :=
  blindRow_of_answer execLookConnection (fun _ => rfl) (fun _ => rfl) fun _ params s => by
    rw [State.blind_connection]
    cases s.connection (param1 params 0) <;> simp

theorem lookNextConnection_blind : BlindRow .lookNextConnection :=
  blindRow_of_answer execLookNextConnection (fun _ => rfl) (fun _ => rfl) fun _ params s => by
    have hnext : ∀ id tag, s.blind.nextConnection id tag = s.nextConnection id tag := fun _ _ => rfl
    have hcounts : recordCountFields s.blind = recordCountFields s := rfl
    rw [hnext, hcounts, Answer.blind_ite]
    cases s.nextConnection (param1 params 0)
      (if flagSet (paramByte params 1) then some (paramWord params 2) else none) <;> rfl

theorem lookEndpoint_blind : BlindRow .lookEndpoint :=
  blindRow_of_answer execLookEndpoint (fun _ => rfl) (fun _ => rfl) fun _ _ _ => by
    rw [Answer.blind_ite]
    rfl

theorem lookNetwork_blind : BlindRow .lookNetwork :=
  blindRow_of_answer execLookNetwork (fun _ => rfl) (fun _ => rfl) fun _ _ _ => rfl

/-! ### Trunks, keys and legs (R111 to R145) -/

theorem setTrunk_blind : BlindRow .setTrunk :=
  blindRow_of_answer execSetTrunk (fun _ => rfl) (fun _ => rfl) fun _ params s => by
    simp [setTrunkSlot]

theorem setGroup_blind : BlindRow .setGroup :=
  blindRow_of_answer execSetGroup (fun _ => rfl) (fun _ => rfl) fun _ params s => by
    simp [setGroupSettings]

theorem lookTrunk_blind : BlindRow .lookTrunk :=
  blindRow_of_answer execLookTrunk (fun _ => rfl) (fun _ => rfl) fun _ _ _ => by
    rw [Answer.blind_ite]
    rfl

theorem lookGroup_blind : BlindRow .lookGroup :=
  blindRow_of_answer execLookGroup (fun _ => rfl) (fun _ => rfl) fun _ _ _ => by
    dsimp only
    rw [Answer.blind_ite]
    rfl

theorem onFreeKey_blind (index : Nat) (s : State) {own own' : Answer} (h : own' = own.blind) :
    onFreeKey index s.blind own' = (onFreeKey index s own).blind := by
  simp [onFreeKey, h]

theorem loadKey_blind : BlindRow .loadKey :=
  blindRow_of_answer execLoadKey (fun _ => rfl) (fun _ => rfl) fun _ _ s =>
    onFreeKey_blind _ s rfl

theorem eraseKey_blind : BlindRow .eraseKey :=
  blindRow_of_answer execEraseKey (fun _ => rfl) (fun _ => rfl) fun _ _ s =>
    onFreeKey_blind _ s rfl

theorem lookKey_blind : BlindRow .lookKey :=
  blindRow_of_answer execLookKey (fun _ => rfl) (fun _ => rfl) fun _ _ _ => by
    dsimp only
    rw [Answer.blind_ite]
    rfl

theorem resync_blind : BlindRow .resync :=
  blindRow_of_answer execResync (fun _ => rfl) (fun _ => rfl) fun _ params s => by
    unfold resyncId
    rw [State.blind_connection, Answer.blind_ite]
    cases (s.connection (param1 params 0)).bind (·.privacy) with
    | none => rfl
    | some part =>
      simp only [State.blind_leg]
      cases part.direction <;> cases s.leg part.leg <;> rfl

theorem lookLeg_blind : BlindRow .lookLeg :=
  blindRow_of_answer execLookLeg (fun _ => rfl) (fun _ => rfl) fun _ params s => by
    unfold lookLegId
    rw [State.blind_connection, Answer.blind_ite]
    cases (s.connection (param1 params 0)).bind (·.privacy) with
    | none => rfl
    | some part =>
      simp only [State.blind_leg]
      cases s.leg part.leg <;> rfl

/-! ### Trace (R161 to R167) -/

theorem armWatch_blind : BlindRow .armWatch :=
  blindRow_of_answer execArmWatch (fun _ => rfl) (fun _ => rfl) fun _ params s => by
    unfold armWatchOn
    simp only [State.blind_watch, State.blind_watches, Answer.blind_ite]
    cases (List.range 4).find? fun n => s.watch n == .idle <;> rfl

theorem disarmWatch_blind : BlindRow .disarmWatch :=
  blindRow_of_answer execDisarmWatch (fun _ => rfl) (fun _ => rfl) fun _ _ s => by
    simp [watchBeforeFields]

theorem clearTrace_blind : BlindRow .clearTrace :=
  blindRow_of_answer execClearTrace (fun _ => rfl) (fun _ => rfl) fun _ params s => by
    unfold clearTraceOf
    rw [State.blind_watch]
    cases s.watch (param1 params 0) <;> simp [watchBeforeFields]

theorem releaseHold_blind : BlindRow .releaseHold :=
  blindRow_of_answer execReleaseHold (fun _ => rfl) (fun _ => rfl) fun _ params s => by
    unfold releaseHoldOf
    rw [State.blind_watch]
    cases s.watch (param1 params 0) <;> simp [State.tracedStillHeld]

theorem lookWatch_blind : BlindRow .lookWatch :=
  blindRow_of_answer execLookWatch (fun _ => rfl) (fun _ => rfl) fun _ _ _ => by
    unfold lookWatchOf
    rw [Answer.blind_ite]
    rfl

/-! ### Restarts and ports (R13, R170 to R175) -/

@[simp] theorem State.startCold_blind (s : State) (cause : RestartCause) :
    s.blind.startCold cause = (s.startCold cause).blind := by
  have hvacant : State.reset.stations.map Station.blinded = State.reset.stations := by
    simp [State.reset, Station.blinded, Station.reset]
  unfold State.startCold State.blind
  simp only [hvacant]
  rfl

theorem Station.keptByRestart_blinded (st : Station) :
    st.blinded.keptByRestart = st.keptByRestart.blinded := by
  cases h : st.state <;> simp [Station.keptByRestart, Station.blinded_eq, h]

@[simp] theorem State.startKeep_blind (s : State) (cause : RestartCause) :
    s.blind.startKeep cause = (s.startKeep cause).blind := by
  have htables : s.blind.keepTables cause = (s.keepTables cause).blind := by
    simp [State.keepTables, State.blind, Station.keptByRestart_blinded, Function.comp_def]
  simp [State.startKeep, htables]

theorem restartCold_blind : BlindRow .restartCold :=
  blindRow_of_answer execRestartCold (fun _ => rfl) (fun _ => rfl) fun _ _ s => by simp

theorem restartKeep_blind : BlindRow .restartKeep :=
  blindRow_of_answer execRestartKeep (fun _ => rfl) (fun _ => rfl) fun _ _ s => by simp

theorem readCauses_blind : BlindRow .readCauses :=
  blindRow_of_answer execReadCauses (fun _ => rfl) (fun _ => rfl) fun _ _ s => by simp

theorem setPortMode_blind : BlindRow .setPortMode :=
  blindRow_of_answer execSetPortMode (fun _ => rfl) (fun _ => rfl) fun _ _ s => by simp

theorem unknownOrder_blind : BlindRow .unknownOrder :=
  blindRow_of_answer execUnknownOrder (fun _ => rfl) (fun _ => rfl) fun _ _ _ => rfl

/-! ### Transfers (R2 to R5) -/

@[simp] theorem State.openTransfer_blind (s : State) (p : Port) :
    s.blind.openTransfer p = (s.openTransfer p).blind := by
  have hstatus : s.blind.statusByteOf p = s.statusByteOf p := by
    simp [State.statusByteOf]
  simp [State.openTransfer, hstatus]

@[simp] theorem State.inTransfer_blind (s : State) (p : Port) :
    s.blind.inTransfer p = (s.inTransfer p).blind := by
  unfold State.inTransfer
  rw [State.blind_port, State.openTransfer_blind, ← apply_ite State.blind]

theorem orderTransfer_blind (p : Port) (part : TransferPart) (record : List Byte) :
    BlindRow (.orderTransfer p part record) :=
  blindRow_of_exec fun s => by
    change execOrderTransfer p part record s.blind = outcomeBlind (execOrderTransfer p part record s)
    cases part <;> simp [execOrderTransfer]

theorem fetchTransfer_blind (p : Port) (part : TransferPart) : BlindRow (.fetchTransfer p part) :=
  blindRow_of_exec fun s => by
    change execFetchTransfer p part s.blind = outcomeBlind (execFetchTransfer p part s)
    cases part <;> simp [execFetchTransfer]

theorem statusTransfer_blind (p : Port) (part : TransferPart) : BlindRow (.statusTransfer p part) :=
  blindRow_of_exec fun s => by
    change execStatusTransfer p part s.blind = outcomeBlind (execStatusTransfer p part s)
    cases part <;> simp [execStatusTransfer]

theorem unknownTransferKind_blind (p : Port) (kind : Option Byte) :
    BlindRow (.unknownTransferKind p kind) :=
  blindRow_of_exec fun s => by
    change execUnknownTransferKind p kind s.blind = outcomeBlind (execUnknownTransferKind p kind s)
    simp [execUnknownTransferKind]

/-! ### Stations (R58 to R69) -/

theorem State.setStationState_blind (s : State) (n : Nat) (state : StationState) :
    (s.setStationState n state).blind = s.blind.setStationState n state.blinded := by
  unfold State.setStationState
  rw [← State.setStation_blind, State.blind_station, Station.blinded_eq, Station.blinded_eq]

/-- The expected response of a challenge is hidden with the secret it comes from (R60). -/
theorem Work.issueChallenge_blind (w : Work) (n identity : Nat) (e : DirectoryEntry) :
    (w.blind.issueChallenge n identity e.blinded).blind = (w.issueChallenge n identity e).blind := by
  have hsequence : ∀ x : Word16, ({ w.state.blind with challengeSequence := x } : State).blind
      = ({ w.state with challengeSequence := x } : State).blind := fun x =>
    State.blind_blind { w.state with challengeSequence := x }
  unfold Work.issueChallenge Work.update Work.blind
  simp only [← State.placeMessage_blind, State.setStationState_blind, hsequence]
  rfl

theorem Work.judgeRegister_blind (w : Work) (n identity : Nat) :
    (w.blind.judgeRegister n identity).blind = (w.judgeRegister n identity).blind := by
  unfold Work.judgeRegister
  rw [Work.blind_state, State.blind_entry]
  cases w.state.entry identity with
  | none => simp
  | some e => simp [Work.issueChallenge_blind]

theorem Work.takeRegister_blind (w : Work) (n identity : Nat) :
    (w.blind.takeRegister n identity).blind = (w.takeRegister n identity).blind := by
  unfold Work.takeRegister
  rw [Work.blind_state, State.blind_station, Station.blinded_state]
  cases (w.state.station n).state <;> simp [Work.judgeRegister_blind]

theorem register_blind (n : Fin 96) (identity : Word16) : BlindRow (.register n identity) := by
  intro s
  change outcomeBlind (execRegister n identity s.blind) = outcomeBlind (execRegister n identity s)
  simp [execRegister, ← Work.finish_blind, Work.takeRegister_blind]

theorem leave_blind (n : Fin 96) : BlindRow (.leave n) :=
  blindRow_of_exec fun s => by
    have hleft : ∀ w : Work, w.blind.takeLeave n.val = (w.takeLeave n.val).blind := fun w => by
      cases hn : (w.state.station n.val).state <;> simp [Work.takeLeave, hn]
    change execLeave n s.blind = outcomeBlind (execLeave n s)
    simp [execLeave, hleft]

theorem signal_blind (n : Fin 96) (bytes : List Byte) : BlindRow (.signal n bytes) :=
  blindRow_of_exec fun s => by
    change execSignal n bytes s.blind = outcomeBlind (execSignal n bytes s)
    cases hn : (s.station n.val).state <;> simp [execSignal, hn]

theorem answerDeadlineExpiry_blind (n : Fin 96) : BlindRow (.answerDeadlineExpiry n) :=
  blindRow_of_exec fun s => by
    change execAnswerDeadlineExpiry n s.blind = outcomeBlind (execAnswerDeadlineExpiry n s)
    cases hn : (s.station n.val).state <;> simp [execAnswerDeadlineExpiry, hn]

theorem holdOffExpiry_blind (n : Fin 96) : BlindRow (.holdOffExpiry n) :=
  blindRow_of_exec fun s => by
    change execHoldOffExpiry n s.blind = outcomeBlind (execHoldOffExpiry n s)
    cases hn : (s.station n.val).state <;> simp [execHoldOffExpiry, hn]

/-! ### Lines, frames, timers and the reset (R17, R50, R51, R57, R86, R102, R170) -/

theorem babble_blind (n : Fin 48) : BlindRow (.babble n) :=
  blindRow_of_exec fun s => by
    change execBabble n s.blind = outcomeBlind (execBabble n s)
    simp [execBabble]

theorem linkUp_blind (n : Fin 48) : BlindRow (.linkUp n) :=
  blindRow_of_exec fun s => by
    change execLinkUp n s.blind = outcomeBlind (execLinkUp n s)
    simp [execLinkUp]

theorem linkDown_blind (n : Fin 48) : BlindRow (.linkDown n) :=
  blindRow_of_exec fun s => by
    change execLinkDown n s.blind = outcomeBlind (execLinkDown n s)
    simp [execLinkDown]

theorem beginSend_blind (n : Fin 48) : BlindRow (.beginSend n) :=
  blindRow_of_exec fun s => by
    have hserved : ∀ (l : LinePort) (st st' : Station),
        servedSecond l st.blinded st'.blinded = servedSecond l st st' := fun _ _ _ => rfl
    change execBeginSend n s.blind = outcomeBlind (execBeginSend n s)
    cases hs : servedSecond (s.line n) (s.station (2 * n)) (s.station (2 * n + 1)) <;>
      simp [execBeginSend, hserved, hs]

theorem sendCompletion_blind (n : Fin 48) : BlindRow (.sendCompletion n) :=
  blindRow_of_exec fun _ => rfl

theorem sampleArrival_blind (samples : List Byte) : BlindRow (.sampleArrival samples) :=
  blindRow_of_exec fun _ => rfl

theorem frameStart_blind : BlindRow .frameStart :=
  blindRow_of_exec fun s => by
    change execFrameStart s.blind = outcomeBlind (execFrameStart s)
    simp [execFrameStart]

theorem lapseTimerExpiry_blind : BlindRow .lapseTimerExpiry :=
  blindRow_of_exec fun s => by
    change execLapseTimerExpiry s.blind = outcomeBlind (execLapseTimerExpiry s)
    unfold execLapseTimerExpiry
    rw [State.blind_mastership]
    cases s.mastership with
    | vacant | lapsed => rfl
    | held x expiry =>
      rw [outcomeBlind_next, ← Work.finish_blind]
      rfl

theorem powerOn_blind : BlindRow .powerOn :=
  blindRow_of_exec fun s => by
    change execPowerOn s.blind = outcomeBlind (execPowerOn s)
    simp [execPowerOn]

theorem resetPin_blind : BlindRow .resetPin :=
  blindRow_of_exec fun s => by
    change execResetPin s.blind = outcomeBlind (execResetPin s)
    unfold execResetPin
    rw [State.startCold_blind, outcomeBlind_ite]
    rfl

theorem resetPinRelease_blind : BlindRow .resetPinRelease :=
  blindRow_of_exec fun s => by
    have hreleased : s.blind.releasePin = s.releasePin.blind := rfl
    change execResetPinRelease s.blind = outcomeBlind (execResetPinRelease s)
    simp [execResetPinRelease, hreleased]

theorem restartComplete_blind (links : List Bool) : BlindRow (.restartComplete links) :=
  blindRow_of_exec fun s => by
    have hended : ∀ mode, s.blind.endRestart mode = (s.endRestart mode).blind := fun _ => rfl
    change execRestartComplete links s.blind = outcomeBlind (execRestartComplete links s)
    cases hm : s.restart <;> simp [execRestartComplete, hm, hended]

/-! ### Every command but ANSWER -/

theorem exec_blind {i : Instr} (hi : ∀ n response, i ≠ .answer n response) : BlindRow i := by
  cases i
  case answer n response => exact absurd rfl (hi n response)
  case orderTransfer p part record => exact orderTransfer_blind p part record
  case fetchTransfer p part => exact fetchTransfer_blind p part
  case statusTransfer p part => exact statusTransfer_blind p part
  case unknownTransferKind p kind => exact unknownTransferKind_blind p kind
  case unknownOrder => exact unknownOrder_blind
  case claim => exact claim_blind
  case pulse => exact pulse_blind
  case yield => exact yield_blind
  case assign => exact assign_blind
  case setLapse => exact setLapse_blind
  case lookMastership => exact lookMastership_blind
  case enter => exact enter_blind
  case remove => exact remove_blind
  case setSecret => exact setSecret_blind
  case amend => exact amend_blind
  case suspend => exact suspend_blind
  case resume => exact resume_blind
  case lookEntry => exact lookEntry_blind
  case lookNextEntry => exact lookNextEntry_blind
  case setPrecedenceMap => exact setPrecedenceMap_blind
  case lookPrecedenceMap => exact lookPrecedenceMap_blind
  case setPort => exact setPort_blind
  case lookPort => exact lookPort_blind
  case withdraw => exact withdraw_blind
  case deliver => exact deliver_blind
  case releaseLockout => exact releaseLockout_blind
  case lookStation => exact lookStation_blind
  case setAdmissionTimes => exact setAdmissionTimes_blind
  case lookAdmissionTimes => exact lookAdmissionTimes_blind
  case seedChallenge => exact seedChallenge_blind
  case connect => exact connect_blind
  case releaseById => exact releaseById_blind
  case releaseByTag => exact releaseByTag_blind
  case setMuteCode => exact setMuteCode_blind
  case lookConnection => exact lookConnection_blind
  case lookNextConnection => exact lookNextConnection_blind
  case lookEndpoint => exact lookEndpoint_blind
  case lookNetwork => exact lookNetwork_blind
  case setTrunk => exact setTrunk_blind
  case setGroup => exact setGroup_blind
  case lookTrunk => exact lookTrunk_blind
  case lookGroup => exact lookGroup_blind
  case loadKey => exact loadKey_blind
  case eraseKey => exact eraseKey_blind
  case lookKey => exact lookKey_blind
  case resync => exact resync_blind
  case lookLeg => exact lookLeg_blind
  case armWatch => exact armWatch_blind
  case disarmWatch => exact disarmWatch_blind
  case clearTrace => exact clearTrace_blind
  case releaseHold => exact releaseHold_blind
  case lookWatch => exact lookWatch_blind
  case restartCold => exact restartCold_blind
  case restartKeep => exact restartKeep_blind
  case readCauses => exact readCauses_blind
  case setPortMode => exact setPortMode_blind
  case lapseTimerExpiry => exact lapseTimerExpiry_blind
  case answerDeadlineExpiry n => exact answerDeadlineExpiry_blind n
  case holdOffExpiry n => exact holdOffExpiry_blind n
  case register n identity => exact register_blind n identity
  case leave n => exact leave_blind n
  case signal n bytes => exact signal_blind n bytes
  case unfitStationMessage line message => exact blindRow_of_exec fun _ => rfl
  case babble n => exact babble_blind n
  case linkUp n => exact linkUp_blind n
  case linkDown n => exact linkDown_blind n
  case beginSend n => exact beginSend_blind n
  case sendCompletion n => exact sendCompletion_blind n
  case sampleArrival samples => exact sampleArrival_blind samples
  case frameStart => exact frameStart_blind
  case powerOn => exact powerOn_blind
  case resetPin => exact resetPin_blind
  case resetPinRelease => exact resetPinRelease_blind
  case restartComplete links => exact restartComplete_blind links

/-! ### Steps -/

theorem sameButSecrets_iff (s t : State) : SameButSecrets s t ↔ s.blind = t.blind := by
  constructor
  · rintro ⟨hsame, hdirectory, hstations⟩
    calc s.blind
        = { s with
            directory := t.directory.map DirectoryEntry.blinded
            stations := t.stations.map Station.blinded } := by
          rw [← hstations, show t.directory.map DirectoryEntry.blinded = _ from hdirectory.symm]
          rfl
      _ = t.blind := by
          conv_rhs => rw [hsame]
          rfl
  · intro h
    have hrest : { s.blind with directory := t.directory, stations := t.stations }
        = { t.blind with directory := t.directory, stations := t.stations } := by rw [h]
    exact ⟨hrest.symm, congrArg State.directory h, congrArg State.stations h⟩

theorem sameOutside_of_blind {s t : State} (h : s.blind = t.blind) : SameOutside s t := by
  have hlines : s.blind.lines = t.blind.lines := congrArg State.lines h
  have houtgoing : s.blind.outgoing = t.blind.outgoing := congrArg State.outgoing h
  exact ⟨fun p => by rw [← State.blind_port, h, State.blind_port], hlines, houtgoing⟩

theorem State.idle_blind (s : State) : s.blind.idle = s.idle.blind := by
  unfold State.idle
  rw [apply_ite State.blind]
  rfl

/-- A step whose command is not ANSWER. -/
theorem step_blind {s : State} (hs : ∀ n response, s.pending.head? ≠ some (.answer n response)) :
    outcomeBlind (step s.blind) = outcomeBlind (step s) := by
  have hpending : s.blind.pending = s.pending := rfl
  unfold step
  rw [hpending]
  cases h : s.pending with
  | nil => rw [State.idle_blind, outcomeBlind_next, outcomeBlind_next, State.blind_blind]
  | cons c rest =>
    rw [h] at hs
    exact exec_blind (fun n response hc => hs n response (congrArg some hc))
      { s with pending := rest }

/-- Settles O49: a step does the same once the secrets are hidden. -/
theorem noCommandShowsASecret : Obligations.NoCommandShowsASecret := by
  unfold Obligations.NoCommandShowsASecret
  intro s t s' hst hs hstep
  have hblind := (sameButSecrets_iff s t).1 hst
  have ht : ∀ n response, t.pending.head? ≠ some (.answer n response) := by
    have hpending : s.blind.pending = t.blind.pending := congrArg State.pending hblind
    change s.pending = t.pending at hpending
    rwa [← hpending]
  have hsame : outcomeBlind (step t) = .next s'.blind := by
    rw [← step_blind ht, ← hblind, step_blind hs, hstep, outcomeBlind_next]
  cases htstep : step t with
  | next t' =>
    rw [htstep] at hsame
    have hnext : s'.blind = t'.blind := (Host.Outcome.next.inj hsame).symm
    exact ⟨t', rfl, (sameButSecrets_iff _ _).2 hnext, sameOutside_of_blind hnext⟩
  | fault r =>
    rw [htstep] at hsame
    cases hsame
  | refused r =>
    rw [htstep] at hsame
    cases hsame

end Sys2Proof.Machine
end

section
/-! SUPPORT. The orders of the directory and of the settings that change one thing and raise no event,
and the looks at entries, line ports and stations, O16, O19 and O22 (R32, R34, R36, R40 to R42, R52, R71
to R73, R104). -/

namespace Sys2Proof.Machine

/-! ### Answers of a row, and parameters -/

/-- A take of a row whose order passes the checks of R8: the state that the row's own answer leaves. -/
theorem exec_of_answer {i : Instr} {mine : OrderRecord → Bool} {codes : List Byte → Bool}
    {authority : Authority} {body : Port → List Byte → State → Answer}
    (meaning : State → Host.Outcome State Fault Refusal) (hexec : ∀ s, exec i s = meaning s)
    (htake : ∀ s, meaning s = takeOrder mine codes authority body s) {s t : State} {p : Port}
    {code tag : Byte} {params : List Byte} (h : s.Takes p (queuedOrder code tag params))
    (hm : mine (queuedOrder code tag params) = true)
    (hl : lengthFits (queuedOrder code tag params) = true) (hc : codes params = true)
    (ha : authorityCheck authority p s.mastership = none)
    (hanswer : (s.taken p).replied p (queuedOrder code tag params) (body p params (s.taken p)) = t) :
    exec i s = .next t := by
  rw [hexec, htake, takeOrder_own h hm hl hc ha, ← hanswer]
  rfl

/-- A check that refuses an order: what the answer leaves, by whether the check fails. -/
theorem State.replied_ite {s t u : State} {p : Port} {o : OrderRecord} {c c' : Prop} [Decidable c]
    [Decidable c'] {a b : Answer} (hc : c ↔ c') (ha : s.replied p o a = t)
    (hb : ¬c' → s.replied p o b = u) :
    s.replied p o (if c then a else b) = if c' then t else u := by
  by_cases h : c'
  · rw [if_pos (hc.2 h), if_pos h, ha]
  · rw [if_neg (mt hc.1 h), if_neg h, hb h]

@[simp] theorem byteOf_toNat (b : Byte) : byteOf b.toNat = b := by simp [byteOf]

theorem clampTo_eq (least greatest value : Nat) :
    clampTo least greatest value = max least (min greatest value) :=
  congrArg (max least) (Nat.min_comm _ _)

theorem identityInRange_eq_false_iff (identity : Nat) :
    (!identityInRange identity) = true ↔ identity = 0 ∨ 9999 < identity := by
  simp [identityInRange, -Bool.and_eq_true, Bool.not_and]

theorem optionalByte_eq (n : Option Nat) : optionalByte n = (n.map byteOf).getD 0xFF := by
  cases n <;> rfl

/-! ### Settings (R42, R71, R72, R104) -/

theorem setPrecedenceMap_of_takes {s : State} {p : Port} {tag a b c d e f g h : Byte}
    (ht : s.Takes p (queuedOrder 0x18 tag [a, b, c, d, e, f, g, h])) (hp : s.HolderAt p) :
    exec .setPrecedenceMap s = .next (
      if ∃ x ∈ [a, b, c, d, e, f, g, h], 3 < x.toNat then s.refusal p 0x18 tag .range []
      else s.done p 0x18 tag [a, b, c, d, e, f, g, h] fun t =>
        { t with precedenceMap := #v[a.toNat, b.toNat, c.toNat, d.toNat, e.toNat, f.toNat, g.toNat,
            h.toNat] }) := by
  refine exec_of_answer execSetPrecedenceMap (fun _ => rfl) (fun _ => rfl) ht rfl rfl rfl
    (authorityCheck_holder hp) ?_
  have hmap : (Vector.ofFn fun i : Fin 8 => param1 [a, b, c, d, e, f, g, h] i.val)
      = #v[a.toNat, b.toNat, c.toNat, d.toNat, e.toNat, f.toNat, g.toNat, h.toNat] := rfl
  refine State.replied_ite (by simp only [List.any_eq_true, decide_eq_true_eq]) rfl fun _ => ?_
  rw [hmap]
  have hfields : mapFields { s.taken p with
      precedenceMap := #v[a.toNat, b.toNat, c.toNat, d.toNat, e.toNat, f.toNat, g.toNat, h.toNat] }
        = [a, b, c, d, e, f, g, h] := by
    simp [mapFields]
  exact congrArg (fun fields => (s.taken p).replied p _ (.plain fields _)) hfields

/-- Settles O19. -/
theorem settingsOrdersStoreAndReport : Obligations.SettingsOrdersStoreAndReport := by
  unfold Obligations.SettingsOrdersStoreAndReport
  intro s p tag a b c d e f g h classes window holdOff count
  refine ⟨setPrecedenceMap_of_takes, fun ht => ?_, fun ht hp => ?_, fun ht => ?_, fun ht => ?_,
    fun ht hp => ?_⟩
  · exact exec_of_answer execLookPrecedenceMap (fun _ => rfl) (fun _ => rfl) ht rfl rfl rfl rfl
      (by simp [mapFields]; rfl)
  · refine exec_of_answer execSetAdmissionTimes (fun _ => rfl) (fun _ => rfl) ht rfl rfl rfl
      (authorityCheck_holder hp) ?_
    simp only [clampTo_eq]
    rfl
  · exact exec_of_answer execLookAdmissionTimes (fun _ => rfl) (fun _ => rfl) ht rfl rfl rfl rfl
      (by simp [admissionFields]; rfl)
  · exact exec_of_answer execSeedChallenge (fun _ => rfl) (fun _ => rfl) ht rfl rfl rfl rfl rfl
  · exact exec_of_answer execSetMuteCode (fun _ => rfl) (fun _ => rfl) ht rfl rfl rfl
      (authorityCheck_holder hp) rfl

/-! ### Orders on one entry (R33 to R36) -/

theorem onEntry_of_some {s : State} {identity : Nat} {e : DirectoryEntry}
    (h : s.entry identity = some e) (body : DirectoryEntry → Answer) :
    onEntry identity s body
      = if (!identityInRange identity) = true then .refuse .range [] else body e := by
  simp [onEntry, h]

theorem onEntry_of_none {s : State} {identity : Nat} (h : s.entry identity = none)
    (body : DirectoryEntry → Answer) :
    onEntry identity s body
      = if (!identityInRange identity) = true then .refuse .range [] else .refuse .noEntry [] := by
  simp [onEntry, h]

theorem param2_cons (hi lo : Byte) (rest : List Byte) :
    param2 (hi :: lo :: rest) 0 = (hi ++ lo : Word16).toNat := rfl

theorem State.mapEntry_taken (s : State) (p : Port) (identity : Nat)
    (f : DirectoryEntry → DirectoryEntry) :
    (s.taken p).mapEntry identity f = { s.taken p with
      directory := s.directory.map fun d => if d.identity = identity then f d else d } := by
  simp [State.mapEntry]

/-! ### ENTER, SET SECRET and RESUME (R32, R34, R36) -/

theorem homePortsOf_eq_filter {homes : List Byte} (hle : ∀ b ∈ homes, b.toNat ≤ 47) :
    homePortsOf (homes.map BitVec.toNat) =
      if homes = [] then none
      else some ((List.range 48).filter fun n => homes.any fun b => b.toNat == n) := by
  by_cases hne : homes = []
  · rw [if_pos hne, hne]
    rfl
  · rw [if_neg hne]
    have hsome : homePortsOf (homes.map BitVec.toNat)
        = some ((homes.map BitVec.toNat).foldr insertHomePort []) :=
      if_neg (by simpa using hne)
    obtain ⟨-, hsorted, hmem⟩ := homePortsOf_spec _ _ hsome
    rw [hsome]
    refine congrArg some (hsorted.eq_of_mem_iff (List.pairwise_lt_range.filter _) fun n => ?_)
    rw [hmem]
    simp only [List.mem_map, List.mem_filter, List.mem_range, List.any_eq_true, beq_iff_eq]
    constructor
    · rintro ⟨b, hb, rfl⟩
      exact ⟨Nat.lt_succ_of_le (hle b hb), b, hb, rfl⟩
    · exact fun h => h.2

theorem privacyClassOf_getD {b : Byte} (h : b.toNat ≤ 2) (d : PrivacyClass) :
    (privacyClassOf b).getD d
      = if b = 0 then .openClass else if b = 1 then .tieOnly else .required := by
  obtain rfl | rfl | rfl : b = 0 ∨ b = 1 ∨ b = 2 := by bv_omega
  all_goals rfl

/-- The entry that the parameters of an ENTER give, once the home ports are in range (R32). -/
theorem enteredEntry_eq {iHi iLo sHi sLo pm pv pc mask st : Byte} {homes : List Byte}
    (hpc : pc.toNat ≤ 2) (hle : ∀ b ∈ homes, b.toNat ≤ 47) :
    enteredEntry (iHi :: iLo :: sHi :: sLo :: pm :: pv :: pc :: mask :: st :: homes) =
      { identity := (iHi ++ iLo : Word16).toNat
        secret := sHi ++ sLo
        precedence := if pm = 1 then some pv.toNat else none
        privacy := if pc = 0 then .openClass else if pc = 1 then .tieOnly else .required
        mask := mask
        homePorts :=
          if homes = [] then none
          else some ((List.range 48).filter fun n => homes.any fun b => b.toNat == n)
        suspended := st == 1 } := by
  have hprecedence : (if flagSet pm = true then some pv.toNat else none)
      = if pm = 1 then some pv.toNat else none := by simp [flagSet]
  rw [← homePortsOf_eq_filter hle, ← privacyClassOf_getD hpc .openClass, ← hprecedence]
  rfl

/-- The check of ENTER for RANGE (R32). -/
theorem enteredEntry_outOfRange {iHi iLo sHi sLo pm pv pc mask st : Byte} {homes : List Byte} :
    (!identityInRange (iHi ++ iLo : Word16).toNat
      || decide (7 < (enteredEntry
          (iHi :: iLo :: sHi :: sLo :: pm :: pv :: pc :: mask :: st :: homes)).precedence.getD 0)
      || (homePortParams (iHi :: iLo :: sHi :: sLo :: pm :: pv :: pc :: mask :: st :: homes)).any
          (fun n => decide (47 < n))) = true
      ↔ (iHi ++ iLo : Word16).toNat = 0 ∨ 9999 < (iHi ++ iLo : Word16).toNat
        ∨ (pm = 1 ∧ 7 < pv.toNat) ∨ ∃ b ∈ homes, 47 < b.toNat := by
  have hprecedence : 7 < (enteredEntry (iHi :: iLo :: sHi :: sLo :: pm :: pv :: pc :: mask :: st
      :: homes)).precedence.getD 0 ↔ pm = 1 ∧ 7 < pv.toNat := by
    change 7 < (if flagSet pm = true then some pv.toNat else none).getD 0 ↔ _
    have hset : flagSet pm = true ↔ pm = 1 := by simp [flagSet]
    by_cases h : pm = 1
    · rw [if_pos (hset.2 h)]
      exact (and_iff_right h).symm
    · rw [if_neg (mt hset.1 h)]
      exact iff_of_false (by simp) fun h' => h h'.1
  have hports : (homePortParams (iHi :: iLo :: sHi :: sLo :: pm :: pv :: pc :: mask :: st
      :: homes)).any (fun n => decide (47 < n)) = true ↔ ∃ b ∈ homes, 47 < b.toNat := by
    simp [homePortParams]
  rw [Bool.or_eq_true, Bool.or_eq_true, identityInRange_eq_false_iff, decide_eq_true_eq,
    hprecedence, hports]
  tauto

theorem State.entry_isSome_iff (s : State) (identity : Nat) :
    (s.entry identity).isSome = true ↔ ∃ d ∈ s.directory, d.identity = identity := by
  simp [State.entry]

/-- R177: 9 parameters and up to 4 home ports fit ENTER and AMEND. -/
theorem lengthFits_of_homes {code tag b0 b1 b2 b3 b4 b5 b6 b7 b8 : Byte} {homes : List Byte}
    (hcode : code = 0x10 ∨ code = 0x13) (h : homes.length ≤ 4) :
    lengthFits (queuedOrder code tag
      (b0 :: b1 :: b2 :: b3 :: b4 :: b5 :: b6 :: b7 :: b8 :: homes)) = true := by
  have hlengths : orderLengths code = some (9, 13) := by rcases hcode with rfl | rfl <;> rfl
  simp only [lengthFits, queuedOrder_code, queuedOrder_params, queuedOrder_overLength, hlengths,
    List.length_cons, Bool.and_eq_true]
  exact ⟨⟨rfl, decide_eq_true (by omega)⟩, decide_eq_true (by omega)⟩

theorem enter_of_takes {s : State} {tag iHi iLo sHi sLo pm pv pc mask st : Byte} {homes : List Byte}
    (ht : s.Takes .m (queuedOrder 0x10 tag
      (iHi :: iLo :: sHi :: sLo :: pm :: pv :: pc :: mask :: st :: homes)))
    (hlength : homes.length ≤ 4) (hpm : pm.toNat ≤ 1) (hpc : pc.toNat ≤ 2) (hst : st.toNat ≤ 1)
    (hdirectory : DirectoryLaw s) :
    let identity := (iHi ++ iLo : Word16).toNat
    let e : DirectoryEntry :=
      { identity := identity
        secret := sHi ++ sLo
        precedence := if pm = 1 then some pv.toNat else none
        privacy := if pc = 0 then .openClass else if pc = 1 then .tieOnly else .required
        mask := mask
        homePorts :=
          if homes = [] then none
          else some ((List.range 48).filter fun n => homes.any fun b => b.toNat == n)
        suspended := st == 1 }
    exec .enter s = .next (
      if identity = 0 ∨ 9999 < identity ∨ (pm = 1 ∧ 7 < pv.toNat) ∨ (∃ b ∈ homes, 47 < b.toNat) then
        s.refusal .m 0x10 tag .range []
      else if ∃ d ∈ s.directory, d.identity = identity then s.refusal .m 0x10 tag .alreadyExists []
      else if s.directory.length = 256 then s.refusal .m 0x10 tag .full []
      else s.done .m 0x10 tag (bytes2 identity ++ bytes2 (s.directory.length + 1)) fun t =>
        { t with
          directory := s.directory.filter (fun d => decide (d.identity < identity))
            ++ e :: s.directory.filter (fun d => decide (identity < d.identity)) }) := by
  intro identity e
  obtain ⟨hsorted, hcapacity, -⟩ := hdirectory
  refine exec_of_answer execEnter (fun _ => rfl) (fun _ => rfl) ht rfl ?_ ?_ rfl ?_
  · exact lengthFits_of_homes (.inl rfl) hlength
  · simp only [enterCodes, Bool.and_eq_true, isFlag_iff, privacyClassOf_isSome_iff]
    exact ⟨⟨hpm, hpc⟩, hst⟩
  refine State.replied_ite enteredEntry_outOfRange rfl fun hrange => ?_
  refine State.replied_ite ?_ rfl fun hnew => ?_
  · rw [State.taken_entry]
    exact s.entry_isSome_iff identity
  refine State.replied_ite ?_ rfl fun _ => ?_
  · rw [State.taken_directory, decide_eq_true_eq]
    exact ⟨fun h => Nat.le_antisymm hcapacity h, fun h => h.ge⟩
  have hle : ∀ b ∈ homes, b.toNat ≤ 47 := fun b hb =>
    Nat.le_of_not_lt fun hlt => hrange (.inr (.inr (.inr ⟨b, hb, hlt⟩)))
  have hinserted := insertEntry_eq e s.directory hsorted fun d hd heq => hnew ⟨d, hd, heq⟩
  have hcount : s.directory.length + 1 = (insertEntry e s.directory).length :=
    (insertEntry_perm e s.directory).length_eq.symm
  rw [enteredEntry_eq hpc hle, ← hinserted, hcount, State.taken_directory]
  rfl

/-- Settles O16. -/
theorem enterSetSecretAndResumeChangeOneEntry :
    Obligations.EnterSetSecretAndResumeChangeOneEntry := by
  unfold Obligations.EnterSetSecretAndResumeChangeOneEntry
  refine ⟨?_, ?_, ?_⟩
  · intro s tag iHi iLo sHi sLo pm pv pc mask st homes identity params e ht hlength hpm hpc hst hs
    exact enter_of_takes ht hlength hpm hpc hst hs
  · intro s tag iHi iLo sHi sLo identity ht
    refine exec_of_answer execSetSecret (fun _ => rfl) (fun _ => rfl) ht rfl rfl rfl rfl ?_
    cases he : s.entry identity with
    | none =>
      have hnone : ∀ d ∈ s.directory, d.identity ≠ identity := (s.entry_eq_none_iff identity).1 he
      rw [onEntry_of_none (identity := param2 [iHi, iLo, sHi, sLo] 0)
        ((s.taken_entry .m identity).trans he), if_pos hnone]
      exact State.replied_ite (identityInRange_eq_false_iff _) rfl fun _ => rfl
    | some d =>
      have hsome : ¬∀ d ∈ s.directory, d.identity ≠ identity := fun h => by
        rw [(s.entry_eq_none_iff identity).2 h] at he
        cases he
      rw [onEntry_of_some (identity := param2 [iHi, iLo, sHi, sLo] 0)
        ((s.taken_entry .m identity).trans he), if_neg hsome, State.mapEntry_taken]
      exact State.replied_ite (identityInRange_eq_false_iff _) rfl fun _ => rfl
  · intro s p tag iHi iLo identity ht hp
    refine exec_of_answer execResume (fun _ => rfl) (fun _ => rfl) ht rfl rfl rfl
      (authorityCheck_holderOrM hp) ?_
    cases he : s.directory.find? fun d => d.identity == identity with
    | none =>
      rw [onEntry_of_none (identity := param2 [iHi, iLo] 0) ((s.taken_entry p identity).trans he)]
      exact State.replied_ite (identityInRange_eq_false_iff _) rfl fun _ => rfl
    | some e =>
      rw [onEntry_of_some (identity := param2 [iHi, iLo] 0) ((s.taken_entry p identity).trans he),
        State.mapEntry_taken]
      exact State.replied_ite (identityInRange_eq_false_iff _) rfl fun _ => rfl

/-! ### Looks (R40, R41, R52, R73) -/

/-- The class that the manual gives the station at a position is its effective class (R42). -/
theorem State.effectiveClass_eq {s : State} {n identity : Nat} (hn : n < 96)
    (h : (s.station n).state = .admitted identity) : s.effectiveClass n = s.stationClass n := by
  have hidentity : s.identityAt n = some identity := by
    simp [State.identityAt, isStation, hn, h, StationState.admittedIdentity]
  have hclass : ∀ k, s.classOf k = s.precedenceMap.toList.getD k 0 := fun k => by
    simp [State.classOf, List.getD]
  unfold State.effectiveClass State.stationClass
  rw [h, hidentity, hclass]
  rfl

theorem State.admittedAt_eq (s : State) (identity : Nat) :
    s.admittedAt identity
      = (List.range 96).find? fun n => (s.station n).state == .admitted identity := by
  unfold State.admittedAt
  congr 1
  funext n
  rw [Bool.eq_iff_iff, beq_iff_eq, beq_iff_eq, StationState.admittedIdentity_eq_some]

/-- The position and class fields of LOOK ENTRY (R40). -/
def State.admissionReport (s : State) (identity : Nat) : List Byte :=
  match (List.range 96).find? fun n => (s.station n).state == .admitted identity with
  | some n => [byteOf n, byteOf (s.stationClass n)]
  | none => [0xFF, 0xFF]

theorem State.admissionReport_eq (s : State) (identity : Nat) :
    [optionalByte (s.admittedAt identity),
      optionalByte ((s.admittedAt identity).map s.effectiveClass)] = s.admissionReport identity := by
  unfold State.admissionReport
  rw [State.admittedAt_eq]
  cases hfound : (List.range 96).find? fun n => (s.station n).state == .admitted identity with
  | none => rfl
  | some n =>
    have hn : n < 96 := List.mem_range.1 (List.mem_of_find?_eq_some hfound)
    have hadmitted : (s.station n).state = .admitted identity := by
      simpa using List.find?_some hfound
    simp only [Option.map_some, State.effectiveClass_eq hn hadmitted]
    rfl

theorem lookEntryFields_taken (s : State) (p : Port) (e : DirectoryEntry) :
    lookEntryFields (s.taken p) e = bytes2 e.identity
      ++ [(e.precedence.map byteOf).getD 0xFF, privacyClassCode e.privacy, e.mask,
          byteOf (e.homePorts.getD []).length] ++ (e.homePorts.getD []).map byteOf
      ++ [if e.suspended = true then 1 else 0] ++ s.admissionReport e.identity
      ++ bytes2 s.directory.length := by
  have hclass : (s.taken p).effectiveClass = s.effectiveClass := funext (s.taken_effectiveClass p)
  unfold lookEntryFields
  rw [State.taken_admittedAt, hclass, State.admissionReport_eq, ← optionalByte_eq]
  simp [entryFields, homePortFields, entryCountField, entryStatusCode]

/-- Settles O22. -/
theorem directoryAndStationLooksReportAndChangeNothing :
    Obligations.DirectoryAndStationLooksReportAndChangeNothing := by
  unfold Obligations.DirectoryAndStationLooksReportAndChangeNothing
  intro s p tag hi lo n identity held report
  have hreport : ∀ e, lookEntryFields (s.taken p) e = report e := fun e =>
    lookEntryFields_taken s p e
  have hheld : entryCountField (s.taken p) = held := by
    unfold entryCountField
    rw [State.taken_directory]
  have hlook : ∀ (o : OrderRecord) {fields fields' : List Byte}, fields = fields' →
      (s.taken p).replied p o (.plain fields (s.taken p))
        = s.done p o.code o.tag fields' fun t => t := fun _ _ _ h => h ▸ rfl
  refine ⟨fun ht => ?_, fun ht => ?_, fun ht => ?_, fun ht => ?_⟩
  · refine exec_of_answer execLookEntry (fun _ => rfl) (fun _ => rfl) ht rfl rfl rfl rfl ?_
    refine State.replied_ite (identityInRange_eq_false_iff _) rfl fun _ => ?_
    have hentry : (s.taken p).entry (param2 [hi, lo] 0)
        = s.directory.find? fun d => d.identity == identity := State.taken_entry _ _ _
    rw [hentry, hheld]
    cases s.directory.find? fun d => d.identity == identity with
    | none => rfl
    | some e => exact hlook _ (hreport e)
  · refine exec_of_answer execLookNextEntry (fun _ => rfl) (fun _ => rfl) ht rfl rfl rfl rfl ?_
    refine State.replied_ite decide_eq_true_iff rfl fun _ => ?_
    have hentry : ((s.taken p).directory.find? fun e => decide (param2 [hi, lo] 0 < e.identity))
        = s.directory.find? fun d => decide (identity < d.identity) := by
      rw [State.taken_directory]
      rfl
    rw [hentry, hheld]
    cases s.directory.find? fun d => decide (identity < d.identity) with
    | none => rfl
    | some e => exact hlook _ (hreport e)
  · refine exec_of_answer execLookPort (fun _ => rfl) (fun _ => rfl) ht rfl rfl rfl rfl ?_
    refine State.replied_ite decide_eq_true_iff rfl fun _ => ?_
    refine hlook _ ?_
    simp only [State.taken_line, State.taken_station]
    change lineFields (s.line n.toNat) ++ _ = _
    unfold lineFields
    rcases (s.line n.toNat).condition with _ | _ | _ <;> rfl
  · refine exec_of_answer execLookStation (fun _ => rfl) (fun _ => rfl) ht rfl rfl rfl rfl ?_
    refine State.replied_ite decide_eq_true_iff rfl fun _ => hlook _ ?_
    have hn : param1 [n] 0 = n.toNat := rfl
    have hslot : ∀ slot : Option StationMessage, yesNo slot.isSome = if slot = none then 0 else 1 := by
      rintro (_ | _) <;> rfl
    have hremaining : ∀ d, (s.taken p).remaining d = (d - s.clock) / 1000 := fun d => by
      rw [State.taken_remaining]
      rfl
    simp only [hn, State.taken_station, hslot, State.deadlineRemaining]
    cases (s.station n.toNat).state with
    | challenged i h r d => simp only [hremaining]; rfl
    | holdOff d => simp only [hremaining]; rfl
    | vacant | admitted | locked => rfl

end Sys2Proof.Machine
end

section
/-! SUPPORT. The station withdrawn, the challenges abandoned and the records released by the requests of
one order of the directory, for O17 and O18 (R39, R65, R67, R153 to R156). -/

namespace Sys2Proof.Machine

/-! ### Work that has retired stations -/

/-- Work that has gone on from s: what every station record has become, which records are gone, and what
is reported beside the CONGESTION events (R67, R153). -/
structure Work.RetiredFrom (w : Work) (s : State) (after : Nat → Station)
    (gone : Connection → Bool) (report : List Event) : Prop where
  only : OnlyCallsAndStations s w.state
  station : ∀ n, w.state.station n = after n
  releases : Releases s w.state gone
  beside : besideCongestion w.events = report
  congestions : GroupLaw s → CongestionLaw s →
    ∀ g, congestionsOf g w.events = congestionReport g (s.group g) (w.state.group g)

theorem Work.RetiredFrom.congr {w : Work} {s : State} {after after' : Nat → Station}
    {gone gone' : Connection → Bool} {report report' : List Event}
    (h : w.RetiredFrom s after gone report) (hafter : ∀ n, after n = after' n) (hgone : gone = gone')
    (hreport : report = report') : w.RetiredFrom s after' gone' report' := by
  rw [← hgone, ← hreport, ← funext hafter]
  exact h

/-- A reply between the change and the events alters none of it. -/
theorem Work.RetiredFrom.append {w : Work} {s : State} {after : Nat → Station}
    {gone : Connection → Bool} {report : List Event} (h : w.RetiredFrom s after gone report)
    (p : Port) (entry : Entry) :
    Work.RetiredFrom { w with state := w.state.append p entry } (s.append p entry) after gone
      report := by
  obtain ⟨honly, hstation, hreleases, hbeside, hcongestions⟩ := h
  refine ⟨?_, ?_, ?_, hbeside, ?_⟩
  · unfold OnlyCallsAndStations at honly ⊢
    rw [honly]
    cases p <;> rfl
  · cases p <;> exact hstation
  · cases p <;> exact hreleases
  · cases p <;> exact hcongestions

theorem State.postAll_port_congr {s t : State} (hr : s.restart = t.restart)
    (h : ∀ p, s.port p = t.port p) (es : List Event) (p : Port) :
    (s.postAll es).port p = (t.postAll es).port p := by
  unfold State.postAll
  induction es generalizing s t with
  | nil => exact h p
  | cons e es ih =>
    exact ih (by rw [State.post_restart, State.post_restart, hr])
      fun q => by rw [State.post_port, State.post_port, h, hr]

/-- The events of the work are posted: what `Retires` says. -/
theorem Work.RetiredFrom.retires {w : Work} {s : State} {after : Nat → Station}
    {gone : Connection → Bool} {report : List Event} (h : w.RetiredFrom s after gone report) :
    Retires s w.finish after gone report [] := by
  obtain ⟨honly, hstation, hreleases, hbeside, hcongestions⟩ := h
  obtain ⟨hconn, hleg, hkey, hwatch, hgroup⟩ := hreleases
  unfold Work.finish
  refine ⟨honly.withdrawals w.events, fun n => ?_, ⟨?_, ?_, ?_, ?_, ?_⟩, w.events, fun p => ?_,
    hbeside, fun hg hc g => ?_⟩
  · rw [State.postAll_station, hstation]
  · rw [State.postAll_connections, hconn]
  · simpa only [State.postAll_leg] using hleg
  · simpa only [State.postAll_key] using hkey
  · rw [State.postAll_watches, hwatch]
  · simpa only [State.postAll_group] using hgroup
  · rw [List.append_nil]
    refine State.postAll_port_congr ?_ (fun q => ?_) w.events p
    · rw [honly]
    · rw [honly]
      cases q <;> rfl
  · rw [State.postAll_group]
    exact hcongestions hg hc g

/-! ### Records released (R153, R156) -/

/-- t is s with other station records. -/
def OnlyStations (s t : State) : Prop := t = { s with stations := t.stations }

theorem OnlyStations.refl (s : State) : OnlyStations s s := rfl

theorem OnlyStations.trans {s t u : State} (h : OnlyStations s t) (h' : OnlyStations t u) :
    OnlyStations s u := by
  unfold OnlyStations at *
  rw [h', h]

theorem OnlyStations.slotWith {s t : State} (h : OnlyStations s t) (n : Nat) (m : StationMessage) :
    t.slotWith n m = s.slotWith n m := by
  rw [h]
  rfl

theorem besideCongestion_releaseReports (cs : List Connection) (r : ReleaseReason) :
    cs.flatMap (releaseReport (some r)) = cs.map fun c => .released c.id c.callTag r := by
  induction cs with
  | nil => rfl
  | cons c cs ih => rw [List.flatMap_cons, ih]; rfl

/-- Work that has changed station records alone and raised no CONGESTION event, and then releases the
selected records. -/
theorem Work.releaseWhere_retiredFrom {w : Work} {s : State} (ht : TableLaw s)
    (honly : OnlyStations s w.state) (hevents : ∀ g, congestionsOf g w.events = []) (r : ReleaseReason)
    (gone : Connection → Bool) :
    (w.releaseWhere (some r) gone).RetiredFrom s w.state.station gone
      (besideCongestion w.events ++ releasedReport s.connections gone r) := by
  have hw : TableLaw w.state := by
    rw [honly]
    exact ht
  have hcalls := w.releaseWhere_onlyCalls (some r) gone
  have hconnections : w.state.connections = s.connections := by rw [honly]
  have hgroup : ∀ g, w.state.group g = s.group g := fun g => by rw [honly]; rfl
  have hreleases : Releases w.state (w.releaseWhere (some r) gone).state gone :=
    Work.releaseWhere_releases (some r) gone hw
  refine ⟨?_, fun n => ?_, ?_, ?_, fun hg hc g => ?_⟩
  · refine OnlyCallsAndStations.trans ?_ hcalls.andStations
    unfold OnlyStations at honly
    unfold OnlyCallsAndStations
    rw [honly]
  · rw [hcalls]
    rfl
  · rw [honly] at hreleases
    exact hreleases
  · rw [Work.releaseWhere_besideCongestion, besideCongestion_releaseReports, hconnections]
    rfl
  · rw [Work.releaseWhere_congestionsOf (some r) gone hw ?_ ?_ g, hevents, hgroup]
    · rfl
    · rw [honly]
      exact hg
    · rw [honly]
      exact hc

/-- Work that has changed station records alone. -/
theorem Work.retiredFrom_of_onlyStations {w : Work} {s : State} (ht : TableLaw s)
    (honly : OnlyStations s w.state) (hevents : ∀ g, congestionsOf g w.events = []) :
    w.RetiredFrom s w.state.station (fun _ => false) (besideCongestion w.events) := by
  have hnone : ∀ cs : List Connection, cs.filter (fun _ => false) = [] := fun cs => by simp
  have hreleased := Work.releaseWhere_retiredFrom ht honly hevents .removed (fun _ => false)
  unfold Work.releaseWhere releasedReport at hreleased
  simpa only [hnone, List.foldl_nil, List.map_nil, List.append_nil] using hreleased

/-! ### Withdrawal (R67) -/

theorem withdrawalSelects_eq_fallsWith (n : Nat) : withdrawalSelects n = (·.fallsWith n) := by
  funext c
  have hservice : ∀ e, (!isService e) = decide (e < 160) := fun e => by
    simp [isService, ← decide_not]
  simp only [withdrawalSelects, Connection.fallsWith, hservice]

/-- A withdrawal of the station ADMITTED at a position. -/
theorem Work.withdraw_retiredFrom {s : State} (ht : TableLaw s) (r : ReleaseReason) {n identity : Nat}
    (hn : (s.station n).state = .admitted identity) :
    ((Work.start s).withdraw r n).RetiredFrom s
      (fun m => if m = n then (s.station n).withdrawn else s.station m) (·.fallsWith n)
      (releasedReport s.connections (·.fallsWith n) r ++ [.withdrawn n identity r]) := by
  have hlt : n < 96 := State.lt_of_identity (congrArg StationState.identity hn)
  have hreleased := Work.releaseWhere_retiredFrom (s := s)
    (w := (Work.start s).update fun s => s.setStation n (s.station n).withdrawn) ht rfl
    (fun _ => rfl) r (·.fallsWith n)
  rw [← withdrawalSelects_eq_fallsWith] at hreleased ⊢
  obtain ⟨honly, hstation, hreleases, hbeside, hcongestions⟩ := hreleased
  unfold Work.withdraw
  rw [Work.start_state, hn]
  refine ⟨honly, fun m => (hstation m).trans ?_, hreleases, ?_, fun hg hc g => ?_⟩
  · rw [Work.update_state, Work.start_state, State.station_setStation]
    simp only [hlt, and_true]
  · exact (besideCongestion_append _ _).trans (congrArg (· ++ _) hbeside)
  · refine (congestionsOf_append g _ _).trans ?_
    exact (List.append_nil _).trans (hcongestions hg hc g)

/-! ### Abandonment (R65) -/

/-- A position's record after its challenge has been abandoned (R65). -/
def State.abandonedAt (s : State) (refusal : RefusalReason) (n : Nat) : Station :=
  { s.station n with state := .vacant, slot := s.slotWith n (.refuse refusal) }

/-- The abandonment of challenges at a list of positions. -/
theorem Work.foldl_abandon (refusal : RefusalReason) (identity : Nat) {ns : List Nat}
    (hnodup : ns.Nodup) (w : Work)
    (hns : ∀ n ∈ ns, (w.state.station n).state.challengedIdentity = some identity) :
    OnlyStations w.state (ns.foldl (fun w n => w.abandon refusal n) w).state
      ∧ (∀ m, (ns.foldl (fun w n => w.abandon refusal n) w).state.station m
          = if m ∈ ns then w.state.abandonedAt refusal m else w.state.station m)
      ∧ (ns.foldl (fun w n => w.abandon refusal n) w).events
          = w.events ++ ns.map fun n => .refused n identity refusal false
            (w.state.station n).failures := by
  induction ns generalizing w with
  | nil => exact ⟨.refl _, fun m => (if_neg List.not_mem_nil).symm, (List.append_nil _).symm⟩
  | cons n ns ih =>
    obtain ⟨hnot, hnodup⟩ := List.nodup_cons.1 hnodup
    obtain ⟨i, h, e, d, hs⟩ : ∃ i h e d, (w.state.station n).state = .challenged i h e d := by
      have hc := hns n (by simp)
      cases hs : (w.state.station n).state with
      | challenged i h e d => exact ⟨i, h, e, d, rfl⟩
      | vacant | admitted | holdOff | locked => rw [hs] at hc; cases hc
    obtain rfl : i = identity := by
      have hc := hns n (by simp)
      rw [hs] at hc
      exact Option.some.inj hc
    have hlt : n < 96 := State.lt_of_identity (congrArg StationState.identity hs)
    have hone := w.abandon_challenged refusal hlt hs
    have hstation : ∀ m, (w.abandon refusal n).state.station m
        = if m = n then w.state.abandonedAt refusal n else w.state.station m := fun m => by
      rw [hone, State.station_setStation]
      simp only [hlt, and_true]
      rfl
    have honlyOne : OnlyStations w.state (w.abandon refusal n).state := by
      rw [hone]
      rfl
    have hne : ∀ m ∈ ns, m ≠ n := fun m hm hmn => hnot (hmn ▸ hm)
    obtain ⟨honly, hstations, hevents⟩ := ih hnodup (w.abandon refusal n) fun m hm => by
      rw [hstation, if_neg (hne m hm)]
      exact hns m (by simp [hm])
    refine ⟨honlyOne.trans honly, fun m => ?_, ?_⟩
    · rw [List.foldl_cons, hstations]
      by_cases hm : m ∈ ns
      · rw [if_pos hm, if_pos (List.mem_cons_of_mem _ hm)]
        unfold State.abandonedAt
        rw [hstation, if_neg (hne m hm), honlyOne.slotWith]
      · rw [if_neg hm, hstation]
        by_cases hmn : m = n
        · simp [hmn]
        · simp [hmn, hm]
    · rw [List.foldl_cons, hevents, hone, List.append_assoc]
      refine congrArg (w.events ++ ·) ?_
      rw [List.map_cons, List.singleton_append]
      refine congrArg _ (List.map_congr_left fun m hm => ?_)
      rw [State.station_setStation_ne _ (hne m hm)]

/-- The positions whose challenge is abandoned (R39). -/
def abandons (after : Nat → Station) (identity : Nat) (selects : Nat → Bool) (n : Nat) : Bool :=
  (after n).state.challengedIdentity == some identity && selects n

/-- The reports of the abandonments (R65). -/
def abandonments (after : Nat → Station) (identity : Nat) (refusal : RefusalReason)
    (selects : Nat → Bool) : List Event :=
  ((List.range 96).filter (abandons after identity selects)).map fun n =>
    .refused n identity refusal false (after n).failures

/-- All that the abandonment of an identity's challenges does (R39, R65). -/
theorem Work.abandonIdentity_spec (w : Work) (refusal : RefusalReason) (identity : Nat)
    (selects : Nat → Bool) :
    OnlyStations w.state (w.abandonIdentity refusal identity selects).state
      ∧ (∀ n, (w.abandonIdentity refusal identity selects).state.station n
          = if abandons w.state.station identity selects n = true then w.state.abandonedAt refusal n
            else w.state.station n)
      ∧ (w.abandonIdentity refusal identity selects).events
          = w.events ++ abandonments w.state.station identity refusal selects := by
  have hmem : ∀ n, n ∈ w.state.challengedPositions identity selects
      ↔ abandons w.state.station identity selects n = true := fun n => by
    refine ⟨fun hn => (List.mem_filter.1 hn).2, fun hn => List.mem_filter.2 ⟨?_, hn⟩⟩
    have hchallenged : (w.state.station n).state.challengedIdentity = some identity :=
      beq_iff_eq.1 (Bool.and_eq_true_iff.1 hn).1
    refine List.mem_range.2 (State.lt_of_identity (s := w.state) (identity := identity) ?_)
    cases hs : (w.state.station n).state <;>
      simp_all [StationState.challengedIdentity, StationState.identity]
  obtain ⟨honly, hstation, hevents⟩ := Work.foldl_abandon refusal identity
    (List.nodup_range.filter _ : (w.state.challengedPositions identity selects).Nodup) w
    fun n hn => beq_iff_eq.1 (Bool.and_eq_true_iff.1 ((hmem n).1 hn)).1
  exact ⟨honly, fun n => (hstation n).trans (if_congr (hmem n) rfl rfl), hevents⟩

theorem besideCongestion_abandonments (after : Nat → Station) (identity : Nat)
    (refusal : RefusalReason) (selects : Nat → Bool) :
    besideCongestion (abandonments after identity refusal selects)
      = abandonments after identity refusal selects :=
  List.filter_eq_self.2 fun _ he => by
    obtain ⟨n, -, rfl⟩ := List.mem_map.1 he
    rfl

theorem congestionsOf_abandonments (g : Nat) (after : Nat → Station) (identity : Nat)
    (refusal : RefusalReason) (selects : Nat → Bool) :
    congestionsOf g (abandonments after identity refusal selects) = [] :=
  List.filter_eq_nil_iff.2 fun _ he => by
    obtain ⟨n, -, rfl⟩ := List.mem_map.1 he
    exact Bool.false_ne_true

/-- Challenges abandoned after a withdrawal. -/
theorem Work.RetiredFrom.abandonIdentity {w : Work} {s : State} {after : Nat → Station}
    {gone : Connection → Bool} {report : List Event} (h : w.RetiredFrom s after gone report)
    (refusal : RefusalReason) (identity : Nat) (selects : Nat → Bool) :
    (w.abandonIdentity refusal identity selects).RetiredFrom s
      (fun n => if abandons after identity selects n = true then
          { after n with state := .vacant, slot := s.slotWith n (.refuse refusal) }
        else after n)
      gone (report ++ abandonments after identity refusal selects) := by
  obtain ⟨honly, hstation, hreleases, hbeside, hcongestions⟩ := h
  obtain ⟨honlyStations, hstations, hevents⟩ := w.abandonIdentity_spec refusal identity selects
  obtain rfl : w.state.station = after := funext hstation
  have hgroup : ∀ g, (w.abandonIdentity refusal identity selects).state.group g
      = w.state.group g := fun g => by
    rw [honlyStations]
    rfl
  refine ⟨?_, fun n => (hstations n).trans ?_, ?_, ?_, fun hg hc g => ?_⟩
  · refine OnlyCallsAndStations.trans honly ?_
    unfold OnlyStations at honlyStations
    unfold OnlyCallsAndStations
    rw [honlyStations]
  · have hslot : ∀ m, w.state.slotWith n m = s.slotWith n m := fun m => by
      rw [honly]
      rfl
    unfold State.abandonedAt
    rw [hslot]
  · rw [honlyStations]
    exact hreleases
  · rw [hevents, besideCongestion_append, hbeside, besideCongestion_abandonments]
  · rw [hevents, congestionsOf_append, congestionsOf_abandonments, List.append_nil, hgroup]
    exact hcongestions hg hc g

/-! ### The two first requests of a directory order (R33, R35, R38, R39) -/

/-- The work of the two first requests: the withdrawal at a position, if any, and the abandonment of
the challenges of the identity at the selected positions. -/
def Work.twoRequests (s : State) (reason : ReleaseReason) (refusal : RefusalReason) (identity : Nat)
    (position : Option Nat) (selects : Nat → Bool) : Work :=
  (match position with
    | some n => (Work.start s).withdraw reason n
    | none => Work.start s).abandonIdentity refusal identity selects

/-- What the two requests leave of a station record. -/
def State.afterRequests (s : State) (refusal : RefusalReason) (identity : Nat)
    (position : Option Nat) (selects : Nat → Bool) (n : Nat) : Station :=
  if position = some n then (s.station n).withdrawn
  else if abandons s.station identity selects n = true then
    { s.station n with state := .vacant, slot := s.slotWith n (.refuse refusal) }
  else s.station n

theorem Work.twoRequests_retiredFrom {s : State} (ht : TableLaw s) (reason : ReleaseReason)
    (refusal : RefusalReason) (identity : Nat) {position : Option Nat}
    (hposition : ∀ n, position = some n → (s.station n).state = .admitted identity)
    (selects : Nat → Bool) :
    (Work.twoRequests s reason refusal identity position selects).RetiredFrom s
      (s.afterRequests refusal identity position selects)
      (fun c => position.any fun n => c.fallsWith n)
      (s.withdrawalReport reason position.toList
        ++ s.abandonReport identity refusal (abandons s.station identity selects)) := by
  cases position with
  | none =>
    have hdone := (Work.retiredFrom_of_onlyStations (w := Work.start s) ht (.refl s)
      fun _ => rfl).abandonIdentity refusal identity selects
    exact hdone
  | some n =>
    have hn := hposition n rfl
    have hdone := (Work.withdraw_retiredFrom ht reason hn).abandonIdentity refusal identity selects
    have hsame : ∀ m, (if m = n then (s.station n).withdrawn else s.station m).state.challengedIdentity
        = (s.station m).state.challengedIdentity
          ∧ (if m = n then (s.station n).withdrawn else s.station m).failures
            = (s.station m).failures := fun m => by
      by_cases hm : m = n
      · rw [if_pos hm, hm, hn]
        exact ⟨rfl, rfl⟩
      · rw [if_neg hm]
        exact ⟨rfl, rfl⟩
    have habandons : abandons (fun m => if m = n then (s.station n).withdrawn else s.station m)
        identity selects = abandons s.station identity selects := by
      funext m
      unfold abandons
      rw [(hsame m).1]
    refine hdone.congr (fun m => ?_) rfl ?_
    · rw [habandons]
      unfold State.afterRequests
      by_cases hm : m = n
      · have hnot : abandons s.station identity selects n ≠ true := by
          unfold abandons
          rw [hn]
          exact Bool.false_ne_true
        rw [hm, if_neg hnot, if_pos rfl, if_pos rfl]
      · have hne : ¬some n = some m := fun h => hm (Option.some.inj h).symm
        rw [if_neg hne]
        simp only [if_neg hm]
    · unfold abandonments State.abandonReport State.withdrawalReport
      rw [habandons]
      simp only [(hsame _).2, Option.toList_some, State.withdrawalsAmong, hn]

end Sys2Proof.Machine
end

section
/-! SUPPORT. REMOVE and SUSPEND: the orders on one entry, and the two requests of an order that has
written the directory, O17 (R33, R35). -/

namespace Sys2Proof.Machine

/-! ### The directory written -/

/-- Where an identity is ADMITTED is admitted-at (R30). -/
theorem State.admittedAt_of_position {s : State} {identity : Nat} {position : Option Nat}
    (h : ∀ n, position = some n ↔ (s.station n).state = .admitted identity) :
    s.admittedAt identity = position := by
  cases position with
  | none =>
    refine List.find?_eq_none.2 fun n _ => ?_
    rw [beq_iff_eq, StationState.admittedIdentity_eq_some, ← h]
    nofun
  | some n =>
    refine State.admittedAt_of_admitted ((h n).1 rfl) fun m hm => ?_
    exact (Option.some.inj ((h m).2 hm)).symm

section directoryWritten

variable (s : State) (p : Port) (d : List DirectoryEntry)

/-- The state of a take whose order has written the directory. -/
def State.takenWith : State := { s.taken p with directory := d }

@[simp] theorem State.takenWith_station (n : Nat) : (s.takenWith p d).station n = s.station n :=
  s.taken_station p n
@[simp] theorem State.takenWith_connections : (s.takenWith p d).connections = s.connections :=
  s.taken_connections p
@[simp] theorem State.takenWith_slotWith (n : Nat) (m : StationMessage) :
    (s.takenWith p d).slotWith n m = s.slotWith n m := by cases p <;> rfl
@[simp] theorem State.takenWith_admittedAt (identity : Nat) :
    (s.takenWith p d).admittedAt identity = s.admittedAt identity := s.taken_admittedAt p identity

theorem State.takenWith_tableLaw (h : TableLaw s) : TableLaw (s.takenWith p d) := by
  unfold TableLaw
  rw [State.takenWith_connections]
  exact h

theorem State.takenWith_afterRequests (refusal : RefusalReason) (identity : Nat)
    (position : Option Nat) (selects : Nat → Bool) :
    (s.takenWith p d).afterRequests refusal identity position selects
      = s.afterRequests refusal identity position selects := by
  cases p <;> rfl

theorem State.takenWith_withdrawalReport (reason : ReleaseReason) (position : Option Nat) :
    (s.takenWith p d).withdrawalReport reason position.toList
      = s.withdrawalReport reason position.toList := by
  cases position <;> cases p <;> rfl

theorem State.takenWith_abandonReport (refusal : RefusalReason) (identity : Nat)
    (selects : Nat → Bool) :
    (s.takenWith p d).abandonReport identity refusal
        (abandons (s.takenWith p d).station identity selects)
      = s.abandonReport identity refusal (abandons s.station identity selects) := by
  cases p <;> rfl

end directoryWritten

/-- The two requests of an order that has written the directory. -/
theorem State.takenWith_twoRequests {s : State} (ht : TableLaw s) (p : Port)
    (d : List DirectoryEntry)
    (reason : ReleaseReason) (refusal : RefusalReason) {identity : Nat} {position : Option Nat}
    (hposition : ∀ n, position = some n → (s.station n).state = .admitted identity)
    (selects : Nat → Bool) :
    (Work.twoRequests (s.takenWith p d) reason refusal identity position selects).RetiredFrom
      (s.takenWith p d) (s.afterRequests refusal identity position selects)
      (fun c => position.any fun n => c.fallsWith n)
      (s.withdrawalReport reason position.toList
        ++ s.abandonReport identity refusal (abandons s.station identity selects)) := by
  have h := Work.twoRequests_retiredFrom (s.takenWith_tableLaw p d ht) reason refusal identity
    (position := position) (fun n hn => by rw [State.takenWith_station]; exact hposition n hn) selects
  rwa [State.takenWith_withdrawalReport, State.takenWith_abandonReport,
    s.takenWith_afterRequests p d refusal identity position selects] at h

/-! ### REMOVE and SUSPEND (R33, R35) -/

theorem Work.retireIdentity_eq {s : State} {identity : Nat} {position : Option Nat}
    (h : s.admittedAt identity = position) (reason : ReleaseReason) :
    (Work.start s).retireIdentity reason identity
      = Work.twoRequests s reason .unknown identity position fun _ => true := by
  unfold Work.retireIdentity Work.withdrawIdentity Work.twoRequests
  cases position <;> simp only [Work.start_state, h]

theorem State.challengeCount_eq (s : State) (identity : Nat) :
    s.challengeCount identity
      = (List.range 96).countP fun n => (s.station n).state.challengedIdentity == some identity := by
  simp [State.challengeCount, State.challengedPositions, List.countP_eq_length_filter]

/-- What REMOVE and SUSPEND leave, once the directory is written: the reply, and then the events of the
two requests. -/
theorem retireIdentity_retires {s : State} (ht : TableLaw s) (p : Port) (d : List DirectoryEntry)
    (reason : ReleaseReason) {identity : Nat} {position : Option Nat}
    (hposition : ∀ n, position = some n ↔ (s.station n).state = .admitted identity) (entry : Entry) :
    let challenged : Nat → Bool := fun n => (s.station n).state.challengedIdentity == some identity
    let w := (Work.start (s.takenWith p d)).retireIdentity reason identity
    Retires ((s.takenWith p d).append p entry) ((w.state.append p entry).postAll w.events)
      (fun n =>
        if position = some n then (s.station n).withdrawn
        else if challenged n = true then
          { s.station n with state := .vacant, slot := s.slotWith n (.refuse .unknown) }
        else s.station n)
      (fun c => position.any fun n => c.fallsWith n)
      (s.withdrawalReport reason position.toList ++ s.abandonReport identity .unknown challenged)
      [] := by
  intro challenged w
  have hat : (s.takenWith p d).admittedAt identity = position := by
    rw [State.takenWith_admittedAt]
    exact State.admittedAt_of_position hposition
  have hall : abandons s.station identity (fun _ => true) = challenged :=
    funext fun n => Bool.and_true _
  have h := ((State.takenWith_twoRequests ht p d reason .unknown (fun n => (hposition n).1)
    fun _ => true).append p entry).retires
  rw [← Work.retireIdentity_eq hat, hall] at h
  unfold State.afterRequests at h
  rw [hall] at h
  exact h

theorem State.onEntry_refusals {s : State} {p : Port} {o : OrderRecord} {identity : Nat}
    {body : DirectoryEntry → Answer} :
    (identity = 0 ∨ 9999 < identity →
        (s.taken p).replied p o (onEntry identity (s.taken p) body)
          = s.refusal p o.code o.tag .range [])
      ∧ (1 ≤ identity → identity ≤ 9999 → (∀ d ∈ s.directory, d.identity ≠ identity) →
        (s.taken p).replied p o (onEntry identity (s.taken p) body)
          = s.refusal p o.code o.tag .noEntry []) := by
  refine ⟨fun h => ?_, fun hlow hhigh h => ?_⟩
  · unfold onEntry
    rw [if_pos ((identityInRange_eq_false_iff _).2 h)]
    rfl
  · have hin : ¬(!identityInRange identity) = true := by
      rw [identityInRange_eq_false_iff]
      omega
    rw [onEntry_of_none ((s.taken_entry p identity).trans ((s.entry_eq_none_iff identity).2 h)),
      if_neg hin]
    rfl

/-- An order on an entry that is present (R33 to R36). -/
theorem State.onEntry_present {s : State} {p : Port} {identity : Nat} {e : DirectoryEntry}
    (hlow : 1 ≤ identity) (hhigh : identity ≤ 9999)
    (he : (s.directory.find? fun d => d.identity == identity) = some e)
    (body : DirectoryEntry → Answer) : onEntry identity (s.taken p) body = body e := by
  have hin : ¬(!identityInRange identity) = true := by
    rw [identityInRange_eq_false_iff]
    omega
  rw [onEntry_of_some ((s.taken_entry p identity).trans he), if_neg hin]

theorem State.takenWith_dropEntry (s : State) (p : Port) (identity : Nat) :
    (s.taken p).dropEntry identity
      = s.takenWith p (s.directory.filter fun d => d.identity != identity) := by
  unfold State.dropEntry
  rw [State.taken_directory]
  rfl

/-- The fields of REMOVE and SUSPEND on the station withdrawn and the challenges abandoned (R33, R35). -/
theorem State.retirementFields_eq {s : State} {identity : Nat} {position : Option Nat}
    (h : ∀ n, position = some n ↔ (s.station n).state = .admitted identity) (p : Port) :
    [optionalByte ((s.taken p).admittedAt identity), byteOf ((s.taken p).challengeCount identity)]
      = [(position.map byteOf).getD 0xFF, byteOf ((List.range 96).countP fun n =>
          (s.station n).state.challengedIdentity == some identity)] := by
  rw [State.taken_admittedAt, State.admittedAt_of_position h, optionalByte_eq,
    State.challengeCount_eq]
  simp only [State.taken_station]

/-- REMOVE of an entry that is present (R33). -/
theorem State.removeEntry_present {s : State} {identity : Nat} {e : DirectoryEntry}
    {position : Option Nat} (hlow : 1 ≤ identity) (hhigh : identity ≤ 9999)
    (he : (s.directory.find? fun d => d.identity == identity) = some e)
    (h : ∀ n, position = some n ↔ (s.station n).state = .admitted identity) (p : Port) :
    removeEntry identity (s.taken p)
      = .done (bytes2 identity ++ [(position.map byteOf).getD 0xFF, byteOf ((List.range 96).countP
          fun n => (s.station n).state.challengedIdentity == some identity)])
        ((Work.start (s.takenWith p (s.directory.filter fun d => d.identity != identity))).retireIdentity
          .removed identity) := by
  unfold removeEntry
  rw [State.onEntry_present hlow hhigh he, State.retirementFields_eq h, State.takenWith_dropEntry]

/-- SUSPEND of an ENABLED entry (R35). -/
theorem State.suspendEntry_enabled {s : State} {identity : Nat} {e : DirectoryEntry}
    {position : Option Nat} (hlow : 1 ≤ identity) (hhigh : identity ≤ 9999)
    (he : (s.directory.find? fun d => d.identity == identity) = some e)
    (h : ∀ n, position = some n ↔ (s.station n).state = .admitted identity) (p : Port)
    (hsuspended : e.suspended = false) :
    suspendEntry identity (s.taken p)
      = .done (bytes2 identity ++ 0 :: [(position.map byteOf).getD 0xFF, byteOf ((List.range 96).countP
          fun n => (s.station n).state.challengedIdentity == some identity)])
        ((Work.start (s.takenWith p (s.directory.map fun d =>
          if d.identity = identity then { d with suspended := true } else d))).retireIdentity
          .suspended identity) := by
  unfold suspendEntry
  rw [State.onEntry_present hlow hhigh he, hsuspended, if_neg Bool.false_ne_true,
    State.mapEntry_taken, ← State.retirementFields_eq h p]
  rfl

/-- SUSPEND of an entry that is SUSPENDED already (R35). -/
theorem State.suspendEntry_suspended {s : State} {identity : Nat} {e : DirectoryEntry}
    (hlow : 1 ≤ identity) (hhigh : identity ≤ 9999)
    (he : (s.directory.find? fun d => d.identity == identity) = some e) (p : Port)
    (hsuspended : e.suspended = true) :
    suspendEntry identity (s.taken p) = .plain (bytes2 identity ++ [1, 0xFF, 0]) (s.taken p) := by
  unfold suspendEntry
  rw [State.onEntry_present hlow hhigh he, if_pos hsuspended]
  rfl

/-- Settles O17: the entry is written, the reply appended, and the events of the two requests follow. -/
theorem removeAndSuspendRetireTheIdentity : Obligations.RemoveAndSuspendRetireTheIdentity := by
  unfold Obligations.RemoveAndSuspendRetireTheIdentity
  refine ⟨?_, ?_⟩
  · intro s p tag iHi iLo identity
    refine ⟨fun ht => ⟨fun h => ?_, fun hlow hhigh h => ?_⟩,
      fun ht hp => ⟨fun h => ?_, fun hlow hhigh h => ?_⟩⟩
    · exact exec_of_answer execRemove (fun _ => rfl) (fun _ => rfl) ht rfl rfl rfl rfl
        (State.onEntry_refusals.1 h)
    · exact exec_of_answer execRemove (fun _ => rfl) (fun _ => rfl) ht rfl rfl rfl rfl
        (State.onEntry_refusals.2 hlow hhigh h)
    · exact exec_of_answer execSuspend (fun _ => rfl) (fun _ => rfl) ht rfl rfl rfl
        (authorityCheck_holderOrM hp) (State.onEntry_refusals.1 h)
    · exact exec_of_answer execSuspend (fun _ => rfl) (fun _ => rfl) ht rfl rfl rfl
        (authorityCheck_holderOrM hp) (State.onEntry_refusals.2 hlow hhigh h)
  · intro s p tag iHi iLo e position identity challenged after gone fields report htable hposition
      hlow hhigh he
    refine ⟨fun ht hp => ?_, fun ht hp hsuspended => ?_, fun ht hp hsuspended => ?_⟩
    · refine ⟨_, exec_of_answer execRemove (fun _ => rfl) (fun _ => rfl) ht rfl rfl rfl rfl
        (congrArg _ (State.removeEntry_present hlow hhigh he hposition .m)), ?_⟩
      exact retireIdentity_retires htable .m _ .removed hposition _
    · refine ⟨_, exec_of_answer execSuspend (fun _ => rfl) (fun _ => rfl) ht rfl rfl rfl
        (authorityCheck_holderOrM hp)
        (congrArg _ (State.suspendEntry_enabled hlow hhigh he hposition p hsuspended)), ?_⟩
      exact retireIdentity_retires htable p _ .suspended hposition _
    · exact exec_of_answer execSuspend (fun _ => rfl) (fun _ => rfl) ht rfl rfl rfl
        (authorityCheck_holderOrM hp)
        (congrArg _ (State.suspendEntry_suspended hlow hhigh he p hsuspended))

end Sys2Proof.Machine
end

section
/-! SUPPORT. AMEND: the entry it leaves, the requests it makes and the records that no longer conform,
O18 (R37, R38, R156). -/

namespace Sys2Proof.Machine

/-! ### The class-change judgement (R156) -/

theorem failsService_iff {s : State} {e : DirectoryEntry} {trunk : Nat} (h : isTrunk trunk = true)
    (scrambled : Bool) :
    (failsMask s e trunk || failsPrivacy s e trunk scrambled) = true
      ↔ ¬Conforms s e trunk scrambled := by
  have hmask : failsMask s e trunk = true
      ↔ ¬e.mask.getLsbD (s.slot (trunk - 96)).group = true := by
    simp [failsMask, inMask, slotOf]
  have hprivacy : failsPrivacy s e trunk scrambled = true
      ↔ (e.privacy ≠ .openClass ∧ (s.slot (trunk - 96)).mode = .publicTrunk)
        ∨ (e.privacy = .required ∧ (s.slot (trunk - 96)).mode = .tie ∧ ¬scrambled = true) := by
    simp [failsPrivacy, State.isPublic, State.isTie, slotOf, h, and_assoc]
  unfold Conforms
  rw [Bool.or_eq_true, hmask, hprivacy]
  simp only [not_and_or, Classical.not_imp, ne_eq, not_not]

/-- The records that the class-change judgement of a station selects (R156). -/
theorem classChangeSelects_iff (s : State) (e : DirectoryEntry) (n : Nat) (c : Connection) :
    classChangeSelects s e n c = true
      ↔ ∃ trunk, ((c.source = n ∧ c.destination = trunk) ∨ (c.source = trunk ∧ c.destination = n))
        ∧ 96 ≤ trunk ∧ trunk < 160 ∧ ¬Conforms s e trunk c.privacy.isSome := by
  have htrunk : ∀ trunk, isTrunk trunk = true ↔ 96 ≤ trunk ∧ trunk < 160 := fun trunk => by
    simp [isTrunk]
  have hjudged : ∀ trunk, (isTrunk trunk
      && (failsMask s e trunk || failsPrivacy s e trunk c.privacy.isSome)) = true
      ↔ 96 ≤ trunk ∧ trunk < 160 ∧ ¬Conforms s e trunk c.privacy.isSome := fun trunk => by
    rw [Bool.and_eq_true, ← and_assoc, ← htrunk]
    exact and_congr_right fun h => failsService_iff h _
  unfold classChangeSelects
  rw [Bool.and_assoc, Bool.and_assoc, Bool.or_eq_true, Bool.and_eq_true (c.source == n),
    Bool.and_eq_true (c.destination == n), hjudged, hjudged, beq_iff_eq, beq_iff_eq]
  constructor
  · rintro (⟨hn, h⟩ | ⟨hn, h⟩)
    · exact ⟨_, .inl ⟨hn, rfl⟩, h⟩
    · exact ⟨_, .inr ⟨rfl, hn⟩, h⟩
  · rintro ⟨trunk, ⟨hn, rfl⟩ | ⟨rfl, hn⟩, h⟩
    · exact .inl ⟨hn, h⟩
    · exact .inr ⟨hn, h⟩

theorem classChangeSelects_congr {s t : State} (h : ∀ k, t.slot k = s.slot k) (e : DirectoryEntry)
    (n : Nat) : classChangeSelects t e n = classChangeSelects s e n := by
  funext c
  unfold classChangeSelects failsMask failsPrivacy State.isPublic State.isTie
  simp only [h]

/-! ### The three requests of AMEND (R38) -/

/-- The work of AMEND once the entry is written: the home ports are applied when they are SET, and the
class-change judgement when the class or the mask is SET. -/
def Work.amendRequests (s : State) (e : DirectoryEntry) (setsHomes judged : Bool) : Work :=
  let w := if setsHomes then (Work.start s).applyHomePorts e else Work.start s
  if judged then w.judgeClass e else w

/-- The positions that home ports SET exclude (R38). -/
def homesExclude (e : DirectoryEntry) (setsHomes : Bool) (n : Nat) : Bool :=
  setsHomes && !e.admitsLine (linePortOf n)

/-- The records that an AMEND releases: all of a station withdrawn, and those that no longer conform of a
station that stays (R38, R155, R156). -/
def State.amendReleases (s : State) (e : DirectoryEntry) (position : Option Nat)
    (excluded : Nat → Bool) (judged : Bool) (c : Connection) : Bool :=
  position.any fun n => if excluded n = true then c.fallsWith n else judged && classChangeSelects s e n c

/-- The first two requests of AMEND are those of every order of the directory (R38, R39). -/
theorem Work.applyHomePorts_eq {s : State} {e : DirectoryEntry} {position : Option Nat}
    (h : s.admittedAt e.identity = position) (setsHomes : Bool) :
    (if setsHomes then (Work.start s).applyHomePorts e else Work.start s)
      = Work.twoRequests s .classChange .notHere e.identity
        (position.filter (homesExclude e setsHomes)) (homesExclude e setsHomes) := by
  cases setsHomes with
  | false =>
    have hnone : position.filter (homesExclude e false) = none := by cases position <;> rfl
    have hkept : s.challengedPositions e.identity (homesExclude e false) = [] :=
      List.filter_eq_nil_iff.2 fun n _ => by simp [homesExclude]
    unfold Work.twoRequests Work.abandonIdentity
    rw [hnone]
    simp [hkept]
  | true =>
    have hexclude : homesExclude e true = fun n => !e.admitsLine (linePortOf n) :=
      funext fun n => Bool.true_and _
    unfold Work.applyHomePorts Work.twoRequests
    rw [hexclude, if_pos rfl]
    refine congrArg (Work.abandonIdentity · .notHere e.identity _) ?_
    cases position with
    | none => simp only [Work.start_state, h, Option.filter_none]
    | some n =>
      simp only [Work.start_state, h, Option.filter_some]
      split <;> rfl

/-- The class-change judgement of a station that is not ADMITTED selects nothing (R156). -/
theorem Work.judgeClass_eq_self {w : Work} {e : DirectoryEntry}
    (h : ∀ n, (w.state.station n).state ≠ .admitted e.identity) : w.judgeClass e = w := by
  have hat : w.state.admittedAt e.identity = none :=
    State.admittedAt_of_position fun n => iff_of_false (by simp) (h n)
  simp only [Work.judgeClass, hat]

theorem Work.judgeClass_of_admitted {w : Work} {e : DirectoryEntry} {n : Nat}
    (h : ∀ m, some n = some m ↔ (w.state.station m).state = .admitted e.identity) :
    w.judgeClass e = w.releaseWhere (some .classChange) (classChangeSelects w.state e n) := by
  simp only [Work.judgeClass, State.admittedAt_of_position h]

/-- The report of an AMEND: of the station withdrawn, of the challenges abandoned, and of the records
that a station that stays loses (R38, R39, R153). -/
def State.amendReport (s : State) (identity : Nat) (position : Option Nat) (excluded : Nat → Bool)
    (gone : Connection → Bool) : List Event :=
  s.withdrawalReport .classChange (position.filter excluded).toList
    ++ s.abandonReport identity .notHere (abandons s.station identity excluded)
    ++ if (position.filter excluded).isSome = true then []
      else releasedReport s.connections gone .classChange

theorem releasedReport_none (cs : List Connection) (r : ReleaseReason) :
    releasedReport cs (fun _ => false) r = [] := by
  simp [releasedReport]

/-- AMEND that withdraws the station: it is ADMITTED nowhere when its class would be judged (R38). -/
theorem Work.amendRequests_withdrawn {s : State} (ht : TableLaw s) {e : DirectoryEntry} {n : Nat}
    (hposition : ∀ m, some n = some m ↔ (s.station m).state = .admitted e.identity)
    {setsHomes : Bool} (judged : Bool) (hexcluded : homesExclude e setsHomes n = true) :
    (Work.amendRequests s e setsHomes judged).RetiredFrom s
      (s.afterRequests .notHere e.identity ((some n).filter (homesExclude e setsHomes))
        (homesExclude e setsHomes))
      (s.amendReleases e (some n) (homesExclude e setsHomes) judged)
      (s.amendReport e.identity (some n) (homesExclude e setsHomes)
        (s.amendReleases e (some n) (homesExclude e setsHomes) judged)) := by
  have hfilter : (some n).filter (homesExclude e setsHomes) = some n := by
    rw [Option.filter_some, if_pos hexcluded]
  have hgone : s.amendReleases e (some n) (homesExclude e setsHomes) judged
      = fun c => c.fallsWith n := by
    funext c
    exact if_pos hexcluded
  have htwo := Work.twoRequests_retiredFrom ht .classChange .notHere e.identity
    (position := some n) (fun m hm => (hposition m).1 hm) (homesExclude e setsHomes)
  have hnowhere : ∀ m, ((Work.twoRequests s .classChange .notHere e.identity (some n)
      (homesExclude e setsHomes)).state.station m).state ≠ .admitted e.identity := fun m => by
    rw [htwo.station]
    unfold State.afterRequests
    split
    case isTrue => exact StationState.noConfusion
    case isFalse hne =>
      split
      · exact StationState.noConfusion
      · exact mt (hposition m).2 hne
  unfold Work.amendRequests State.amendReport
  dsimp only
  rw [Work.applyHomePorts_eq (State.admittedAt_of_position hposition), hfilter,
    Work.judgeClass_eq_self hnowhere, ite_self, hgone]
  refine htwo.congr (fun _ => rfl) rfl ?_
  exact (List.append_nil _).symm

theorem Work.releaseWhere_none (w : Work) (r : Option ReleaseReason) :
    w.releaseWhere r (fun _ => false) = w := by
  simp [Work.releaseWhere]

/-- The class-change judgement of a station that its home ports do not exclude (R156). -/
theorem Work.judgeClass_eq_releaseWhere {w : Work} {s : State} (honly : OnlyStations s w.state)
    {e : DirectoryEntry} {position : Option Nat} {excluded : Nat → Bool}
    (hat : ∀ n, position = some n ↔ (w.state.station n).state = .admitted e.identity)
    (hkept : ∀ n, position = some n → ¬excluded n = true) (judged : Bool) :
    (if judged then w.judgeClass e else w)
      = w.releaseWhere (some .classChange) (s.amendReleases e position excluded judged) := by
  cases position with
  | none =>
    have hnowhere : w.judgeClass e = w := Work.judgeClass_eq_self fun n hn => by simpa using (hat n).2 hn
    rw [hnowhere, ite_self]
    exact (w.releaseWhere_none _).symm
  | some n =>
    have hreleases : s.amendReleases e (some n) excluded judged
        = fun c => judged && classChangeSelects s e n c :=
      funext fun _ => if_neg (hkept n rfl)
    rw [hreleases, Work.judgeClass_of_admitted hat]
    cases judged with
    | false => exact (w.releaseWhere_none _).symm
    | true =>
      have hslots : ∀ k, w.state.slot k = s.slot k := fun k => by
        rw [honly]
        rfl
      rw [if_pos rfl, classChangeSelects_congr hslots]
      rfl

/-- AMEND that leaves the station where it is: challenges are abandoned, and the records that no longer
conform are released when the class or the mask is SET (R38, R156). -/
theorem Work.amendRequests_kept {s : State} (ht : TableLaw s) {e : DirectoryEntry}
    {position : Option Nat}
    (hposition : ∀ n, position = some n ↔ (s.station n).state = .admitted e.identity)
    {setsHomes : Bool} (judged : Bool)
    (hkept : ∀ n, position = some n → ¬homesExclude e setsHomes n = true) :
    (Work.amendRequests s e setsHomes judged).RetiredFrom s
      (s.afterRequests .notHere e.identity (position.filter (homesExclude e setsHomes))
        (homesExclude e setsHomes))
      (s.amendReleases e position (homesExclude e setsHomes) judged)
      (s.amendReport e.identity position (homesExclude e setsHomes)
        (s.amendReleases e position (homesExclude e setsHomes) judged)) := by
  have hfilter : position.filter (homesExclude e setsHomes) = none :=
    Option.filter_eq_none_iff.2 hkept
  have happlied := Work.applyHomePorts_eq (State.admittedAt_of_position hposition) setsHomes
  rw [hfilter] at happlied
  obtain ⟨honly, hstation, hevents⟩ : OnlyStations s _ ∧ _ :=
    (Work.start s).abandonIdentity_spec .notHere e.identity (homesExclude e setsHomes)
  unfold Work.amendRequests State.amendReport
  dsimp only
  rw [happlied, hfilter]
  change Work.RetiredFrom (if judged then (Work.abandonIdentity _ _ _ _).judgeClass e
    else Work.abandonIdentity _ _ _ _) _ _ _ _
  generalize (Work.start s).abandonIdentity .notHere e.identity (homesExclude e setsHomes) = w
    at honly hstation hevents ⊢
  have hat : ∀ n, position = some n ↔ (w.state.station n).state = .admitted e.identity :=
    fun n => by
      rw [hposition, hstation, Work.start_state]
      split
      case isTrue habandoned =>
        refine iff_of_false (fun hn => ?_) StationState.noConfusion
        simp [abandons, hn, StationState.challengedIdentity] at habandoned
      case isFalse => rfl
  rw [Work.judgeClass_eq_releaseWhere honly hat hkept]
  refine (Work.releaseWhere_retiredFrom ht honly (fun g => ?_) .classChange _).congr hstation rfl ?_
  · rw [hevents]
    exact congestionsOf_abandonments g _ _ _ _
  · rw [hevents]
    exact congrArg (· ++ _) (besideCongestion_abandonments _ _ _ _)

/-- What the three requests of AMEND do (R38). -/
theorem Work.amendRequests_retiredFrom {s : State} (ht : TableLaw s) {e : DirectoryEntry}
    {position : Option Nat}
    (hposition : ∀ n, position = some n ↔ (s.station n).state = .admitted e.identity)
    (setsHomes judged : Bool) :
    (Work.amendRequests s e setsHomes judged).RetiredFrom s
      (s.afterRequests .notHere e.identity (position.filter (homesExclude e setsHomes))
        (homesExclude e setsHomes))
      (s.amendReleases e position (homesExclude e setsHomes) judged)
      (s.amendReport e.identity position (homesExclude e setsHomes)
        (s.amendReleases e position (homesExclude e setsHomes) judged)) := by
  by_cases h : ∃ n, position = some n ∧ homesExclude e setsHomes n = true
  · obtain ⟨n, rfl, hn⟩ := h
    exact Work.amendRequests_withdrawn ht hposition judged hn
  · exact Work.amendRequests_kept ht hposition judged fun n hn hexcluded => h ⟨n, hn, hexcluded⟩

end Sys2Proof.Machine
end

section
/-! SUPPORT. AMEND: its parameters, the entry and the directory it leaves, and what it answers, O18 (R37,
R38, R177). -/

namespace Sys2Proof.Machine

/-! ### The entry an AMEND leaves (R37) -/

/-- The parameters of an AMEND (R177). -/
def amendParams (iHi iLo pm pv cm cv mm mv hm : Byte) (homes : List Byte) : List Byte :=
  iHi :: iLo :: pm :: pv :: cm :: cv :: mm :: mv :: hm :: homes

/-- The check of AMEND for RANGE, as the model makes it (R37). -/
def amendOutOfRange (params : List Byte) : Bool :=
  !identityInRange (param2 params 0)
    || (flagSet (paramByte params 2) && decide (7 < param1 params 3))
    || (flagSet (paramByte params 8) && (homePortParams params).any (fun n => decide (47 < n)))

section amendParameters

variable {iHi iLo pm pv cm cv mm mv hm : Byte} {homes : List Byte}

theorem homePortParams_amendParams :
    homePortParams (amendParams iHi iLo pm pv cm cv mm mv hm homes) = homes.map BitVec.toNat := rfl

theorem amendedEntry_eq (hcv : cm = 1 → cv.toNat ≤ 2) (hhomes : hm = 1 ↔ homes ≠ [])
    (hle : ∀ b ∈ homes, b.toNat ≤ 47) (e : DirectoryEntry) :
    amendedEntry (amendParams iHi iLo pm pv cm cv mm mv hm homes) e =
      { e with
        precedence := if pm = 1 then some pv.toNat else if pm = 2 then none else e.precedence
        privacy := if cm = 1 then if cv = 0 then .openClass else if cv = 1 then .tieOnly else .required
          else e.privacy
        mask := if mm = 1 then mv else e.mask
        homePorts :=
          if hm = 1 then some ((List.range 48).filter fun n => homes.any fun b => b.toNat == n)
          else if hm = 2 then none else e.homePorts } := by
  have hprivacy : (if flagSet cm = true then (privacyClassOf cv).getD e.privacy else e.privacy)
      = if cm = 1 then if cv = 0 then .openClass else if cv = 1 then .tieOnly else .required
        else e.privacy := by
    rw [flagSet_eq]
    refine ite_congr (propext beq_iff_eq) (fun h => privacyClassOf_getD (hcv h) _) fun _ => rfl
  have hmask : (if flagSet mm = true then mv else e.mask) = if mm = 1 then mv else e.mask := by
    simp [flagSet]
  have hports : (if hm = 1 then homePortsOf (homes.map BitVec.toNat)
        else if hm = 2 then none else e.homePorts)
      = if hm = 1 then some ((List.range 48).filter fun n => homes.any fun b => b.toNat == n)
        else if hm = 2 then none else e.homePorts := by
    refine ite_congr rfl (fun h => ?_) fun _ => rfl
    rw [homePortsOf_eq_filter hle, if_neg (hhomes.1 h)]
  rw [← hprivacy, ← hmask, ← hports]
  rfl

theorem amendOutOfRange_iff (hhomes : hm = 1 ↔ homes ≠ []) :
    amendOutOfRange (amendParams iHi iLo pm pv cm cv mm mv hm homes) = true
      ↔ (iHi ++ iLo : Word16).toNat = 0 ∨ 9999 < (iHi ++ iLo : Word16).toNat
        ∨ (pm = 1 ∧ 7 < pv.toNat) ∨ ∃ b ∈ homes, 47 < b.toNat := by
  have hports : (flagSet hm && (homes.map BitVec.toNat).any (fun n => decide (47 < n))) = true
      ↔ ∃ b ∈ homes, 47 < b.toNat := by
    simp only [flagSet_eq, Bool.and_eq_true, beq_iff_eq, hhomes, List.any_map, List.any_eq_true,
      Function.comp_apply, decide_eq_true_eq]
    exact and_iff_right_of_imp fun ⟨b, hb, _⟩ => List.ne_nil_of_mem hb
  have hprecedence : (flagSet pm && decide (7 < pv.toNat)) = true ↔ pm = 1 ∧ 7 < pv.toNat := by
    simp [flagSet]
  change (!identityInRange (iHi ++ iLo : Word16).toNat || (flagSet pm && decide (7 < pv.toNat))
    || (flagSet hm && (homes.map BitVec.toNat).any (fun n => decide (47 < n)))) = true ↔ _
  rw [Bool.or_eq_true, Bool.or_eq_true, identityInRange_eq_false_iff, hprecedence, hports, or_assoc,
    or_assoc]

theorem amendCodes_of_fit (hpm : pm.toNat ≤ 2) (hcm : cm.toNat ≤ 1) (hcv : cm = 1 → cv.toNat ≤ 2)
    (hmm : mm.toNat ≤ 1) (hhm : hm.toNat ≤ 2) (hhomes : hm = 1 ↔ homes ≠ []) :
    amendCodes (amendParams iHi iLo pm pv cm cv mm mv hm homes) = true := by
  have hone : ∀ b : Byte, b.toNat = 1 ↔ b = 1 := fun b => by bv_omega
  have hports : hm.toNat = 1 ↔ 9 < (amendParams iHi iLo pm pv cm cv mm mv hm homes).length := by
    rw [hone, hhomes, ← List.length_pos_iff]
    simp only [amendParams, List.length_cons]
    omega
  exact (amendCodes_iff _).2 ⟨hpm, hcm, fun h => hcv ((hone _).1 h), hmm, hhm, hports⟩

end amendParameters

/-- The positions that the home ports of an AMEND exclude (R38). -/
theorem homesExclude_eq {hm : Byte} {homes : List Byte} {e : DirectoryEntry}
    (hports : hm = 1 → e.homePorts
      = some ((List.range 48).filter fun n => homes.any fun b => b.toNat == n))
    (hle : ∀ b ∈ homes, b.toNat ≤ 47) :
    homesExclude e (flagSet hm) = fun n => hm == 1 && !homes.any fun b => b.toNat == n / 2 := by
  funext n
  unfold homesExclude DirectoryEntry.admitsLine linePortOf
  rw [flagSet_eq]
  cases hset : hm == 1 with
  | false => rfl
  | true =>
    have hin : (homes.any fun b => b.toNat == n / 2) = true → n / 2 < 48 := fun h => by
      obtain ⟨b, hb, hbn⟩ := List.any_eq_true.1 h
      have := hle b hb
      rw [beq_iff_eq] at hbn
      omega
    rw [hports (beq_iff_eq.1 hset), Bool.true_and, Bool.true_and]
    refine congrArg (!·) ?_
    rw [Bool.eq_iff_iff, List.contains_iff_mem, List.mem_filter, List.mem_range]
    exact and_iff_right_of_imp hin

/-! ### The directory an AMEND leaves -/

/-- In a directory in order no two entries have one identity (R30). -/
theorem DirectoryLaw.eq_of_identity {s : State} (h : DirectoryLaw s) {d e : DirectoryEntry}
    (hd : d ∈ s.directory) (he : e ∈ s.directory) (hsame : d.identity = e.identity) : d = e := by
  obtain ⟨hsorted, -, -⟩ := h
  refine List.inj_on_of_nodup_map (f := DirectoryEntry.identity) ?_ hd he hsame
  exact List.pairwise_map.2 (hsorted.imp Nat.ne_of_lt)

theorem State.taken_mapEntry_of_entry {s : State} (h : DirectoryLaw s) {e : DirectoryEntry}
    {identity : Nat} (he : s.entry identity = some e) (f : DirectoryEntry → DirectoryEntry)
    (p : Port) :
    (s.taken p).mapEntry identity f
      = s.takenWith p (s.directory.map fun d => if d.identity = identity then f e else d) := by
  obtain ⟨hmem, hidentity⟩ := State.entry_eq_some he
  rw [State.mapEntry_taken]
  unfold State.takenWith
  refine congrArg (fun d => { s.taken p with directory := d }) (List.map_congr_left fun d hd => ?_)
  refine ite_congr rfl (fun hsame => ?_) fun _ => rfl
  rw [h.eq_of_identity hd hmem (hsame.trans hidentity.symm)]

section

variable (s : State) (p : Port) (d : List DirectoryEntry)

theorem State.takenWith_amendReleases (e : DirectoryEntry) (position : Option Nat)
    (excluded : Nat → Bool) (judged : Bool) :
    (s.takenWith p d).amendReleases e position excluded judged
      = s.amendReleases e position excluded judged := by
  have hslots : ∀ k, (s.takenWith p d).slot k = s.slot k := fun k => by cases p <;> rfl
  unfold State.amendReleases
  simp only [classChangeSelects_congr hslots]

theorem State.takenWith_amendReport (identity : Nat) (position : Option Nat) (excluded : Nat → Bool)
    (gone : Connection → Bool) :
    (s.takenWith p d).amendReport identity position excluded gone
      = s.amendReport identity position excluded gone := by
  unfold State.amendReport
  rw [State.takenWith_withdrawalReport, State.takenWith_abandonReport, State.takenWith_connections]

end

/-- The records of an event that releases, counted (R159). -/
theorem Releases.releasedBetween_eq {s u : State} {gone : Connection → Bool}
    (h : Releases s u gone) : releasedBetween s u = s.connections.countP gone := by
  obtain ⟨hconnections, -⟩ := h
  unfold releasedBetween State.recordCount
  rw [hconnections, List.length_eq_countP_add_countP gone, ← List.countP_eq_length_filter]
  simp

/-! ### AMEND (R37, R38) -/

section amendAnswer

variable {s : State} {p : Port} {params : List Byte}

theorem State.amendEntry_outOfRange (h : amendOutOfRange params = true) :
    amendEntry params s = .refuse .range [] := if_pos h

theorem State.amendEntry_absent (hrange : ¬amendOutOfRange params = true)
    (he : s.entry (param2 params 0) = none) :
    amendEntry params (s.taken p) = .refuse .noEntry [] := by
  refine (if_neg hrange).trans ?_
  rw [(s.taken_entry p _).trans he]

/-- AMEND of an entry that is present, once its values are in range (R37). -/
theorem State.amendEntry_present {e : DirectoryEntry} (hrange : ¬amendOutOfRange params = true)
    (he : s.entry (param2 params 0) = some e) (hdirectory : DirectoryLaw s) :
    amendEntry params (s.taken p) =
      let w := Work.amendRequests (s.takenWith p (s.directory.map fun d =>
        if d.identity = param2 params 0 then amendedEntry params e else d)) (amendedEntry params e)
        (flagSet (paramByte params 8)) (flagSet (paramByte params 4) || flagSet (paramByte params 6))
      let excluded := homesExclude (amendedEntry params e) (flagSet (paramByte params 8))
      .done (entryFields (amendedEntry params e)
        ++ [optionalByte ((s.admittedAt (param2 params 0)).filter excluded),
          byteOf ((List.range 96).countP (abandons s.station (param2 params 0) excluded)),
          byteOf (releasedBetween (s.taken p) w.state)]) w := by
  refine (if_neg hrange).trans ?_
  rw [(s.taken_entry p _).trans he]
  dsimp only
  rw [State.taken_mapEntry_of_entry hdirectory he, State.taken_admittedAt]
  have hchallenged : ((s.taken p).challengedPositions (param2 params 0)
      (homesExclude (amendedEntry params e) (flagSet (paramByte params 8)))).length
        = (List.range 96).countP (abandons s.station (param2 params 0)
          (homesExclude (amendedEntry params e) (flagSet (paramByte params 8)))) := by
    rw [List.countP_eq_length_filter]
    unfold State.challengedPositions
    simp only [State.taken_station]
    rfl
  rw [← hchallenged]
  rfl

end amendAnswer

/-- What AMEND leaves, once the entry is written (R38). -/
theorem State.takenWith_amendRequests {s : State} (ht : TableLaw s) (p : Port)
    (d : List DirectoryEntry) {e : DirectoryEntry} {position : Option Nat}
    (hposition : ∀ n, position = some n ↔ (s.station n).state = .admitted e.identity)
    (setsHomes judged : Bool) {excluded : Nat → Bool}
    (hexcluded : homesExclude e setsHomes = excluded) :
    (Work.amendRequests (s.takenWith p d) e setsHomes judged).RetiredFrom (s.takenWith p d)
      (s.afterRequests .notHere e.identity (position.filter excluded) excluded)
      (s.amendReleases e position excluded judged)
      (s.amendReport e.identity position excluded (s.amendReleases e position excluded judged)) := by
  have h := Work.amendRequests_retiredFrom (s.takenWith_tableLaw p d ht) (position := position)
    (e := e) (fun n => by rw [State.takenWith_station]; exact hposition n) setsHomes judged
  rwa [hexcluded, State.takenWith_afterRequests, State.takenWith_amendReport,
    State.takenWith_amendReleases] at h

/-- The records an AMEND releases, as R38, R155 and R156 say it. -/
theorem State.amendReleases_iff (s : State) (e : DirectoryEntry) (position : Option Nat)
    (excluded : Nat → Bool) (judged : Bool) (c : Connection) :
    s.amendReleases e position excluded judged c = true ↔
      ∃ n, position = some n
        ∧ ((excluded n = true ∧ c.fallsWith n = true)
          ∨ (excluded n = false ∧ judged = true
            ∧ ∃ trunk, ((c.source = n ∧ c.destination = trunk)
                ∨ (c.source = trunk ∧ c.destination = n))
              ∧ 96 ≤ trunk ∧ trunk < 160 ∧ ¬Conforms s e trunk c.privacy.isSome)) := by
  unfold State.amendReleases
  rw [Option.any_eq_true]
  refine exists_congr fun n => and_congr_right fun _ => ?_
  cases excluded n with
  | true => simp
  | false => simp [classChangeSelects_iff]

theorem State.afterRequests_filter (s : State) (refusal : RefusalReason) (identity : Nat)
    (position : Option Nat) (selects : Nat → Bool) :
    s.afterRequests refusal identity (position.filter selects) selects = fun n =>
      if position = some n ∧ selects n = true then (s.station n).withdrawn
      else if abandons s.station identity selects n = true then
        { s.station n with state := .vacant, slot := s.slotWith n (.refuse refusal) }
      else s.station n := by
  funext n
  exact if_congr Option.filter_eq_some_iff rfl rfl

/-- The fields of AMEND: the entry without its secret, and what the requests did (R37). -/
theorem amendFields_eq (e : DirectoryEntry) (withdrawn : Option Nat) (abandoned released : Nat) :
    entryFields e ++ [optionalByte withdrawn, byteOf abandoned, byteOf released]
      = bytes2 e.identity
        ++ [(e.precedence.map byteOf).getD 0xFF, privacyClassCode e.privacy, e.mask]
        ++ byteOf (e.homePorts.getD []).length :: (e.homePorts.getD []).map byteOf
        ++ [if e.suspended = true then 1 else 0, (withdrawn.map byteOf).getD 0xFF, byteOf abandoned,
            byteOf released] := by
  rw [← optionalByte_eq, ← optionalByte_eq]
  exact List.append_assoc _ [_] [_, _, _]

/-- The reply to an AMEND of an entry that is present, and its work (R37, R38). -/
theorem State.amendEntry_done {s : State} {p : Port} {params : List Byte} {e e' : DirectoryEntry}
    {position : Option Nat} {excluded : Nat → Bool} (htable : TableLaw s)
    (hdirectory : DirectoryLaw s) (hrange : ¬amendOutOfRange params = true)
    (he : s.entry (param2 params 0) = some e) (he' : amendedEntry params e = e')
    (hposition : ∀ n, position = some n ↔ (s.station n).state = .admitted e'.identity)
    (hexcluded : homesExclude e' (flagSet (paramByte params 8)) = excluded) :
    let judged : Bool := flagSet (paramByte params 4) || flagSet (paramByte params 6)
    amendEntry params (s.taken p) = .done
      (bytes2 e'.identity
        ++ [(e'.precedence.map byteOf).getD 0xFF, privacyClassCode e'.privacy, e'.mask]
        ++ byteOf (e'.homePorts.getD []).length :: (e'.homePorts.getD []).map byteOf
        ++ [if e'.suspended = true then 1 else 0,
            ((position.filter excluded).map byteOf).getD 0xFF,
            byteOf ((List.range 96).countP (abandons s.station e'.identity excluded)),
            byteOf (s.connections.countP (s.amendReleases e' position excluded judged))])
      (Work.amendRequests (s.takenWith p (s.directory.map fun d =>
        if d.identity = e'.identity then e' else d)) e' (flagSet (paramByte params 8)) judged) := by
  intro judged
  have hidentity : param2 params 0 = e'.identity := by
    rw [← he']
    exact (State.entry_eq_some he).2.symm
  have hretired := State.takenWith_amendRequests htable p
    (s.directory.map fun d => if d.identity = e'.identity then e' else d) hposition _ judged hexcluded
  have hcount := hretired.releases.releasedBetween_eq
  rw [State.takenWith_connections] at hcount
  rw [State.amendEntry_present hrange he hdirectory, he', hexcluded, hidentity,
    State.admittedAt_of_position hposition]
  dsimp only
  rw [amendFields_eq, ← hcount]
  rfl

/-- A take of an AMEND whose form fits: what its answer leaves (R8, R37). -/
theorem exec_amend_of_answer {s : State} {p : Port} {tag iHi iLo pm pv cm cv mm mv hm : Byte}
    {homes : List Byte}
    (ht : s.Takes p (queuedOrder 0x13 tag (amendParams iHi iLo pm pv cm cv mm mv hm homes)))
    (hp : s.HolderOrM p) (hpm : pm.toNat ≤ 2) (hcm : cm.toNat ≤ 1) (hcv : cm = 1 → cv.toNat ≤ 2)
    (hmm : mm.toNat ≤ 1) (hhm : hm.toNat ≤ 2) (hlength : homes.length ≤ 4)
    (hhomes : hm = 1 ↔ homes ≠ []) {answer : Answer}
    (h : amendEntry (amendParams iHi iLo pm pv cm cv mm mv hm homes) (s.taken p) = answer) :
    exec .amend s = .next ((s.taken p).replied p
      (queuedOrder 0x13 tag (amendParams iHi iLo pm pv cm cv mm mv hm homes)) answer) :=
  exec_of_answer execAmend (fun _ => rfl) (fun _ => rfl) ht rfl
    (lengthFits_of_homes (.inr rfl) hlength) (amendCodes_of_fit hpm hcm hcv hmm hhm hhomes)
    (authorityCheck_holderOrM hp) (congrArg _ h)

/-- Settles O18, by whether the new home ports exclude the position where the station is ADMITTED: then
it is withdrawn and its class judged no more; else its records are judged by the class-change rule. -/
theorem amendChangesMarkedFieldsAndReleasesTheRest :
    Obligations.AmendChangesMarkedFieldsAndReleasesTheRest := by
  unfold Obligations.AmendChangesMarkedFieldsAndReleasesTheRest
  refine ⟨?_, ?_⟩
  · intro s p tag iHi iLo pm pv cm cv mm mv hm homes identity outside ht hp hpm hcm hcv hmm hhm
      hlength hhomes
    have hrange : amendOutOfRange (amendParams iHi iLo pm pv cm cv mm mv hm homes) = true ↔ outside :=
      amendOutOfRange_iff hhomes
    refine ⟨fun hout => ?_, fun hin hnone => ?_⟩
    · exact exec_amend_of_answer ht hp hpm hcm hcv hmm hhm hlength hhomes
        (State.amendEntry_outOfRange (hrange.2 hout))
    · exact exec_amend_of_answer ht hp hpm hcm hcv hmm hhm hlength hhomes
        (State.amendEntry_absent (mt hrange.1 hin) ((s.entry_eq_none_iff _).2 hnone))
  · intro s p tag iHi iLo pm pv cm cv mm mv hm homes e position identity e' excluded challenged after
      htable hdirectory hposition ht hp hpm hcm hcv hmm hhm hlength hhomes hlow hhigh hpv hle he
    have hin : ¬amendOutOfRange (amendParams iHi iLo pm pv cm cv mm mv hm homes) = true := by
      rw [amendOutOfRange_iff hhomes]
      rintro (h | h | ⟨hset, h⟩ | ⟨b, hb, h⟩)
      · omega
      · omega
      · exact absurd (hpv hset) (by omega)
      · exact absurd (hle b hb) (by omega)
    have hentry : amendedEntry (amendParams iHi iLo pm pv cm cv mm mv hm homes) e = e' :=
      amendedEntry_eq hcv hhomes hle e
    have hidentity : e'.identity = identity := (State.entry_eq_some he).2
    have hexcluded : homesExclude e' (flagSet hm) = excluded :=
      homesExclude_eq (fun h => if_pos h) hle
    rw [← hidentity] at hposition
    refine ⟨_, s.amendReleases e' position excluded (flagSet cm || flagSet mm),
      exec_amend_of_answer ht hp hpm hcm hcv hmm hhm hlength hhomes
        (State.amendEntry_done htable hdirectory hin he hentry hposition hexcluded),
      fun c _ => ?_, ?_⟩
    · have hjudged : (flagSet cm || flagSet mm) = true ↔ cm = 1 ∨ mm = 1 := by simp [flagSet]
      rw [State.amendReleases_iff, hjudged]
    · have hretires := fun entry => ((State.takenWith_amendRequests htable p (s.directory.map fun d =>
        if d.identity = e'.identity then e' else d) hposition (flagSet hm) (flagSet cm || flagSet mm)
        hexcluded).append p entry).retires
      rw [State.afterRequests_filter, hidentity] at hretires
      rw [hidentity]
      exact hretires _

end Sys2Proof.Machine
end

section
/-! SUPPORT. Releases and withdrawals in stages: what two stages of work do together, and the
positions of a list that are cleared one after another, for the statements on SET PORT, BABBLE and
the links (R49 to R51, R67, R148 to R154). -/

namespace Sys2Proof.Machine

/-! ### Releases in two stages (R148 to R152) -/

/-- The records that a second selection takes from those that a first one left. -/
theorem any_stages (cs : List Connection) (gone gone' p : Connection → Bool) :
    ((cs.any fun c => gone c && p c) || (cs.filter fun c => !gone c).any fun c => gone' c && p c)
      = cs.any fun c => (gone c || gone' c) && p c := by
  induction cs with
  | nil => rfl
  | cons c cs ih =>
    rw [List.any_cons, List.any_cons, ← ih, List.filter_cons]
    cases gone c
    · simp [Bool.or_left_comm]
    · simp [Bool.or_assoc]

theorem countP_stages (cs : List Connection) (gone gone' p : Connection → Bool) :
    ((cs.countP fun c => gone c && p c)
        + (cs.filter fun c => !gone c).countP fun c => gone' c && p c)
      = cs.countP fun c => (gone c || gone' c) && p c := by
  induction cs with
  | nil => rfl
  | cons c cs ih =>
    rw [List.countP_cons, List.countP_cons, ← ih, List.filter_cons]
    cases gone c
    · simp [List.countP_cons, Nat.add_assoc]
    · simp [Nat.add_right_comm]

theorem filter_stages (cs : List Connection) (gone gone' : Connection → Bool) :
    ((cs.filter fun c => !gone c).filter fun c => !gone' c)
      = cs.filter fun c => !(gone c || gone' c) := by
  simp only [List.filter_filter, Bool.not_or, Bool.and_comm]

theorem Watch.afterReleases_afterReleases (ids ids' : Nat → Bool) (v : Watch) :
    (v.afterReleases ids).afterReleases ids' = v.afterReleases fun id => ids id || ids' id := by
  cases v with
  | idle => rfl
  | armed => rfl
  | tripped identity request hold t =>
    cases hids : ids t.connectionId <;> cases hsince : t.releasedSince <;>
      simp [Watch.afterReleases, hids, hsince]

/-- Releases leave legal groups, and congestion states that agree with them (R113, R122). -/
theorem Releases.groupLaws {s t : State} {gone : Connection → Bool} (h : Releases s t gone)
    (hslot : ∀ n, t.slot n = s.slot n) (hg : GroupLaw s) (hc : CongestionLaw s) :
    GroupLaw t ∧ CongestionLaw t := by
  obtain ⟨-, -, -, -, hgroup⟩ := h
  have hfallen := hgroup hg hc
  refine ⟨⟨fun n => by rw [hslot]; exact hg.1 n, fun g => ?_⟩, fun g => ?_⟩
  · rw [hfallen]
    exact hg.2 g
  · rw [hfallen]
    exact (((hg.settledGroups hc).2 g).fallenBy _).2

theorem Releases.tableLaw {s t : State} {gone : Connection → Bool} (h : Releases s t gone)
    (ht : TableLaw s) : TableLaw t := ht.of_shrinks (.of_filter h.1)

/-- Nothing has been released. -/
theorem Releases.refl (s : State) : Releases s s fun _ => false := by
  have hfreed : ∀ g, s.slotsFreed (fun _ => false) g = 0 := fun g => by
    refine List.countP_eq_zero.2 fun n _ => ?_
    have hall : (s.connections.all fun c => !c.names (96 + n) || false) = !s.named (96 + n) := by
      simp [State.named, List.not_any_eq_all_not]
    rw [hall, Bool.and_assoc, Bool.and_not_self, Bool.and_false]
    exact Bool.false_ne_true
  have hids : ∀ p : Connection → Bool, (s.connections.any fun c => false && p c) = false := by simp
  refine ⟨by simp, by simp, by simp, ?_, fun hg hc g => ?_⟩
  · have hwatch : Watch.afterReleases (fun _ => false) = id := funext Watch.afterReleases_none
    simp only [hids, hwatch, Vector.map_id]
  · rw [hfreed, ((hg.settledGroups hc).2 g).fallenBy_zero]

/-- Two selections, one after the other, are the selection of both. -/
theorem Releases.trans {s t u : State} {gone gone' : Connection → Bool} (h : Releases s t gone)
    (hslot : ∀ n, t.slot n = s.slot n) (h' : Releases t u gone') :
    Releases s u fun c => gone c || gone' c := by
  have hlaws := h.groupLaws hslot
  obtain ⟨hconn, hleg, hkey, hwatch, hgroup⟩ := h
  obtain ⟨hconn', hleg', hkey', hwatch', hgroup'⟩ := h'
  have hleft : u.connections = s.connections.filter fun c => !(gone c || gone' c) := by
    rw [hconn', hconn, filter_stages]
  refine ⟨hleft, fun n => ?_, fun k => ?_, ?_, fun hg hc g => ?_⟩
  · rw [hleg', hleg, hconn, ← any_stages]
    cases s.connections.any fun c => gone c && c.privacy.map (·.leg) == some n <;> simp
  · rw [hkey', hkey, hconn, ← countP_stages, Nat.sub_sub]
  · rw [hwatch', hwatch, hconn, Vector.map_map]
    congr 1
    funext v
    rw [Function.comp_apply, Watch.afterReleases_afterReleases]
    simp only [any_stages]
  · obtain ⟨hg', hc'⟩ := hlaws hg hc
    rw [hgroup' hg' hc', hgroup hg hc, Group.fallenBy_fallenBy, State.slotsFreed_eq_slotsLeft,
      State.slotsFreed_eq_slotsLeft, State.slotsFreed_eq_slotsLeft, ← hleft, ← hconn, ← hconn',
      State.slotsLeft_add hslot]
    · intro c hc
      rw [hconn] at hc
      exact (List.mem_filter.1 hc).1
    · intro c hc
      rw [hconn'] at hc
      exact (List.mem_filter.1 hc).1

theorem Releases.postAll {s t : State} {gone : Connection → Bool} (h : Releases s t gone)
    (es : List Event) : Releases s (t.postAll es) gone := by
  unfold Releases at h ⊢
  simpa only [State.postAll_connections, State.postAll_leg, State.postAll_key,
    State.postAll_watches, State.postAll_group] using h

/-! ### Work that goes on from earlier work -/

/-- v is the work w gone on with: the records that have left since, and what has been reported
since, beside the CONGESTION events and with them (R148, R153, R123). -/
structure Work.Continues (w v : Work) (gone : Connection → Bool) (report : List Event) : Prop where
  slot : ∀ n, v.state.slot n = w.state.slot n
  releases : Releases w.state v.state gone
  beside : besideCongestion v.events = besideCongestion w.events ++ report
  congestions : GroupLaw w.state → CongestionLaw w.state → ∀ g, congestionsOf g v.events
    = congestionsOf g w.events ++ congestionReport g (w.state.group g) (v.state.group g)

theorem Work.Continues.congr {w v : Work} {gone gone' : Connection → Bool}
    {report report' : List Event} (h : w.Continues v gone report) (hgone : ∀ c, gone c = gone' c)
    (hreport : report = report') : w.Continues v gone' report' := by
  rw [← hreport, ← funext hgone]
  exact h

theorem Work.Continues.refl (w : Work) : w.Continues w (fun _ => false) [] where
  slot _ := rfl
  releases := .refl _
  beside := (List.append_nil _).symm
  congestions _ _ g := by simp [congestionReport]

theorem Work.Continues.trans {w v u : Work} {gone gone' : Connection → Bool}
    {report report' : List Event} (h : w.Continues v gone report)
    (h' : v.Continues u gone' report') :
    w.Continues u (fun c => gone c || gone' c) (report ++ report') where
  slot n := (h'.slot n).trans (h.slot n)
  releases := h.releases.trans h.slot h'.releases
  beside := by rw [h'.beside, h.beside, List.append_assoc]
  congestions hg hc g := by
    obtain ⟨hg', hc'⟩ := h.releases.groupLaws h.slot hg hc
    obtain ⟨-, -, -, -, hgroup⟩ := h.releases
    obtain ⟨-, -, -, -, hgroup'⟩ := h'.releases
    rw [h'.congestions hg' hc', h.congestions hg hc, List.append_assoc, hgroup' hg' hc',
      hgroup hg hc, congestionReport_fallenBy]

/-- A station record changes, which no release reads. -/
theorem Work.Continues.setStation {w v : Work} {gone : Connection → Bool} {report : List Event}
    (h : w.Continues v gone report) (n : Nat) (x : State → Station) :
    w.Continues (v.update fun s => s.setStation n (x s)) gone report :=
  ⟨h.slot, h.releases, h.beside, h.congestions⟩

/-- A line port record changes, which no release reads. -/
theorem Work.Continues.setLine {w v : Work} {gone : Connection → Bool} {report : List Event}
    (h : w.Continues v gone report) (n : Nat) (x : State → LinePort) :
    w.Continues (v.update fun s => s.setLine n (x s)) gone report :=
  ⟨h.slot, h.releases, h.beside, h.congestions⟩

/-- An event other than CONGESTION is raised. -/
theorem Work.Continues.raise {w v : Work} {gone : Connection → Bool} {report : List Event}
    (h : w.Continues v gone report) {e : Event} (he : besideCongestion [e] = [e]) :
    w.Continues (v.raise e) gone (report ++ [e]) where
  slot := h.slot
  releases := h.releases
  beside := by
    rw [Work.raise_events, besideCongestion_append, h.beside, he, List.append_assoc]
  congestions hg hc g := by
    have hquiet : congestionsOf g [e] = [] := by
      cases e with
      | congestion => cases he
      | _ => rfl
    rw [Work.raise_events, congestionsOf_append, hquiet, List.append_nil]
    exact h.congestions hg hc g

theorem Work.releaseWhere_continues {w : Work} (ht : TableLaw w.state) (r : ReleaseReason)
    (gone : Connection → Bool) :
    w.Continues (w.releaseWhere (some r) gone) gone
      (releasedReport w.state.connections gone r) where
  slot := (w.releaseWhere_onlyCalls (some r) gone).slot
  releases := Work.releaseWhere_releases (some r) gone ht
  beside := by
    rw [Work.releaseWhere_besideCongestion, besideCongestion_releaseReports]
    rfl
  congestions hg hc := Work.releaseWhere_congestionsOf (some r) gone ht hg hc

/-- The work of one event from its start: what the rules of retirement say of it. -/
theorem Work.Continues.retiredFrom {s : State} {w : Work} {gone : Connection → Bool}
    {report : List Event} {after : Nat → Station} (h : (Work.start s).Continues w gone report)
    (honly : OnlyCallsAndStations s w.state) (hstation : ∀ n, w.state.station n = after n) :
    w.RetiredFrom s after gone report :=
  ⟨honly, hstation, h.releases, h.beside, h.congestions⟩

/-- The last events are posted after the reports. -/
theorem Retires.postLast {s u : State} {after : Nat → Station} {gone : Connection → Bool}
    {report : List Event} (h : Retires s u after gone report []) (last : List Event) :
    Retires s (u.postAll last) after gone report last := by
  obtain ⟨⟨hports, hframe⟩, hstation, hreleases, es, hposted, hbeside, hcongestions⟩ := h
  refine ⟨⟨hports.trans (u.postAll_samePorts last), ?_⟩, fun n => ?_, hreleases.postAll last, es,
    fun p => ?_, hbeside, fun hg hc g => ?_⟩
  · rw [u.postAll_onlyPorts last]
    rw [hframe]
  · rw [State.postAll_station, hstation]
  · rw [State.postAll_append]
    refine State.postAll_port_congr ?_ (fun q => ?_) last p
    · rw [hframe, State.postAll_restart]
    · rw [hposted, List.append_nil]
  · rw [State.postAll_group]
    exact hcongestions hg hc g

/-! ### Withdrawals at a list of positions (R67, R154, R155) -/

/-- The record falls with the station ADMITTED at a position. -/
def State.leavesWith (s : State) (n : Nat) (c : Connection) : Bool :=
  (s.station n).state.admittedIdentity.isSome && c.fallsWith n

theorem Work.withdraw_continues {w : Work} (ht : TableLaw w.state) (r : ReleaseReason) (n : Nat) :
    w.Continues (w.withdraw r n) (w.state.leavesWith n) (w.state.withdrawalReport r [n]) := by
  unfold Work.withdraw State.leavesWith State.withdrawalReport State.withdrawalsAmong
  cases hn : (w.state.station n).state with
  | admitted identity =>
    have hvacant := (Work.Continues.refl w).setStation n fun s =>
      { s.station n with state := .vacant, deliver := [] }
    have hreleased := Work.releaseWhere_continues (w := w.update fun s => s.setStation n
      { s.station n with state := .vacant, deliver := [] }) ht r (withdrawalSelects n)
    refine ((hvacant.trans hreleased).raise (e := .withdrawn n identity r) rfl).congr
      (fun c => ?_) ?_
    · rw [withdrawalSelects_eq_fallsWith]
      rfl
    · rw [withdrawalSelects_eq_fallsWith]
      rfl
  | vacant | challenged | holdOff | locked => exact .refl w

/-- The report of a list of withdrawals: the first one's, and then those of the others while the
records that the first one left stand. -/
theorem State.withdrawalsAmong_cons (s : State) (r : ReleaseReason) (n : Nat) (ns : List Nat)
    (cs : List Connection) :
    s.withdrawalsAmong r (n :: ns) cs = s.withdrawalsAmong r [n] cs
      ++ s.withdrawalsAmong r ns (cs.filter fun c => !s.leavesWith n c) := by
  unfold State.leavesWith
  simp only [State.withdrawalsAmong]
  cases (s.station n).state <;> simp [StationState.admittedIdentity]

/-- The reports of withdrawals read the states of the stations alone. -/
theorem State.withdrawalsAmong_congr {s t : State} (r : ReleaseReason) {ns : List Nat}
    (h : ∀ n ∈ ns, (t.station n).state = (s.station n).state) (cs : List Connection) :
    t.withdrawalsAmong r ns cs = s.withdrawalsAmong r ns cs := by
  induction ns generalizing cs with
  | nil => rfl
  | cons n ns ih =>
    have ih := ih fun m hm => h m (List.mem_cons_of_mem n hm)
    unfold State.withdrawalsAmong
    rw [h n List.mem_cons_self]
    cases (s.station n).state with
    | admitted identity => simp only [ih]
    | vacant | challenged | holdOff | locked => exact ih cs

/-! ### Positions cleared one after another (R49 to R51) -/

/-- What the clearing of one position and the loss of its link have in common: the position's record
is changed as given, and an ADMITTED station is withdrawn (R49 to R51). -/
structure ClearsPosition (clear : Work → Nat → Work) (r : ReleaseReason)
    (after : Station → Station) : Prop where
  station : ∀ (w : Work) {n : Nat}, n < 96 → ∀ m, (clear w n).state.station m =
    if m = n then after (w.state.station n) else w.state.station m
  only : ∀ (w : Work) (n : Nat), OnlyCallsAndStations w.state (clear w n).state
  continues : ∀ {w : Work}, TableLaw w.state → ∀ n,
    w.Continues (clear w n) (w.state.leavesWith n) (w.state.withdrawalReport r [n])

theorem Work.Continues.of_not_admitted {w v : Work} (h : w.Continues v (fun _ => false) [])
    (r : ReleaseReason) {n : Nat} (hn : (w.state.station n).state.admittedIdentity = none) :
    w.Continues v (w.state.leavesWith n) (w.state.withdrawalReport r [n]) := by
  refine h.congr (fun c => ?_) ?_
  · rw [State.leavesWith, hn]
    rfl
  · unfold State.withdrawalReport State.withdrawalsAmong
    cases hs : (w.state.station n).state with
    | admitted => rw [hs] at hn; cases hn
    | vacant | challenged | holdOff | locked => rfl

theorem clearPosition_clears (r : ReleaseReason) :
    ClearsPosition (fun w n => w.clearPosition r n) r Station.cleared where
  station w _ hn := w.clearPosition_station r hn
  only w n := w.clearPosition_onlyCallsAndStations r n
  continues {w} ht n := by
    have hwithdrawn := Work.withdraw_continues ht r n
    have hkept := Work.Continues.refl w
    unfold Work.clearPosition
    cases hn : (w.state.station n).state with
    | admitted => exact hwithdrawn.setStation n _
    | challenged | holdOff =>
      exact ((hkept.setStation n _).setStation n _).of_not_admitted r (by rw [hn]; rfl)
    | locked | vacant => exact (hkept.setStation n _).of_not_admitted r (by rw [hn]; rfl)

theorem loseLink_clears : ClearsPosition Work.loseLink .linkLost Station.lost where
  station w _ hn := w.loseLink_station hn
  only w n := w.loseLink_onlyCallsAndStations n
  continues {w} ht n := by
    have hwithdrawn := Work.withdraw_continues ht .linkLost n
    have hkept := Work.Continues.refl w
    unfold Work.loseLink
    cases hn : (w.state.station n).state with
    | admitted => exact hwithdrawn.setStation n _
    | challenged =>
      exact ((hkept.setStation n _).setStation n _).of_not_admitted _ (by rw [hn]; rfl)
    | holdOff | locked | vacant =>
      exact (hkept.setStation n _).of_not_admitted _ (by rw [hn]; rfl)

/-- The clearing of a list of positions: every record of the list is changed, and the ADMITTED
stations among them are withdrawn in turn. -/
theorem ClearsPosition.foldl {clear : Work → Nat → Work} {r : ReleaseReason}
    {after : Station → Station} (h : ClearsPosition clear r after) {ns : List Nat}
    (hnodup : ns.Nodup) (hlt : ∀ n ∈ ns, n < 96) {w : Work} (ht : TableLaw w.state) :
    (∀ m, (ns.foldl clear w).state.station m =
        if m ∈ ns then after (w.state.station m) else w.state.station m)
      ∧ OnlyCallsAndStations w.state (ns.foldl clear w).state
      ∧ w.Continues (ns.foldl clear w) (fun c => ns.any fun n => w.state.leavesWith n c)
        (w.state.withdrawalReport r ns) := by
  induction ns generalizing w with
  | nil => exact ⟨fun m => (if_neg List.not_mem_nil).symm, .refl _, .refl w⟩
  | cons n ns ih =>
    obtain ⟨hnot, hnodup⟩ := List.nodup_cons.1 hnodup
    have hfirst := h.station w (hlt n List.mem_cons_self)
    have hone := h.continues ht n
    obtain ⟨hstation, honly, hothers⟩ := ih hnodup (fun m hm => hlt m (List.mem_cons_of_mem n hm))
      (hone.releases.tableLaw ht)
    have hsame : ∀ m ∈ ns, (clear w n).state.station m = w.state.station m := fun m hm => by
      rw [hfirst, if_neg fun hmn : m = n => hnot (hmn ▸ hm)]
    refine ⟨fun m => ?_, (h.only w n).trans honly, (hone.trans hothers).congr (fun c => ?_) ?_⟩
    · rw [List.foldl_cons, hstation]
      by_cases hm : m ∈ ns
      · rw [if_pos hm, if_pos (List.mem_cons_of_mem n hm), hsame m hm]
      · rw [if_neg hm, hfirst]
        by_cases hmn : m = n
        · simp [hmn]
        · simp [hmn, hm]
    · rw [List.any_cons]
      congr 1
      rw [Bool.eq_iff_iff, List.any_eq_true, List.any_eq_true]
      refine exists_congr fun m => and_congr_right fun hm => ?_
      rw [State.leavesWith, State.leavesWith, hsame m hm]
    · obtain ⟨hconn, -⟩ := hone.releases
      unfold State.withdrawalReport
      rw [w.state.withdrawalsAmong_cons r n ns, hconn, State.withdrawalsAmong_congr (s := w.state)
        (t := (clear w n).state) r fun m hm => by rw [hsame m hm]]

/-- What is counted and sought among all positions, by a predicate that holds of the positions of a
list alone. -/
theorem countP_any_of_mem {clears : Nat → Bool} {ns : List Nat} (hnodup : ns.Nodup)
    (hlt : ∀ n ∈ ns, n < 96) (h : ∀ n, clears n = true ↔ n ∈ ns) (p q : Nat → Bool) :
    ((List.range 96).countP fun n => clears n && p n) = ns.countP p
      ∧ ((List.range 96).any fun n => (clears n && p n) && q n) = ns.any fun n => p n && q n := by
  have hperm : ((List.range 96).filter clears).Perm ns :=
    (List.perm_ext_iff_of_nodup (List.nodup_range.filter _) hnodup).2 fun n => by
      rw [List.mem_filter, List.mem_range, h]
      exact and_iff_right_of_imp (hlt n)
  refine ⟨?_, ?_⟩
  · rw [← hperm.countP_eq, List.countP_filter]
    simp only [Bool.and_comm]
  · rw [← hperm.any_eq, List.any_filter]
    simp only [Bool.and_assoc]

end Sys2Proof.Machine
end

section
/-! SUPPORT. The messages of stations and the deadlines of their records, O23 to O26 (R54, R58 to
R66, R69, R82 to R84, R179). -/

namespace Sys2Proof.Machine

/-! ### Posting and the records that it does not read -/

/-- A change that neither reads nor writes the ports is the same before and after events are posted.
-/
theorem State.postAll_comm {f : State → State} (hport : ∀ t p, (f t).port p = t.port p)
    (hrestart : ∀ t, (f t).restart = t.restart)
    (hset : ∀ t p v, (f t).setPort p v = f (t.setPort p v)) (s : State) (es : List Event) :
    (f s).postAll es = f (s.postAll es) := by
  have hpostTo : ∀ t e p, (f t).postTo e p = f (t.postTo e p) := fun t e p => by
    have hrestarting : (f t).restarting = t.restarting := by
      unfold State.restarting
      rw [hrestart]
    unfold State.postTo State.loseEvent State.append
    rw [hrestarting, hport, hset, hset]
    split <;> rfl
  exact List.foldl_hom f fun t e => (List.foldl_hom f fun t p => hpostTo t e p)

theorem State.postAll_setStation (s : State) (n : Nat) (v : Station) (es : List Event) :
    (s.setStation n v).postAll es = (s.postAll es).setStation n v :=
  State.postAll_comm (f := fun t => t.setStation n v) (fun t p => by cases p <;> rfl) (fun _ => rfl)
    (fun t p v => by cases p <;> rfl) s es

@[simp] theorem State.postAll_slotWith (s : State) (es : List Event) (n : Nat)
    (m : StationMessage) :
    (s.postAll es).slotWith n m = s.slotWith n m := by
  unfold State.slotWith
  rw [State.postAll_line]

/-! ### Messages that are heard (R54) -/

theorem State.hears_iff (s : State) (n : Nat) : s.hears n = true ↔ s.Hears n := by
  have hserved : (n % 2 = 0 ∨ (s.line (n / 2)).pairing = true)
      ↔ (n % 2 = 1 → (s.line (n / 2)).pairing = true) := by
    rcases Nat.mod_two_eq_zero_or_one n with h | h <;> simp [h]
  unfold State.hears State.Hears State.restarting linePortOf
  rw [← hserved]
  simp [and_assoc]

/-! ### The counted failure and the challenge (R59, R60) -/

theorem Work.countFailure_finish (w : Work) {n : Nat} (hn : n < 96) (identity : Nat)
    (r : RefusalReason) :
    (w.countFailure n identity r).finish = w.finish.failedAt n identity r := by
  unfold Work.finish State.failedAt
  rw [w.countFailure_state hn, w.countFailure_events hn, State.postAll_append,
    State.postAll_setStation]
  simp only [State.postAll_station, State.postAll_slotWith, State.postAll_lockoutCount,
    State.postAll_clock, State.postAll_holdOffTime]
  rfl

/-- R83 as the manual writes it. -/
theorem challengeValue_eq (u : Word16) :
    challengeValue u = if u.toNat % 2 = 1 then u else u + 1 := by
  have hodd : u.getLsbD 0 = decide (u.toNat % 2 = 1) := by
    rw [BitVec.getLsbD, Nat.testBit_zero]
  unfold challengeValue forceOdd
  simp only [hodd, decide_eq_true_eq]

/-- A challenge issued, in the terms of the challenge sequence and the expected response (R82, R83).
-/
theorem State.challengedAt_eq (s : State) (n identity : Nat) (secret : Word16) :
    s.challengedAt n identity secret =
      let sequence := nextChallengeState s.challengeSequence
      let value := challengeValue sequence
      { s.setStation n
          { s.station n with
            state := .challenged identity value (expectedResponse secret value)
              (s.after s.answerWindow)
            slot := s.slotWith n (.challenge value) } with
        challengeSequence := sequence } := by
  unfold State.challengedAt
  simp only [challengeValue_eq, nextChallengeState, expectedResponse, generatorStep, State.after]

theorem Work.issueChallenge_state_eq (w : Work) {n : Nat} (hn : n < 96) (identity : Nat)
    (e : DirectoryEntry) :
    (w.issueChallenge n identity e).state = w.state.challengedAt n identity e.secret := by
  rw [State.challengedAt_eq]
  unfold Work.issueChallenge
  generalize nextChallengeState w.state.challengeSequence = sequence
  simp only [Work.update_state, State.placeMessage_eq, State.setStationState,
    State.station_setStation_same _ hn, State.setStation_setStation]
  rfl

/-- A challenge issued and events posted, in either order. -/
theorem State.postAll_challengedAt (s : State) (n identity : Nat) (secret : Word16)
    (es : List Event) :
    (s.challengedAt n identity secret).postAll es
      = (s.postAll es).challengedAt n identity secret := by
  have hcomm : ∀ (u : Word16) (v : Station),
      ({ s.setStation n v with challengeSequence := u } : State).postAll es
        = { (s.postAll es).setStation n v with challengeSequence := u } := fun u v =>
    State.postAll_comm (f := fun t => { t.setStation n v with challengeSequence := u })
      (fun t p => by cases p <;> rfl) (fun _ => rfl) (fun t p v => by cases p <;> rfl) s es
  rw [State.challengedAt_eq, State.challengedAt_eq]
  simp only [hcomm, State.postAll_station, State.postAll_slotWith, State.postAll_answerWindow,
    State.postAll_challengeSequence, State.after, State.postAll_clock]

theorem Work.issueChallenge_finish (w : Work) {n : Nat} (hn : n < 96) (identity : Nat)
    (e : DirectoryEntry) :
    (w.issueChallenge n identity e).finish = w.finish.challengedAt n identity e.secret := by
  have hevents : (w.issueChallenge n identity e).events = w.events := by
    simp only [Work.issueChallenge, Work.update_events]
  unfold Work.finish
  rw [w.issueChallenge_state_eq hn, State.postAll_challengedAt, hevents]

/-! ### REGISTER (R58) -/

theorem DirectoryEntry.admitsLine_eq_false_iff (e : DirectoryEntry) (line : Nat) :
    (!e.admitsLine line) = true ↔ ∃ ports, e.homePorts = some ports ∧ line ∉ ports := by
  unfold DirectoryEntry.admitsLine
  cases e.homePorts <;> simp

/-- A REGISTER judged after other work: it is judged in the state that the work leaves. -/
theorem Work.judgeRegister_finish (w : Work) {n : Nat} (hn : n < 96) (identity : Nat) :
    (w.judgeRegister n identity).finish = w.finish.registered n identity := by
  have hdirectory : w.finish.directory = w.state.directory := State.postAll_directory _ _
  unfold Work.judgeRegister State.registered State.entry
  rw [hdirectory]
  cases w.state.directory.find? fun e => e.identity == identity with
  | none => exact w.countFailure_finish hn identity _
  | some e =>
    dsimp only
    by_cases hsuspended : e.suspended = true
    · rw [if_pos hsuspended, if_pos hsuspended]
      exact w.countFailure_finish hn identity _
    rw [if_neg hsuspended, if_neg hsuspended]
    have hiff := e.admitsLine_eq_false_iff (n / 2)
    by_cases hhome : (!e.admitsLine (linePortOf n)) = true
    · rw [if_pos hhome, if_pos (hiff.1 hhome)]
      exact w.countFailure_finish hn identity _
    · rw [if_neg hhome, if_neg (mt hiff.2 hhome)]
      exact w.issueChallenge_finish hn identity e

theorem State.withdrawalReport_singleton {s : State} (r : ReleaseReason) {n identity : Nat}
    (hn : (s.station n).state = .admitted identity) :
    s.withdrawalReport r [n]
      = releasedReport s.connections (·.fallsWith n) r ++ [.withdrawn n identity r] := by
  unfold State.withdrawalReport
  simp only [State.withdrawalsAmong, hn]

/-- The withdrawal of one ADMITTED station, with its events posted (R67). -/
theorem withdraw_retires {s : State} (ht : TableLaw s) (r : ReleaseReason) {n identity : Nat}
    (hn : (s.station n).state = .admitted identity) :
    Retires s ((Work.start s).withdraw r n).finish
      (fun m => if m = n then (s.station n).withdrawn else s.station m) (·.fallsWith n)
      (s.withdrawalReport r [n]) [] := by
  rw [State.withdrawalReport_singleton r hn]
  exact (Work.withdraw_retiredFrom ht r hn).retires

theorem execRegister_of_hears {s : State} {n : Fin 96} (h : s.Hears n.val) (identity : Word16) :
    exec (.register n identity) s
      = .next ((Work.start s).takeRegister n.val identity.toNat).finish :=
  if_pos ((s.hears_iff n.val).2 h)

/-- Settles O23, by the state of the position's record. -/
theorem registerIsJudgedByTheStationRecord : Obligations.RegisterIsJudgedByTheStationRecord := by
  unfold Obligations.RegisterIsJudgedByTheStationRecord
  refine fun s n identity => ⟨fun h => if_neg (mt (s.hears_iff n.val).1 h),
    fun h => ⟨fun hn => ?_, fun hn => ?_, fun i hn htable => ?_⟩⟩
  · rw [execRegister_of_hears h, Work.takeRegister, Work.start_state, hn]
    exact congrArg _ ((Work.start s).judgeRegister_finish n.isLt identity.toNat)
  · rw [execRegister_of_hears h, Work.takeRegister, Work.start_state]
    obtain ⟨_, _, _, _, hn⟩ | ⟨_, hn⟩ | hn := hn <;> rw [hn] <;> rfl
  · refine ⟨_, withdraw_retires htable .reregister hn, ?_⟩
    rw [execRegister_of_hears h, Work.takeRegister, Work.start_state, hn]
    exact congrArg _ (Work.judgeRegister_finish _ n.isLt identity.toNat)

/-! ### ANSWER (R61, R62) -/

/-- The station at position n once a correct ANSWER has admitted it, and the event (R61). -/
def State.welcomed (s : State) (n identity : Nat) (former : Option Nat) : State :=
  (s.setStation n
    { s.station n with
      state := .admitted identity
      failures := 0
      slot := s.slotWith n (.welcome identity) }).post (.admitted n identity former)

/-- A correct ANSWER admits the station after the relocation (R61). -/
theorem Work.admitStation_finish (w : Work) {n : Nat} (hn : n < 96) (identity : Nat) :
    (w.admitStation n identity).finish
      = (w.relocate n identity).finish.welcomed n identity
          (w.state.admittedElsewhere identity n) := by
  have hevents : (w.admitStation n identity).events = (w.relocate n identity).events
      ++ [.admitted n identity (w.state.admittedElsewhere identity n)] := rfl
  unfold Work.finish State.welcomed
  rw [hevents, w.admitStation_state, State.placeMessage_eq, State.station_setStation_same _ hn,
    State.setStation_setStation, State.slotWith_setStation, State.postAll_append,
    State.postAll_setStation, State.postAll_station, State.postAll_slotWith]
  rfl

theorem State.admittedElsewhere_eq_none {s : State} {identity : Nat}
    (h : ∀ m, (s.station m).state ≠ .admitted identity) (n : Nat) :
    s.admittedElsewhere identity n = none := by
  refine List.find?_eq_none.2 fun m _ hm => ?_
  simp only [Bool.and_eq_true, beq_iff_eq, StationState.admittedIdentity_eq_some] at hm
  exact h m hm.2

theorem State.admittedElsewhere_eq_some {s : State} {identity n m : Nat} (hne : m ≠ n)
    (h : ∀ k, (s.station k).state = .admitted identity ↔ k = m) :
    s.admittedElsewhere identity n = some m := by
  have hm : (s.station m).state = .admitted identity := (h m).2 rfl
  have hlt : m < 96 := State.lt_of_identity (congrArg StationState.identity hm)
  cases hfound : s.admittedElsewhere identity n with
  | none =>
    have hno := List.find?_eq_none.1 hfound m (List.mem_range.2 hlt)
    simp [hm, hne, StationState.admittedIdentity] at hno
  | some k =>
    have hk := List.find?_some hfound
    simp only [Bool.and_eq_true, beq_iff_eq, StationState.admittedIdentity_eq_some] at hk
    rw [(h k).1 hk.2]

theorem execAnswer_of_hears {s : State} {n : Fin 96} (h : s.Hears n.val) (response : Word16) :
    exec (.answer n response) s = .next ((Work.start s).takeAnswer n.val response).finish :=
  if_pos ((s.hears_iff n.val).2 h)

/-- An ANSWER to a challenge (R61, R62). -/
theorem execAnswer_of_challenged {s : State} {n : Fin 96} {i : Nat} {h r : Word16} {d : Nat}
    (hears : s.Hears n.val) (hn : (s.station n.val).state = .challenged i h r d)
    (response : Word16) :
    exec (.answer n response) s = .next (if response = r then
      ((Work.start s).relocate n.val i).finish.welcomed n.val i (s.admittedElsewhere i n.val)
      else s.failedAt n.val i .badAnswer) := by
  rw [execAnswer_of_hears hears, Work.takeAnswer, Work.start_state, hn]
  dsimp only
  by_cases hr : response = r
  · rw [if_pos hr, if_pos hr]
    exact congrArg _ ((Work.start s).admitStation_finish n.isLt i)
  · rw [if_neg hr, if_neg hr]
    exact congrArg _ ((Work.start s).countFailure_finish n.isLt i .badAnswer)

/-- Settles O24, by whether the answer is the expected one, and where the identity is ADMITTED. -/
theorem answerAdmitsOrFails : Obligations.AnswerAdmitsOrFails := by
  unfold Obligations.AnswerAdmitsOrFails
  refine fun s n response => ⟨fun hidle => ?_, fun i h r d hears hn => ⟨fun hr => ?_,
    fun hr hnone => ?_, fun m hr htable hm => ?_⟩⟩
  · by_cases hears : s.Hears n.val
    · have hn := hidle.resolve_left (not_not_intro hears)
      rw [execAnswer_of_hears hears, Work.takeAnswer, Work.start_state]
      cases hs : (s.station n.val).state with
      | challenged i h r d => exact absurd hs (hn i h r d)
      | vacant | admitted | holdOff | locked => rfl
    · exact if_neg (mt (s.hears_iff n.val).1 hears)
  · rw [execAnswer_of_challenged hears hn, if_neg hr]
  · rw [execAnswer_of_challenged hears hn, if_pos hr, Work.relocate, Work.start_state,
      State.admittedElsewhere_eq_none hnone]
    rfl
  · have hne : m ≠ n.val := fun hmn => by
      have hadmitted := (hm m).2 rfl
      rw [hmn, hn] at hadmitted
      cases hadmitted
    refine ⟨_, withdraw_retires htable .relocated ((hm m).2 rfl), ?_⟩
    rw [execAnswer_of_challenged hears hn, if_pos hr, Work.relocate, Work.start_state,
      State.admittedElsewhere_eq_some hne hm]
    rfl

/-! ### LEAVE and SIGNAL (R64, R66) -/

theorem execLeave_of_hears {s : State} {n : Fin 96} (h : s.Hears n.val) :
    exec (.leave n) s = .next ((Work.start s).takeLeave n.val).finish :=
  if_pos ((s.hears_iff n.val).2 h)

/-- A LEAVE that is disregarded (R54, R69, R70). -/
theorem execLeave_disregarded {s : State} {n : Fin 96}
    (h : ¬s.Hears n.val ∨ ((∀ i, (s.station n.val).state ≠ .admitted i)
      ∧ ∀ i h r d, (s.station n.val).state ≠ .challenged i h r d)) :
    exec (.leave n) s = .next s := by
  by_cases hears : s.Hears n.val
  · obtain ⟨hadmitted, hchallenged⟩ := h.resolve_left (not_not_intro hears)
    rw [execLeave_of_hears hears, Work.takeLeave, Work.start_state]
    cases hs : (s.station n.val).state with
    | admitted i => exact absurd hs (hadmitted i)
    | challenged i h r d => exact absurd hs (hchallenged i h r d)
    | vacant | holdOff | locked => rfl
  · exact if_neg (mt (s.hears_iff n.val).1 hears)

/-- A SIGNAL that is disregarded (R54, R66, R179). -/
theorem execSignal_disregarded {s : State} {n : Fin 96} {bytes : List Byte}
    (h : ¬s.Hears n.val ∨ (∀ i, (s.station n.val).state ≠ .admitted i) ∨ bytes = []
      ∨ 8 < bytes.length) : exec (.signal n bytes) s = .next s := by
  change execSignal n bytes s = _
  unfold execSignal
  split
  case isFalse => rfl
  case isTrue hfit =>
    simp only [Bool.and_eq_true, decide_eq_true_eq] at hfit
    obtain ⟨⟨hears, hnonempty⟩, hlength⟩ := hfit
    cases hs : (s.station n.val).state with
    | vacant | challenged | holdOff | locked => rfl
    | admitted i =>
      obtain hdeaf | hnone | rfl | hlong := h
      · exact absurd ((s.hears_iff n.val).1 hears) hdeaf
      · exact absurd hs (hnone i)
      · exact absurd hnonempty (by simp)
      · omega

theorem execSignal_of_admitted {s : State} {n : Fin 96} {i : Nat} {bytes : List Byte}
    (h : s.Hears n.val) (hn : (s.station n.val).state = .admitted i) (hlow : 1 ≤ bytes.length)
    (hhigh : bytes.length ≤ 8) :
    exec (.signal n bytes) s = .next (s.post (.stationSignal n.val i bytes)) := by
  change execSignal n bytes s = _
  unfold execSignal
  rw [(s.hears_iff n.val).2 h, decide_eq_true hlow, decide_eq_true hhigh, hn]
  rfl

/-- Settles O25, by the state of the position's record. -/
theorem leaveSignalAndUnfitMessagesComplete : Obligations.LeaveSignalAndUnfitMessagesComplete := by
  unfold Obligations.LeaveSignalAndUnfitMessagesComplete
  refine fun s n bytes line => ⟨execLeave_disregarded, fun h hn => ?_, fun i h hn htable => ?_,
    fun _ => execSignal_of_admitted, execSignal_disregarded, rfl⟩
  · obtain ⟨_, _, _, _, hn⟩ := hn
    rw [execLeave_of_hears h, Work.takeLeave, Work.start_state, hn]
    rfl
  · refine ⟨_, ?_, withdraw_retires htable .left hn⟩
    rw [execLeave_of_hears h, Work.takeLeave, Work.start_state, hn]

/-! ### Deadlines (R63, R69) -/

/-- Settles O26, by the state of the position's record. -/
theorem stationDeadlinesExpire : Obligations.StationDeadlinesExpire := by
  unfold Obligations.StationDeadlinesExpire
  refine fun s n => ⟨fun i h r d hn => ?_, fun hn => ?_, fun d hn => ?_, fun hn => ?_⟩
  · change execAnswerDeadlineExpiry n s = _
    rw [execAnswerDeadlineExpiry, hn]
    exact congrArg _ ((Work.start (s.reach d)).countFailure_finish n.isLt i .noAnswer)
  · change execAnswerDeadlineExpiry n s = _
    rw [execAnswerDeadlineExpiry]
    cases hs : (s.station n.val).state with
    | challenged i h r d => exact absurd hs (hn i h r d)
    | vacant | admitted | holdOff | locked => rfl
  · change execHoldOffExpiry n s = _
    rw [execHoldOffExpiry, hn]
    rfl
  · change execHoldOffExpiry n s = _
    rw [execHoldOffExpiry]
    cases hs : (s.station n.val).state with
    | holdOff d => exact absurd hs (hn d)
    | vacant | challenged | admitted | locked => rfl

end Sys2Proof.Machine
end

section
/-! SUPPORT. The orders on line ports and stations, BABBLE and the message channels, O20, O21, O28
and O29 (R48 to R50, R55 to R57, R67, R68, R70, R179). -/

namespace Sys2Proof.Machine

/-! ### Positions of one line port -/

/-- The clearing of the positions of a list, in a state t that has the stations and the records of
s. -/
theorem ClearsPosition.retiredFrom {clear : Work → Nat → Work} {r : ReleaseReason}
    {after : Station → Station} (h : ClearsPosition clear r after) {clears : Nat → Bool}
    {ns : List Nat} (hnodup : ns.Nodup) (hlt : ∀ n ∈ ns, n < 96)
    (hclears : ∀ n, clears n = true ↔ n ∈ ns) {s t : State}
    (hstation : ∀ n, t.station n = s.station n) (hconn : t.connections = s.connections)
    (ht : TableLaw s) :
    (ns.foldl clear (Work.start t)).RetiredFrom t
      (fun n => if clears n = true then after (s.station n) else s.station n)
      (fun c => (List.range 96).any fun n =>
        (clears n && (s.station n).state.admittedIdentity.isSome) && c.fallsWith n)
      (s.withdrawalReport r ns) := by
  have htable : TableLaw t := ht.of_shrinks (.of_eq hconn)
  obtain ⟨hstations, honly, hcontinues⟩ := h.foldl hnodup hlt (w := Work.start t) htable
  refine (hcontinues.congr (fun c => ?_) ?_).retiredFrom honly fun n => ?_
  · rw [(countP_any_of_mem hnodup hlt hclears _ _).2]
    simp only [State.leavesWith, Work.start_state, hstation]
  · unfold State.withdrawalReport
    rw [Work.start_state, hconn]
    exact State.withdrawalsAmong_congr r (fun n _ => by rw [hstation]) _
  · rw [hstations, Work.start_state, hstation]
    exact (if_congr (hclears n) rfl rfl).symm

/-- The two positions of a line port. -/
theorem bothPositions {line : Nat} (h : line < 48) :
    [2 * line, 2 * line + 1].Nodup ∧ (∀ n ∈ [2 * line, 2 * line + 1], n < 96)
      ∧ ∀ n, (n == 2 * line || n == 2 * line + 1) = true ↔ n ∈ [2 * line, 2 * line + 1] := by
  refine ⟨by simp, fun n hn => ?_, fun n => by simp⟩
  simp only [List.mem_cons, List.not_mem_nil, or_false] at hn
  omega

theorem State.setLine_setLine (s : State) (n : Nat) (v v' : LinePort) :
    (s.setLine n v).setLine n v' = s.setLine n v' := by
  simp [State.setLine]

/-! ### BABBLE (R50) -/

theorem execBabble_enabled {s : State} {n : Fin 48} (hr : s.restart = none)
    (hn : (s.line n.val).condition = .enabled) :
    exec (.babble n) s = .next (
      let counted := { s.line n.val with babbleCount := (s.line n.val).babbleCount + 1 }
      if (s.line n.val).tolerance + 1 ≤ (s.line n.val).babbleCount + 1 then
        ((Work.start (s.setLine n.val counted)).disableForBabble n.val).finish
      else s.setLine n.val counted) := by
  change execBabble n s = _
  have hheard : ¬(s.restarting || (s.line n.val).condition != .enabled) = true := by
    simp [State.restarting, hr, hn]
  unfold execBabble
  rw [if_neg hheard]
  dsimp only
  split <;> rfl

/-- The detection that passes the tolerance: the port is disabled, both positions are cleared, and
PORT_DISABLED comes last. -/
theorem disableForBabble_finish (s : State) {line : Nat} (h : line < 48) (l : LinePort) :
    ((Work.start (s.setLine line l)).disableForBabble line).finish
      = ([2 * line, 2 * line + 1].foldl (fun w n => w.clearPosition .babble n)
          (Work.start (s.setLine line { l with condition := .disabled .babble }))).finish.postAll
        [.portDisabled line .babble] := by
  unfold Work.finish
  rw [← State.postAll_append]
  unfold Work.disableForBabble
  simp only [Work.update, Work.start_state, State.line_setLine_same _ h, State.setLine_setLine]
  rfl

/-- Settles O28, by whether the count passes the tolerance. -/
theorem babbleCountsAndDisablesThePort : Obligations.BabbleCountsAndDisablesThePort := by
  unfold Obligations.BabbleCountsAndDisablesThePort
  refine fun s n => ⟨fun h => ?_, fun hr hn hcount => ?_, fun hr hn hcount htable => ?_⟩
  · refine if_pos ?_
    rw [Bool.or_eq_true]
    refine h.imp (fun hr => ?_) fun hn => ?_
    · exact Option.isSome_iff_ne_none.2 hr
    · exact bne_iff_ne.2 hn
  · rw [execBabble_enabled hr hn, if_neg (Nat.not_le.2 hcount)]
  · obtain ⟨hnodup, hlt, hboth⟩ := bothPositions n.isLt
    have hcleared := (clearPosition_clears .babble).retiredFrom hnodup hlt hboth (s := s)
      (t := s.setLine n.val { s.line n.val with
        babbleCount := (s.line n.val).babbleCount + 1, condition := .disabled .babble })
      (fun _ => rfl) rfl htable
    refine ⟨_, ?_, hcleared.retires.postLast _⟩
    rw [execBabble_enabled hr hn, if_pos hcount, disableForBabble_finish s n.isLt]

/-! ### SET PORT (R48, R49) -/

theorem eq_zero_or_one_of_toNat_le {b : Byte} (h : b.toNat ≤ 1) : b = 0 ∨ b = 1 := by
  rcases Nat.le_one_iff_eq_zero_or_eq_one.1 h with h | h
  · exact .inl (BitVec.eq_of_toNat_eq h)
  · exact .inr (BitVec.eq_of_toNat_eq h)

/-- The settings that SET PORT gives a line port (R48). -/
def LinePort.withSettings (old : LinePort) (en pair prec tol : Byte) : LinePort :=
  { old with
    condition := if en = 1 then .enabled else .disabled .order
    pairing := pair == 1
    defaultPrecedence := prec.toNat
    tolerance := min 7 tol.toNat
    babbleCount := if en = 1 ∧ old.condition ≠ .enabled then 0 else old.babbleCount }

theorem newLineSettings_eq (n en pair prec tol : Byte) (old : LinePort) :
    newLineSettings [n, en, pair, prec, tol] old = old.withSettings en pair prec tol := by
  simp [newLineSettings, LinePort.withSettings, flagSet, paramByte, param1, clampTo_eq]

/-- The reply's fields on the line port (R48, R176). -/
theorem lineFields_withSettings (old : LinePort) {en pair : Byte} (hen : en.toNat ≤ 1)
    (hpair : pair.toNat ≤ 1) (prec tol : Byte) :
    lineFields (old.withSettings en pair prec tol)
      = [en, if en = 1 then 0xFF else 0, pair, prec, byteOf (min 7 tol.toNat),
          byteOf (old.withSettings en pair prec tol).babbleCount,
          if old.linkUp = true then 1 else 0] := by
  obtain rfl | rfl := eq_zero_or_one_of_toNat_le hen <;>
    obtain rfl | rfl := eq_zero_or_one_of_toNat_le hpair <;>
    simp [lineFields, LinePort.withSettings, lineStateCode, lineCauseCode, disableCauseCode, yesNo]

/-- SET PORT disables an ENABLED port (R48). -/
def LinePort.disabledBy (old : LinePort) (en : Byte) : Bool := old.condition == .enabled && en == 0

/-- SET PORT turns pairing OFF on a port that is ENABLED after it (R48). -/
def LinePort.unpairedBy (old : LinePort) (en pair : Byte) : Bool :=
  en == 1 && old.pairing && pair == 0

/-- The positions that SET PORT clears (R48). -/
def LinePort.positionCleared (old : LinePort) (line : Nat) (en pair : Byte) (m : Nat) : Bool :=
  (old.disabledBy en && (m == 2 * line || m == 2 * line + 1))
    || (old.unpairedBy en pair && m == 2 * line + 1)

theorem LinePort.disabledBy_eq (old : LinePort) {en : Byte} (hen : en.toNat ≤ 1)
    (pair prec tol : Byte) :
    (old.condition == .enabled && (old.withSettings en pair prec tol).condition != .enabled)
      = old.disabledBy en := by
  obtain rfl | rfl := eq_zero_or_one_of_toNat_le hen <;> rfl

theorem clearedPositions_eq (line : Nat) (old : LinePort) {en pair : Byte} (hen : en.toNat ≤ 1)
    (hpair : pair.toNat ≤ 1) (prec tol : Byte) :
    clearedPositions line old (old.withSettings en pair prec tol)
      = [2 * line, 2 * line + 1].filter (old.positionCleared line en pair) := by
  have hunpairs : ((old.withSettings en pair prec tol).condition == .enabled && old.pairing
      && !(old.withSettings en pair prec tol).pairing) = old.unpairedBy en pair := by
    obtain rfl | rfl := eq_zero_or_one_of_toNat_le hen <;>
      obtain rfl | rfl := eq_zero_or_one_of_toNat_le hpair <;> rfl
  unfold clearedPositions LinePort.positionCleared
  rw [old.disabledBy_eq hen, hunpairs]
  cases old.disabledBy en <;> cases old.unpairedBy en pair <;> simp

theorem LinePort.mem_positionsCleared (old : LinePort) (line : Nat) (en pair : Byte) (m : Nat) :
    old.positionCleared line en pair m = true
      ↔ m ∈ [2 * line, 2 * line + 1].filter (old.positionCleared line en pair) := by
  rw [List.mem_filter]
  refine (and_iff_right_of_imp fun h => ?_).symm
  unfold LinePort.positionCleared at h
  simp only [Bool.or_eq_true, Bool.and_eq_true, beq_iff_eq] at h
  simp only [List.mem_cons, List.not_mem_nil, or_false]
  omega

/-- The work of SET PORT before PORT_DISABLED (R48). -/
def State.setPortWork (s : State) (line : Nat) (new : LinePort) (ns : List Nat) : Work :=
  ns.foldl (fun w n => w.clearPosition .portDisabled n) (Work.start (s.setLine line new))

/-- SET PORT of numbers in range: the positions are cleared in turn, and PORT_DISABLED comes last.
-/
theorem setPortSettings_inRange {params : List Byte} {s : State} {line : Nat} {new : LinePort}
    {ns : List Nat} {disables : Bool} (hline : param1 params 0 = line)
    (hnew : newLineSettings params (s.line line) = new)
    (hns : clearedPositions line (s.line line) new = ns)
    (hdisables : ((s.line line).condition == .enabled && new.condition != .enabled) = disables)
    (hin : ¬(decide (47 < line) || decide (7 < param1 params 3)) = true) :
    setPortSettings params s = .done
      (lineFields ((s.setPortWork line new ns).state.line line)
        ++ [byteOf (ns.countP fun n => (s.station n).state.admittedIdentity.isSome),
            byteOf (releasedBetween s (s.setPortWork line new ns).state)])
      { s.setPortWork line new ns with events := (s.setPortWork line new ns).events
          ++ if disables = true then [.portDisabled line .order] else [] } := by
  subst hline hnew hns hdisables
  unfold setPortSettings
  rw [if_neg hin]
  dsimp only
  split
  · rfl
  · rw [List.append_nil]
    rfl

/-- SET PORT of legal codes and numbers in range, once taken: its reply and its work. -/
theorem setPortSettings_taken {s : State} (htable : TableLaw s) (p : Port)
    {n en pair prec tol : Byte} (hn : n.toNat ≤ 47) (hprec : prec.toNat ≤ 7) (hen : en.toNat ≤ 1)
    (hpair : pair.toNat ≤ 1) :
    let old := s.line n.toNat
    let new := old.withSettings en pair prec tol
    let clears := old.positionCleared n.toNat en pair
    let leaves : Nat → Bool := fun m => clears m && (s.station m).state.admittedIdentity.isSome
    let gone : Connection → Bool := fun c => (List.range 96).any fun m => leaves m && c.fallsWith m
    let t := (s.taken p).setLine n.toNat new
    ∃ w : Work, w.RetiredFrom t
        (fun m => if clears m = true then (s.station m).cleared else s.station m) gone
        (s.withdrawalReport .portDisabled ([2 * n.toNat, 2 * n.toNat + 1].filter clears))
      ∧ setPortSettings [n, en, pair, prec, tol] (s.taken p) = .done
        [en, if en = 1 then 0xFF else 0, pair, prec, byteOf (min 7 tol.toNat),
          byteOf new.babbleCount, if old.linkUp = true then 1 else 0,
          byteOf ((List.range 96).countP leaves), byteOf (s.connections.countP gone)]
        { w with events := w.events
            ++ if old.disabledBy en = true then [.portDisabled n.toNat .order] else [] } := by
  intro old new clears leaves gone t
  have hin : ¬(decide (47 < n.toNat) || decide (7 < prec.toNat)) = true := by
    simp only [Bool.or_eq_true, decide_eq_true_eq]
    omega
  have hclears := old.mem_positionsCleared n.toNat en pair
  obtain ⟨hnodup, hlt, -⟩ := bothPositions (Nat.lt_succ_of_le hn)
  have hnodup' := hnodup.filter clears
  have hlt' : ∀ m ∈ [2 * n.toNat, 2 * n.toNat + 1].filter clears, m < 96 :=
    fun m hm => hlt m (List.mem_of_mem_filter hm)
  have hretired := (clearPosition_clears .portDisabled).retiredFrom hnodup' hlt' hclears (t := t)
    (s.taken_station p) (s.taken_connections p) htable
  have hline : ((s.taken p).setPortWork n.toNat new
      ([2 * n.toNat, 2 * n.toNat + 1].filter clears)).state.line n.toNat = new := by
    rw [State.setPortWork, hretired.only]
    exact (s.taken p).line_setLine_same (Nat.lt_succ_of_le hn) new
  have hreleased : releasedBetween (s.taken p) ((s.taken p).setPortWork n.toNat new
      ([2 * n.toNat, 2 * n.toNat + 1].filter clears)).state = s.connections.countP gone :=
    hretired.releases.releasedBetween_eq.trans (congrArg _ (s.taken_connections p))
  have hanswer := setPortSettings_inRange (params := [n, en, pair, prec, tol]) (s := s.taken p)
    (line := n.toNat) (new := new) (ns := [2 * n.toNat, 2 * n.toNat + 1].filter clears)
    (disables := old.disabledBy en) rfl
    (by rw [State.taken_line]; exact newLineSettings_eq _ _ _ _ _ _)
    (by rw [State.taken_line]; exact clearedPositions_eq _ _ hen hpair _ _)
    (by rw [State.taken_line]; exact old.disabledBy_eq hen _ _ _) hin
  refine ⟨_, hretired, hanswer.trans ?_⟩
  simp only [hline, hreleased, State.taken_station]
  rw [lineFields_withSettings old hen hpair,
    ← (countP_any_of_mem hnodup' hlt' hclears _ fun _ => true).1]
  rfl

/-- Settles O20: the positions that the settings clear, the reply, and PORT_DISABLED last. -/
theorem setPortStoresSettingsAndClearsPositions :
    Obligations.SetPortStoresSettingsAndClearsPositions := by
  unfold Obligations.SetPortStoresSettingsAndClearsPositions
  intro s p tag n en pair prec tol old disables unpairs new clears leaves gone htable hp hen hpair
    ht
  have hcodes : (isFlag en && isFlag pair) = true := by
    obtain rfl | rfl := eq_zero_or_one_of_toNat_le hen <;>
      obtain rfl | rfl := eq_zero_or_one_of_toNat_le hpair <;> rfl
  refine ⟨fun hout => ?_, fun hn hprec => ?_⟩
  · refine exec_of_answer execSetPort (fun _ => rfl) (fun _ => rfl) ht rfl rfl hcodes
      (authorityCheck_holder hp) (congrArg _ (if_pos ?_))
    rw [Bool.or_eq_true, decide_eq_true_iff, decide_eq_true_iff]
    exact hout
  · obtain ⟨w, hretired, hanswer⟩ := setPortSettings_taken htable p (tol := tol) hn hprec hen hpair
    refine ⟨_, exec_of_answer execSetPort (fun _ => rfl) (fun _ => rfl) ht rfl rfl hcodes
      (authorityCheck_holder hp) (congrArg _ hanswer), ?_⟩
    rw [State.replied_done, State.postAll_append]
    exact (hretired.append p _).retires.postLast _

/-! ### WITHDRAW, DELIVER and RELEASE LOCKOUT (R56, R68, R70) -/

theorem State.taken_identityAt_eq_none {s : State} (p : Port) {n : Nat}
    (h : ∀ i, (s.station n).state ≠ .admitted i) : (s.taken p).identityAt n = none := by
  rw [State.taken_identityAt]
  unfold State.identityAt
  split
  · cases hs : (s.station n).state with
    | admitted i => exact absurd hs (h i)
    | vacant | challenged | holdOff | locked => rfl
  · rfl

theorem State.taken_identityAt_eq_some {s : State} (p : Port) {n i : Nat}
    (h : (s.station n).state = .admitted i) : (s.taken p).identityAt n = some i := by
  have hlt : n < 96 := State.lt_of_identity (congrArg StationState.identity h)
  rw [State.taken_identityAt, State.identityAt, isStation, if_pos (decide_eq_true hlt), h]
  rfl

theorem State.taken_tableLaw {s : State} (h : TableLaw s) (p : Port) : TableLaw (s.taken p) :=
  h.of_shrinks (.of_eq (s.taken_connections p))

theorem withdrawPosition_notAdmitted {s : State} (p : Port) {n : Nat} (hn : n ≤ 95)
    (h : ∀ i, (s.station n).state ≠ .admitted i) :
    withdrawPosition n (s.taken p) = .refuse .notAdmitted [] := by
  unfold withdrawPosition
  rw [if_neg (by simpa using hn), State.taken_identityAt_eq_none p h]

theorem deliverTo_notAdmitted {s : State} (p : Port) {n : Nat} (hn : n ≤ 95)
    (h : ∀ i, (s.station n).state ≠ .admitted i) (bytes : List Byte) :
    deliverTo n bytes (s.taken p) = .refuse .notAdmitted [] := by
  unfold deliverTo
  rw [if_neg (by simpa using hn), State.taken_identityAt_eq_none p h]
  rfl

/-- WITHDRAW of an ADMITTED station, once taken: its reply and its work (R68). -/
theorem withdrawPosition_taken {s : State} (htable : TableLaw s) (p : Port) {n i : Nat}
    (hn : (s.station n).state = .admitted i) :
    ∃ w : Work, w.RetiredFrom (s.taken p)
        (fun m => if m = n then (s.station n).withdrawn else s.station m) (·.fallsWith n)
        (s.withdrawalReport .withdrawn [n])
      ∧ withdrawPosition n (s.taken p) = .done (byteOf n :: bytes2 i
        ++ [byteOf (s.connections.countP fun c => c.fallsWith n)]) w := by
  have hlt : n < 96 := State.lt_of_identity (congrArg StationState.identity hn)
  have hretired := Work.withdraw_retiredFrom (State.taken_tableLaw htable p) .withdrawn
    (n := n) (identity := i) (by rw [State.taken_station, hn])
  have hcount := hretired.releases.releasedBetween_eq
  simp only [State.taken_station, State.taken_connections] at hretired hcount
  rw [← State.withdrawalReport_singleton _ hn] at hretired
  refine ⟨_, hretired, ?_⟩
  unfold withdrawPosition
  rw [if_neg (by simpa using Nat.le_of_lt_succ hlt), State.taken_identityAt_eq_some p hn]
  dsimp only
  rw [hcount]

/-- R177: a position and 1 to 8 bytes fit DELIVER. -/
theorem lengthFits_of_message {tag n : Byte} {bytes : List Byte} (hlow : 1 ≤ bytes.length)
    (hhigh : bytes.length ≤ 8) : lengthFits (queuedOrder 0x23 tag (n :: bytes)) = true := by
  have hlengths : orderLengths 0x23 = some (2, 9) := rfl
  simp only [lengthFits, queuedOrder_code, queuedOrder_params, queuedOrder_overLength, hlengths,
    List.length_cons, Bool.and_eq_true]
  exact ⟨⟨rfl, decide_eq_true (by omega)⟩, decide_eq_true (by omega)⟩

/-- DELIVER to an ADMITTED station (R56). -/
theorem deliverTo_taken {s : State} (p : Port) {n i : Nat} (hn : (s.station n).state = .admitted i)
    (bytes : List Byte) :
    deliverTo n bytes (s.taken p) =
      if 4 ≤ (s.station n).deliver.length then .refuse .lineBusy []
      else .plain [byteOf ((s.station n).deliver.length + 1)]
        ((s.taken p).setStation n
          { s.station n with deliver := (s.station n).deliver ++ [bytes] }) := by
  have hlt : n < 96 := State.lt_of_identity (congrArg StationState.identity hn)
  unfold deliverTo
  rw [if_neg (by simpa using Nat.le_of_lt_succ hlt), State.taken_identityAt_eq_some p hn,
    State.taken_station]
  simp only [Option.isNone_some, Bool.false_eq_true, if_false, decide_eq_true_eq]
  rfl

theorem withdraw_of_takes {s : State} {p : Port} {tag n : Byte}
    (ht : s.Takes p (queuedOrder 0x22 tag [n])) (hp : s.HolderAt p) {t : State}
    (h : (s.taken p).replied p (queuedOrder 0x22 tag [n])
      (withdrawPosition n.toNat (s.taken p)) = t) :
    exec .withdraw s = .next t :=
  exec_of_answer execWithdraw (fun _ => rfl) (fun _ => rfl) ht rfl rfl rfl
    (authorityCheck_holder hp) h

theorem deliver_of_takes {s : State} {p : Port} {tag n : Byte} {bytes : List Byte}
    (hlow : 1 ≤ bytes.length) (hhigh : bytes.length ≤ 8)
    (ht : s.Takes p (queuedOrder 0x23 tag (n :: bytes))) (hp : s.HolderAt p) {t : State}
    (h : (s.taken p).replied p (queuedOrder 0x23 tag (n :: bytes))
      (deliverTo n.toNat bytes (s.taken p)) = t) :
    exec .deliver s = .next t :=
  exec_of_answer execDeliver (fun _ => rfl) (fun _ => rfl) ht rfl
    (lengthFits_of_message hlow hhigh) rfl (authorityCheck_holder hp) h

/-- Settles O21, order by order, by the position and the state of its record. -/
theorem withdrawDeliverAndReleaseLockoutActOnOneStation :
    Obligations.WithdrawDeliverAndReleaseLockoutActOnOneStation := by
  unfold Obligations.WithdrawDeliverAndReleaseLockoutActOnOneStation
  intro s p tag n st
  refine ⟨fun ht hp => ⟨fun hout => ?_, fun hn hnone => ?_, fun i hs htable => ?_⟩,
    fun bytes hlow hhigh ht hp => ⟨fun hout => ?_, fun hn hnone => ?_, fun i hs => ?_⟩,
    fun ht hp => ?_⟩
  · exact withdraw_of_takes ht hp (congrArg _ (if_pos (decide_eq_true hout)))
  · exact withdraw_of_takes ht hp (congrArg _ (withdrawPosition_notAdmitted p hn hnone))
  · obtain ⟨w, hretired, hanswer⟩ := withdrawPosition_taken htable p hs
    rw [byteOf_toNat] at hanswer
    exact ⟨_, withdraw_of_takes ht hp (congrArg _ hanswer), (hretired.append p _).retires⟩
  · exact deliver_of_takes hlow hhigh ht hp (congrArg _ (if_pos (decide_eq_true hout)))
  · exact deliver_of_takes hlow hhigh ht hp (congrArg _ (deliverTo_notAdmitted p hn hnone bytes))
  · refine deliver_of_takes hlow hhigh ht hp ?_
    rw [deliverTo_taken p hs]
    exact State.replied_ite Iff.rfl rfl fun _ => rfl
  · refine exec_of_answer execReleaseLockout (fun _ => rfl) (fun _ => rfl) ht rfl rfl rfl
      (authorityCheck_holderOrM hp) (State.replied_ite decide_eq_true_iff rfl fun _ => ?_)
    simp only [State.taken_station]
    rfl

/-! ### Message channels (R55, R57) -/

theorem Station.waiting_iff (st : Station) :
    st.waiting = true ↔ st.slot ≠ none ∨ st.deliver ≠ [] := by
  unfold Station.waiting
  cases st.slot <;> cases st.deliver <;> simp

theorem State.channelReady_iff (s : State) (n : Nat) :
    s.channelReady n = true ↔ s.restart = none ∧ (s.line n).sending = none
      ∧ (s.line n).linkUp = true ∧ (s.line n).condition = .enabled := by
  simp [State.channelReady, State.restarting, and_assoc]

/-- The position that is served: it waits, and where the other waits too, the other was served last.
-/
theorem servedSecond_eq_some {l : LinePort} {st : Bool → Station} {second : Bool}
    (hwaits : (st second).waiting = true)
    (hturn : (st !second).waiting = true → l.lastSecond = !second) :
    servedSecond l (st false) (st true) = some second := by
  unfold servedSecond
  cases second with
  | false =>
    by_cases hother : (st true).waiting = true
    · simp [hwaits, hother, hturn hother]
    · simp [hwaits, hother]
  | true =>
    by_cases hother : (st false).waiting = true
    · simp [hwaits, hother, hturn hother]
    · simp [hwaits, hother]

theorem servedSecond_eq_none {l : LinePort} {a b : Station} (ha : ¬a.waiting = true)
    (hb : ¬b.waiting = true) : servedSecond l a b = none := by
  simp [servedSecond, ha, hb]

/-- The set and the number of a position on its line port (00 section 5.4). -/
def positionOfSet (line : Nat) (second : Bool) : Nat := 2 * line + if second = true then 1 else 0

/-- A channel that may send serves one position (R57). -/
theorem execBeginSend_serves {s : State} {n : Fin 48} {second : Bool}
    (hready : s.channelReady n.val = true)
    (hwaits : (s.station (positionOfSet n.val second)).waiting = true)
    (hturn : (s.station (positionOfSet n.val !second)).waiting = true →
      (s.line n.val).lastSecond = !second) :
    exec (.beginSend n) s = .next (s.sendFrom n.val second) := by
  have hserved : servedSecond (s.line n.val) (s.station (2 * n.val)) (s.station (2 * n.val + 1))
      = some second :=
    servedSecond_eq_some (st := fun set => s.station (positionOfSet n.val set)) hwaits hturn
  change execBeginSend n s = _
  unfold execBeginSend
  rw [if_pos hready, hserved]

theorem execBeginSend_idle {s : State} {n : Fin 48}
    (h : ¬s.channelReady n.val = true ∨ (¬(s.station (positionOfSet n.val false)).waiting = true
      ∧ ¬(s.station (positionOfSet n.val true)).waiting = true)) :
    exec (.beginSend n) s = .next s := by
  change execBeginSend n s = _
  unfold execBeginSend
  by_cases hready : s.channelReady n.val = true
  · obtain ⟨hprincipal, hsecond⟩ := h.resolve_left (not_not_intro hready)
    have hserved : servedSecond (s.line n.val) (s.station (2 * n.val)) (s.station (2 * n.val + 1))
        = none := servedSecond_eq_none hprincipal hsecond
    rw [if_pos hready, hserved]
  · exact if_neg hready

theorem Station.nextMessage_of_slot {st : Station} {m : StationMessage} (h : st.slot = some m) :
    st.nextMessage = some (m, { st with slot := none }) := by
  rw [Station.nextMessage, h]

theorem Station.nextMessage_of_deliver {st : Station} {bytes : List Byte} {rest : List (List Byte)}
    (hslot : st.slot = none) (h : st.deliver = bytes :: rest) :
    st.nextMessage = some (.deliver bytes, { st with deliver := rest }) := by
  obtain ⟨state, failures, slot, deliver⟩ := st
  obtain rfl : slot = none := hslot
  obtain rfl : deliver = bytes :: rest := h
  rfl

/-- The channel begins to send the message that the position sends next (R57). -/
theorem State.sendFrom_of_nextMessage {s : State} {line : Nat} {second : Bool} {m : StationMessage}
    {rest : Station}
    (h : (s.station (positionOfSet line second)).nextMessage = some (m, rest)) :
    s.sendFrom line second = (s.setStation (positionOfSet line second) rest).setLine line
      { s.line line with
        lastSecond := second
        sending := some (stationMessageBytes second m) } := by
  unfold positionOfSet at h
  unfold State.sendFrom
  dsimp only
  rw [h]
  rfl

/-- Settles O29, by which position is served and what it sends first. -/
theorem channelsServeThePositionsInTurn : Obligations.ChannelsServeThePositionsInTurn := by
  unfold Obligations.ChannelsServeThePositionsInTurn
  intro s n l waits mine may
  have hwaits : ∀ set, (s.station (positionOfSet n.val set)).waiting = true ↔ waits (mine set) :=
    fun set => Station.waiting_iff _
  have hmay : s.channelReady n.val = true ↔ may := s.channelReady_iff n.val
  refine ⟨rfl, fun h => execBeginSend_idle ?_, fun second hready hw hturn => ?_⟩
  · rw [hmay, hwaits, hwaits]
    exact h
  · have hserves := execBeginSend_serves (hmay.2 hready) ((hwaits second).2 hw)
      fun h => hturn ((hwaits _).1 h)
    refine ⟨fun m hm => ?_, fun bytes rest hslot hdeliver => ?_⟩
    · rw [hserves, State.sendFrom_of_nextMessage (Station.nextMessage_of_slot hm)]
      rfl
    · rw [hserves,
        State.sendFrom_of_nextMessage (Station.nextMessage_of_deliver hslot hdeliver)]
      rfl

end Sys2Proof.Machine
end

section
/-! SUPPORT. The links of the line ports: their indications, and the links read afresh at the
completion of a restart, O27 and O43 (R51, R170, R172, R174). -/

namespace Sys2Proof.Machine

/-! ### One report of a link (R51) -/

theorem Work.finish_raise (w : Work) (e : Event) : (w.raise e).finish = w.finish.postAll [e] :=
  w.state.postAll_append w.events [e]

theorem Work.reportLink_recorded {w : Work} {n : Nat} {up : Bool}
    (h : (w.state.line n).linkUp = up) : w.reportLink n up = w := h ▸ w.reportLink_same n

theorem Work.reportLink_up {w : Work} {n : Nat} (h : (w.state.line n).linkUp = false) :
    w.reportLink n true
      = (w.update fun s => s.setLine n { s.line n with linkUp := true }).raise (.link n true) := by
  simp [Work.reportLink, h]

theorem Work.reportLink_down {w : Work} {n : Nat} (h : (w.state.line n).linkUp = true) :
    w.reportLink n false
      = ([2 * n, 2 * n + 1].foldl Work.loseLink (w.update fun s =>
          s.setLine n { s.line n with linkUp := false, sending := none })).raise
        (.link n false) := by
  simp [Work.reportLink, h]

/-! ### The indications (R51, R172) -/

theorem execLinkUp_eq (s : State) (n : Fin 48) :
    exec (.linkUp n) s = .next (if s.restart = none then
      ((Work.start s).reportLink n.val true).finish else s) := by
  change execLinkUp n s = _
  unfold execLinkUp State.restarting
  cases s.restart <;> rfl

theorem execLinkDown_eq (s : State) (n : Fin 48) :
    exec (.linkDown n) s = .next (if s.restart = none then
      ((Work.start s).reportLink n.val false).finish else s) := by
  change execLinkDown n s = _
  unfold execLinkDown State.restarting
  cases s.restart <;> rfl

/-- A report of the link that is recorded does nothing. -/
theorem reportLink_finish_same {s : State} {n : Nat} {up : Bool} (h : (s.line n).linkUp = up) :
    ((Work.start s).reportLink n up).finish = s :=
  congrArg Work.finish (Work.reportLink_recorded (w := Work.start s) h)

/-- Settles O27, by the recorded link and whether a restart is in progress. -/
theorem linkIndicationsFollowTheLink : Obligations.LinkIndicationsFollowTheLink := by
  unfold Obligations.LinkIndicationsFollowTheLink
  refine fun s n => ⟨fun hr => ⟨?_, ?_⟩, fun hup => ?_, fun hdown => ?_, fun hr hdown => ?_,
    fun hr hup htable => ?_⟩
  · rw [execLinkUp_eq, if_neg hr]
  · rw [execLinkDown_eq, if_neg hr]
  · rw [execLinkUp_eq, reportLink_finish_same hup, ite_self]
  · rw [execLinkDown_eq, reportLink_finish_same hdown, ite_self]
  · rw [execLinkUp_eq, if_pos hr, Work.reportLink_up hdown]
    rfl
  · obtain ⟨hnodup, hlt, hboth⟩ := bothPositions n.isLt
    have hlost := loseLink_clears.retiredFrom hnodup hlt hboth (s := s)
      (t := s.setLine n.val { s.line n.val with linkUp := false, sending := none })
      (fun _ => rfl) rfl htable
    refine ⟨_, ?_, hlost.retires.postLast _⟩
    rw [execLinkDown_eq, if_pos hr, Work.reportLink_down hup, Work.finish_raise]
    rfl

/-! ### The links of a list of line ports read afresh (R174) -/

/-- The link of a line port is found DOWN. -/
def State.losesLink (s : State) (links : List Bool) (n : Nat) : Bool :=
  (s.line n).linkUp && !links.getD n false

theorem State.losesLink_iff (s : State) (links : List Bool) (n : Nat) :
    s.losesLink links n = true ↔ (s.line n).linkUp = true ∧ links.getD n false = false := by
  simp only [State.losesLink, Bool.and_eq_true, Bool.not_eq_true']

/-- The record falls with a station of a line port whose link is found DOWN. -/
def State.fallsWithLink (s : State) (links : List Bool) (n : Nat) (c : Connection) : Bool :=
  s.losesLink links n && [2 * n, 2 * n + 1].any fun m => s.leavesWith m c

/-- The report of a list of line ports: the first one's, and then those of the others while the
records that the first one left stand. -/
theorem State.linksAmong_cons (s : State) (links : List Bool) (n : Nat) (ns : List Nat)
    (cs : List Connection) :
    s.linksAmong links (n :: ns) cs = s.linksAmong links [n] cs
      ++ s.linksAmong links ns (cs.filter fun c => !s.fallsWithLink links n c) := by
  unfold State.fallsWithLink State.losesLink
  simp only [State.linksAmong]
  cases links.getD n false <;> cases (s.line n).linkUp <;> simp [State.leavesWith]

theorem State.fallsWithLink_congr {s t : State} (links : List Bool) {n : Nat}
    (hline : (t.line n).linkUp = (s.line n).linkUp)
    (hstation : ∀ m ∈ [2 * n, 2 * n + 1], (t.station m).state = (s.station m).state) :
    t.fallsWithLink links n = s.fallsWithLink links n := by
  funext c
  simp only [State.fallsWithLink, State.losesLink, State.leavesWith, List.any_cons, List.any_nil,
    hline, hstation (2 * n) (by simp), hstation (2 * n + 1) (by simp)]

/-- The reports of links read the links recorded and the states of the stations alone. -/
theorem State.linksAmong_congr {s t : State} (links : List Bool) {ns : List Nat}
    (hline : ∀ n ∈ ns, (t.line n).linkUp = (s.line n).linkUp)
    (hstation : ∀ n ∈ ns, ∀ m ∈ [2 * n, 2 * n + 1], (t.station m).state = (s.station m).state)
    (cs : List Connection) : t.linksAmong links ns cs = s.linksAmong links ns cs := by
  induction ns generalizing cs with
  | nil => rfl
  | cons n ns ih =>
    have ih := ih (fun m hm => hline m (List.mem_cons_of_mem n hm))
      fun m hm => hstation m (List.mem_cons_of_mem n hm)
    have hn := hstation n List.mem_cons_self
    have hfalls := State.fallsWithLink_congr links (hline n List.mem_cons_self) hn
    rw [State.linksAmong_cons, s.linksAmong_cons links n ns, ih, hfalls]
    simp only [State.linksAmong, hline n List.mem_cons_self, State.withdrawalsAmong_congr _ hn]

/-- What one report of a link does: both positions of a port whose link is found DOWN lose it, their
ADMITTED stations are withdrawn, and LINK comes last (R51). -/
theorem Work.reportLink_continues {w : Work} (ht : TableLaw w.state) {n : Nat} (hn : n < 48)
    (links : List Bool) :
    (∀ m, (w.reportLink n (links.getD n false)).state.station m =
        if m / 2 = n ∧ w.state.losesLink links n = true then (w.state.station m).lost
        else w.state.station m)
      ∧ w.Continues (w.reportLink n (links.getD n false)) (w.state.fallsWithLink links n)
        (w.state.linksAmong links [n] w.state.connections) := by
  have hrefl := Work.Continues.refl w
  unfold State.fallsWithLink State.losesLink
  simp only [State.linksAmong]
  cases hup : (w.state.line n).linkUp <;> cases links.getD n false
  case false.false | true.true =>
    rw [Work.reportLink_recorded hup]
    exact ⟨fun m => by simp, hrefl.congr (by simp) rfl⟩
  case false.true =>
    rw [Work.reportLink_up hup]
    refine ⟨fun m => by simp, ?_⟩
    exact ((hrefl.setLine n _).raise rfl).congr (by simp) rfl
  case true.false =>
    obtain ⟨hnodup, hlt, -⟩ := bothPositions hn
    obtain ⟨hstation, -, hlost⟩ := loseLink_clears.foldl hnodup hlt (w := w.update fun s =>
      s.setLine n { s.line n with linkUp := false, sending := none }) ht
    have hboth : ∀ m, m ∈ [2 * n, 2 * n + 1] ↔ m / 2 = n := fun m => by
      simp only [List.mem_cons, List.not_mem_nil, or_false]
      omega
    have hreport := State.withdrawalsAmong_congr (s := w.state) (t := w.state.setLine n
      { w.state.line n with linkUp := false, sending := none }) .linkLost (ns := [2 * n, 2 * n + 1])
      (fun _ _ => rfl) w.state.connections
    rw [Work.reportLink_down hup]
    refine ⟨fun m => ?_, ((hrefl.setLine n _).trans hlost |>.raise rfl).congr (fun c => ?_) ?_⟩
    · rw [Work.raise_state, hstation]
      simp only [hboth, Work.update_state, State.setLine_station, Bool.not_false, Bool.and_true,
        and_true]
    · rfl
    · simp [State.withdrawalReport, hreport]

/-- What the reports of a list of line ports do, ports in turn. -/
theorem Work.foldl_reportLink {links : List Bool} {ns : List Nat} (hnodup : ns.Nodup)
    (hlt : ∀ n ∈ ns, n < 48) {w : Work} (ht : TableLaw w.state) :
    (∀ m, (ns.foldl (fun w n => w.reportLink n (links.getD n false)) w).state.line m =
        if m ∈ ns then
          { w.state.line m with
            linkUp := links.getD m false
            sending := if w.state.losesLink links m = true then none else (w.state.line m).sending }
        else w.state.line m)
      ∧ (∀ m, (ns.foldl (fun w n => w.reportLink n (links.getD n false)) w).state.station m =
        if m / 2 ∈ ns ∧ w.state.losesLink links (m / 2) = true then (w.state.station m).lost
        else w.state.station m)
      ∧ w.Continues (ns.foldl (fun w n => w.reportLink n (links.getD n false)) w)
        (fun c => ns.any fun n => w.state.fallsWithLink links n c)
        (w.state.linksAmong links ns w.state.connections) := by
  induction ns generalizing w with
  | nil => exact ⟨fun m => by simp, fun m => by simp, .refl w⟩
  | cons n ns ih =>
    obtain ⟨hnot, hnodup⟩ := List.nodup_cons.1 hnodup
    have hn := hlt n List.mem_cons_self
    have hfirst := w.reportLink_line hn (links.getD n false)
    obtain ⟨hone, hcontinues⟩ := Work.reportLink_continues ht hn links
    obtain ⟨hline, hstation, hothers⟩ := ih hnodup (fun m hm => hlt m (List.mem_cons_of_mem n hm))
      (hcontinues.releases.tableLaw ht)
    have hne : ∀ m ∈ ns, m ≠ n := fun m hm hmn => hnot (hmn ▸ hm)
    have hsameLine : ∀ m ∈ ns, (w.reportLink n (links.getD n false)).state.line m
        = w.state.line m := fun m hm => by rw [hfirst, if_neg (hne m hm)]
    have hsameStation : ∀ m, m / 2 ∈ ns → (w.reportLink n (links.getD n false)).state.station m
        = w.state.station m := fun m hm => by rw [hone, if_neg fun h => hne _ hm h.1]
    have hloses : ∀ m ∈ ns, (w.reportLink n (links.getD n false)).state.losesLink links m
        = w.state.losesLink links m := fun m hm => by
      rw [State.losesLink, State.losesLink, hsameLine m hm]
    have hsameStates : ∀ m ∈ ns, ∀ k ∈ [2 * m, 2 * m + 1],
        ((w.reportLink n (links.getD n false)).state.station k).state
          = (w.state.station k).state := fun m hm k hk => by
      have hhalf : k / 2 = m := by
        simp only [List.mem_cons, List.not_mem_nil, or_false] at hk
        omega
      rw [hsameStation k (by rw [hhalf]; exact hm)]
    refine ⟨fun m => ?_, fun m => ?_, (hcontinues.trans hothers).congr (fun c => ?_) ?_⟩
    · rw [List.foldl_cons, hline]
      by_cases hm : m ∈ ns
      · rw [if_pos hm, if_pos (List.mem_cons_of_mem n hm), hsameLine m hm, hloses m hm]
      · rw [if_neg hm, hfirst]
        by_cases hmn : m = n
        · subst hmn
          rw [if_pos rfl, if_pos List.mem_cons_self,
            if_congr (w.state.losesLink_iff links m) rfl rfl]
        · rw [if_neg hmn, if_neg (by simp [hmn, hm])]
    · rw [List.foldl_cons, hstation]
      by_cases hm : m / 2 ∈ ns
      · rw [hsameStation m hm, hloses _ hm]
        simp [hm]
      · rw [if_neg fun h => hm h.1, hone]
        by_cases hmn : m / 2 = n
        · simp [hmn]
        · simp [hmn, hm]
    · rw [List.any_cons]
      congr 1
      rw [Bool.eq_iff_iff, List.any_eq_true, List.any_eq_true]
      refine exists_congr fun m => and_congr_right fun hm => ?_
      rw [State.fallsWithLink_congr links (by rw [hsameLine m hm]) (hsameStates m hm)]
    · obtain ⟨hconn, -⟩ := hcontinues.releases
      rw [w.state.linksAmong_cons links n ns, hconn]
      exact congrArg (_ ++ ·) (State.linksAmong_congr links (fun m hm => by rw [hsameLine m hm])
        hsameStates _)

/-! ### The completion of a restart (R170, R174) -/

/-- The links are read afresh, one for each line port. -/
theorem Work.rereadLinks_eq (w : Work) {links : List Bool} (hlength : links.length = 48) :
    w.rereadLinks links
      = (List.range 48).foldl (fun w n => w.reportLink n (links.getD n false)) w := by
  refine List.foldl_ext _ _ w fun w n hn => ?_
  have hlt : n < links.length := hlength ▸ List.mem_range.1 hn
  rw [List.getD_eq_getElem _ _ hlt, List.getD_eq_getElem _ _ hlt]

/-- Links that are found as they are recorded are not reported (R51). -/
theorem Work.rereadLinks_recorded {w : Work} {links : List Bool} (hlength : links.length = 48)
    (h : ∀ n, n < 48 → (w.state.line n).linkUp = links.getD n false) : w.rereadLinks links = w := by
  rw [w.rereadLinks_eq hlength]
  have hlt : ∀ n ∈ List.range 48, n < 48 := fun n hn => List.mem_range.1 hn
  generalize List.range 48 = ns at hlt
  induction ns with
  | nil => rfl
  | cons n ns ih =>
    rw [List.foldl_cons, Work.reportLink_recorded (h n (hlt n List.mem_cons_self))]
    exact ih fun m hm => hlt m (List.mem_cons_of_mem n hm)

/-- What the links read afresh do to every table (R51, R174). -/
theorem Work.rereadLinks_continues {w : Work} (ht : TableLaw w.state) {links : List Bool}
    (hlength : links.length = 48) :
    (∀ n, n < 48 → (w.rereadLinks links).state.line n =
        { w.state.line n with
          linkUp := links.getD n false
          sending := if w.state.losesLink links n = true then none else (w.state.line n).sending })
      ∧ (∀ m, m < 96 → (w.rereadLinks links).state.station m =
        if w.state.losesLink links (m / 2) = true then (w.state.station m).lost
        else w.state.station m)
      ∧ w.Continues (w.rereadLinks links)
        (fun c => (List.range 96).any fun m =>
          w.state.losesLink links (m / 2) && w.state.leavesWith m c)
        (w.state.linkReport links) := by
  obtain ⟨hline, hstation, hcontinues⟩ := Work.foldl_reportLink (links := links) List.nodup_range
    (fun n hn => List.mem_range.1 hn) ht
  rw [w.rereadLinks_eq hlength]
  refine ⟨fun n hn => ?_, fun m hm => ?_, hcontinues.congr (fun c => ?_) rfl⟩
  · rw [hline, if_pos (List.mem_range.2 hn)]
  · have hmem : m / 2 ∈ List.range 48 := List.mem_range.2 (by omega)
    rw [hstation]
    simp only [hmem, true_and]
  · rw [Bool.eq_iff_iff, List.any_eq_true, List.any_eq_true]
    simp only [State.fallsWithLink, Bool.and_eq_true, List.any_eq_true, List.mem_range]
    constructor
    · rintro ⟨n, hn, hloses, m, hm, hleaves⟩
      have hhalf : m / 2 = n ∧ m < 96 := by
        simp only [List.mem_cons, List.not_mem_nil, or_false] at hm
        omega
      exact ⟨m, hhalf.2, hhalf.1 ▸ hloses, hleaves⟩
    · rintro ⟨m, hm, hloses, hleaves⟩
      refine ⟨m / 2, by omega, hloses, m, ?_, hleaves⟩
      simp only [List.mem_cons, List.not_mem_nil, or_false]
      omega

/-- Events posted after work on links: nothing else has changed. -/
theorem OnlyLinks.postAll {s t : State} (h : OnlyLinks s t) (es : List Event) :
    t.postAll es = { s with
      portA := (t.postAll es).portA, portB := (t.postAll es).portB, portM := (t.postAll es).portM
      lines := (t.postAll es).lines, connections := (t.postAll es).connections
      legs := (t.postAll es).legs, keys := (t.postAll es).keys, groups := (t.postAll es).groups
      watches := (t.postAll es).watches, stations := (t.postAll es).stations } := by
  conv_lhs => rw [State.postAll_onlyPorts t es]
  conv_lhs => rw [h]
  simp only [State.postAll_lines, State.postAll_connections, State.postAll_legs, State.postAll_keys,
    State.postAll_groups, State.postAll_watches, State.postAll_stations]
  rw [← h]

/-- Withdrawals and links are reported to Ports A and B alone (R10). -/
theorem State.not_portM_of_mem_withdrawalsAmong {s : State} {r : ReleaseReason} {ns : List Nat}
    {cs : List Connection} {e : Event} (he : e ∈ s.withdrawalsAmong r ns cs) :
    Port.m ∉ destinations e := by
  induction ns generalizing cs with
  | nil => cases he
  | cons n ns ih =>
    unfold State.withdrawalsAmong at he
    split at he
    · rcases List.mem_append.1 he with he | he
      · obtain ⟨c, -, rfl⟩ := List.mem_map.1 he
        simp [destinations]
      · rcases List.mem_cons.1 he with rfl | he
        · simp [destinations]
        · exact ih he
    · exact ih he

theorem State.not_portM_of_mem_linksAmong {s : State} {links : List Bool} {ns : List Nat}
    {cs : List Connection} {e : Event} (he : e ∈ s.linksAmong links ns cs) :
    Port.m ∉ destinations e := by
  induction ns generalizing cs with
  | nil => cases he
  | cons n ns ih =>
    unfold State.linksAmong at he
    split at he
    · exact ih he
    · split at he
      · rcases List.mem_cons.1 he with rfl | he
        · simp [destinations]
        · exact ih he
      · rcases List.mem_append.1 he with he | he
        · exact State.not_portM_of_mem_withdrawalsAmong he
        · rcases List.mem_cons.1 he with rfl | he
          · simp [destinations]
          · exact ih he

/-- CONGESTION goes to Ports A and B alone too (R10). -/
theorem not_portM_of_beside {es : List Event}
    (h : ∀ e ∈ besideCongestion es, Port.m ∉ destinations e) :
    ∀ e ∈ es, Port.m ∉ destinations e := by
  intro e he
  cases e with
  | congestion => simp [destinations]
  | _ => exact h _ (List.mem_filter.2 ⟨he, rfl⟩)

theorem State.postAll_port_of_no_destination (s : State) {es : List Event} {p : Port}
    (h : ∀ e ∈ es, p ∉ destinations e) : (s.postAll es).port p = s.port p := by
  unfold State.postAll
  induction es generalizing s with
  | nil => rfl
  | cons e es ih =>
    rw [List.foldl_cons, ih _ fun f hf => h f (List.mem_cons_of_mem e hf), State.post_port,
      if_neg (h e List.mem_cons_self)]

theorem execRestartComplete_of_restarting {s : State} {mode : RestartMode}
    (hr : s.restart = some mode) (hpin : s.resetPin = false) (links : List Bool) :
    exec (.restartComplete links) s
      = .next ((Work.start (s.endRestart mode)).rereadLinks links).finish := by
  change execRestartComplete links s = _
  rw [execRestartComplete, hr, hpin]
  rfl

theorem execRestartComplete_idle {s : State} (h : s.restart = none ∨ s.resetPin = true)
    (links : List Bool) : exec (.restartComplete links) s = .next s := by
  change execRestartComplete links s = _
  unfold execRestartComplete
  cases hr : s.restart with
  | none => rfl
  | some mode =>
    have hpin : s.resetPin = true := h.resolve_left (by rw [hr]; nofun)
    simp only [hpin, if_true]

/-- RESTARTED stands alone in every out queue, and the port is otherwise what it was (R174). -/
theorem State.endRestart_port {s : State} (hs : QueueLaw s) {mode : RestartMode}
    (hr : s.restart = some mode) (q : Port) :
    (s.endRestart mode).port q = { s.port q with out := [.event (.restarted mode)] } := by
  have hempty : (s.port q).out = [] := (hs.queues_empty (by rw [hr]; rfl) q).2
  have happended : (s.endRestart mode).port q
      = { s.port q with out := (s.port q).out ++ [.event (.restarted mode)] } := by cases q <;> rfl
  rw [happended, hempty]
  rfl

/-- Work on links alone: its events are posted to the ports as they were. -/
theorem OnlyLinks.finish_port {s : State} {w : Work} (h : OnlyLinks s w.state) (q : Port) :
    w.finish.port q = (s.postAll w.events).port q := by
  refine State.postAll_port_congr ?_ (fun p => ?_) _ q
  · rw [h]
  · rw [h]
    cases p <;> rfl

/-- What a release reads does not show the ports and the restart. -/
theorem Work.Continues.of_endRestart {s : State} {mode : RestartMode} {w : Work}
    {gone : Connection → Bool} {report : List Event}
    (h : (Work.start (s.endRestart mode)).Continues w gone report) :
    (Work.start s).Continues w gone report :=
  ⟨h.slot, h.releases, h.beside, h.congestions⟩

theorem State.endRestart_linkReport (s : State) (mode : RestartMode) (links : List Bool) :
    (s.endRestart mode).linkReport links = s.linkReport links := by
  have hconn : (s.endRestart mode).connections = s.connections := rfl
  unfold State.linkReport
  rw [hconn]
  exact State.linksAmong_congr (s := s) (t := s.endRestart mode) links (fun _ _ => rfl)
    (fun _ _ _ _ => rfl) _

/-- The work of the completion of a restart (R174): what it changes, the line ports and the stations
after it, the records released and the reports. -/
theorem State.exists_completeWork {s : State} (ht : TableLaw s) {mode : RestartMode}
    (hr : s.restart = some mode) (hpin : s.resetPin = false) {links : List Bool}
    (hlength : links.length = 48) :
    ∃ w : Work, exec (.restartComplete links) s = .next w.finish
      ∧ OnlyLinks (s.endRestart mode) w.state
      ∧ (∀ n, n < 48 → w.state.line n =
        { s.line n with
          linkUp := links.getD n false
          sending := if s.losesLink links n = true then none else (s.line n).sending })
      ∧ (∀ m, m < 96 → w.state.station m =
        if s.losesLink links (m / 2) = true then (s.station m).lost else s.station m)
      ∧ (Work.start s).Continues w
        (fun c => (List.range 96).any fun m => s.losesLink links (m / 2) && s.leavesWith m c)
        (s.linkReport links)
      ∧ ((∀ n, n < 48 → (s.line n).linkUp = links.getD n false) →
        w = Work.start (s.endRestart mode)) := by
  have htable : TableLaw (Work.start (s.endRestart mode)).state := ht
  obtain ⟨hline, hstation, hcontinues⟩ := Work.rereadLinks_continues htable hlength
  have honly := (Work.start (s.endRestart mode)).rereadLinks_onlyLinks links
  have hrecorded := Work.rereadLinks_recorded (w := Work.start (s.endRestart mode)) hlength
  have hexec := execRestartComplete_of_restarting hr hpin links
  generalize (Work.start (s.endRestart mode)).rereadLinks links = w at *
  rw [Work.start_state, State.endRestart_linkReport] at hcontinues
  exact ⟨w, hexec, honly, hline, hstation, hcontinues.of_endRestart, hrecorded⟩

/-- The out queues after the completion: RESTARTED first, and alone on Port M (R10, R174). -/
theorem State.postAll_endRestart_out {s : State} (hs : QueueLaw s) {mode : RestartMode}
    (hr : s.restart = some mode) {events : List Event} {links : List Bool}
    (hbeside : besideCongestion events = s.linkReport links) (q : Port) :
    ∃ es : List Event,
      (((s.endRestart mode).postAll events).port q).out
          = .event (.restarted mode) :: es.map .event
        ∧ (q = .m → es = []
          ∧ (((s.endRestart mode).postAll events).port q).missed = (s.port q).missed) := by
  by_cases hq : q = .m
  · subst hq
    have hnone := not_portM_of_beside (es := events) fun e he => by
      rw [hbeside] at he
      exact State.not_portM_of_mem_linksAmong he
    rw [State.postAll_port_of_no_destination _ hnone, State.endRestart_port hs hr]
    exact ⟨[], rfl, fun _ => ⟨rfl, rfl⟩⟩
  · obtain ⟨es, hes⟩ := (s.endRestart mode).postAll_port_out events q
    rw [State.endRestart_port hs hr] at hes
    exact ⟨es, hes, fun h => absurd h hq⟩

/-- Settles O43: RESTARTED is placed, and the links are read afresh. -/
theorem restartCompletionPlacesRestartedFirst :
    Obligations.RestartCompletionPlacesRestartedFirst := by
  unfold Obligations.RestartCompletionPlacesRestartedFirst
  refine fun s links => ⟨fun hpin => ⟨if_pos hpin, execRestartComplete_idle (.inr hpin) links⟩,
    fun hpin => if_neg (by simp [hpin]), fun hr => execRestartComplete_idle (.inl hr) links,
    fun mode hr hpin hqueues htable hlength => ?_⟩
  intro began
  obtain ⟨w, hexec, honly, hline, hstation, hcontinues, hrecorded⟩ :=
    State.exists_completeWork htable hr hpin hlength
  have hframe := honly.postAll w.events
  have hport : ∀ q, w.finish.port q = (began.postAll w.events).port q := honly.finish_port
  refine ⟨w.finish, hexec, ?_, fun q => ?_, ⟨w.events, hport, hcontinues.beside, fun hg hc g => ?_⟩,
    fun n hn => ?_, fun n hn h => ?_, fun m hm => ?_, ?_, hframe, fun hsame => ?_⟩
  · exact congrArg State.restart hframe
  · rw [hport]
    exact State.postAll_endRestart_out hqueues hr hcontinues.beside q
  · rw [Work.finish, State.postAll_group]
    exact hcontinues.congestions hg hc g
  · rw [Work.finish, State.postAll_line, hline n hn]
  · have hkept : ¬s.losesLink links n = true := by
      rw [State.losesLink_iff]
      rintro ⟨hup, hdown⟩
      rcases h with h | h
      · rw [hdown] at h
        cases h
      · rw [hup] at h
        cases h
    rw [Work.finish, State.postAll_line, hline n hn, if_neg hkept]
  · rw [Work.finish, State.postAll_station, hstation m hm]
    exact if_congr (s.losesLink_iff links _) rfl rfl
  · have hreleases := hcontinues.releases.postAll w.events
    simp only [State.losesLink, State.leavesWith, ← Bool.and_assoc] at hreleases
    exact hreleases
  · rw [hrecorded hsame]
    rfl

end Sys2Proof.Machine
end

section
/-! SUPPORT. What every step keeps, for a property that reads the tables of calls: when it stands under
releases, most commands keep it, and what is left to judge are the commands that write those tables in
another way (R8, R49 to R51, R67, R148 to R156). -/

namespace Sys2Proof.Machine

/-! ### The tables of calls stand -/

/-- t has the connection table, the trunk slots and groups, the key contexts, the legs and the watches
of s. -/
structure SameCalls (s t : State) : Prop where
  connections : t.connections = s.connections
  slots : t.slots = s.slots
  groups : t.groups = s.groups
  keys : t.keys = s.keys
  legs : t.legs = s.legs
  watches : t.watches = s.watches

theorem OnlyPorts.sameCalls {s t : State} (h : OnlyPorts s t) : SameCalls s t := by
  unfold OnlyPorts at h
  rw [h]
  exact ⟨rfl, rfl, rfl, rfl, rfl, rfl⟩

theorem State.taken_sameCalls (s : State) (p : Port) : SameCalls s (s.taken p) := by
  rw [State.taken_eq]
  exact ⟨rfl, rfl, rfl, rfl, rfl, rfl⟩

theorem State.setStation_sameCalls (s : State) (n : Nat) (v : Station) :
    SameCalls s (s.setStation n v) := ⟨rfl, rfl, rfl, rfl, rfl, rfl⟩

theorem State.setLine_sameCalls (s : State) (n : Nat) (v : LinePort) :
    SameCalls s (s.setLine n v) := ⟨rfl, rfl, rfl, rfl, rfl, rfl⟩

/-- A counted failure is the position's own (R59). -/
theorem Work.countFailure_sameCalls (w : Work) (n identity : Nat) (r : RefusalReason) :
    SameCalls w.state (w.countFailure n identity r).state := by
  unfold Work.countFailure
  dsimp only
  split <;> exact ⟨rfl, rfl, rfl, rfl, rfl, rfl⟩

/-- An abandonment is the position's own (R65). -/
theorem Work.abandon_sameCalls (w : Work) (r : RefusalReason) (n : Nat) :
    SameCalls w.state (w.abandon r n).state := by
  unfold Work.abandon
  split <;> exact ⟨rfl, rfl, rfl, rfl, rfl, rfl⟩

/-- A challenge is the position's own, beside the challenge sequence (R60). -/
theorem Work.issueChallenge_sameCalls (w : Work) (n identity : Nat) (e : DirectoryEntry) :
    SameCalls w.state (w.issueChallenge n identity e).state := by
  obtain ⟨_, _, _, _, h⟩ := w.issueChallenge_state n identity e
  rw [h]
  exact ⟨rfl, rfl, rfl, rfl, rfl, rfl⟩

theorem State.keepTables_sameCalls (s : State) (cause : RestartCause) :
    SameCalls s (s.keepTables cause) := ⟨rfl, rfl, rfl, rfl, rfl, rfl⟩

theorem State.sendFrom_sameCalls (s : State) (n : Nat) (second : Bool) :
    SameCalls s (s.sendFrom n second) := by
  unfold State.sendFrom
  dsimp only
  split <;> exact ⟨rfl, rfl, rfl, rfl, rfl, rfl⟩

/-- In a table in order, the release of one record is that of its id. -/
theorem Work.releaseWhere_id {w : Work} (ht : TableLaw w.state) {c : Connection}
    (hc : c ∈ w.state.connections) (reason : Option ReleaseReason) :
    w.releaseWhere reason (fun d => d.id == c.id) = w.release reason c := by
  obtain ⟨hids, -, -⟩ := ht
  have hone : w.state.connections.filter (fun d => d.id == c.id) = [c] := by
    have hsame : ∀ d ∈ w.state.connections, (d.id == c.id) = (d == c) := fun d hd => by
      rw [Bool.eq_iff_iff, beq_iff_eq, beq_iff_eq]
      exact ⟨eq_of_id_eq hids hd hc, congrArg _⟩
    have hnodup : w.state.connections.Nodup := hids.imp fun hlt heq => hlt.ne (congrArg _ heq)
    rw [List.filter_congr hsame, List.filter_beq, List.count_eq_one_of_mem hnodup hc]
    rfl
  unfold Work.releaseWhere
  rw [hone]
  rfl

/-! ### A property that stands under releases -/

/-- A property that reads the tables of calls alone, holds of tables in order, and stands when a
selection of records goes through the release procedure. -/
structure KeptByReleases (I : State → Prop) : Prop where
  stand : ∀ {s t}, SameCalls s t → I s → I t
  tableLaw : ∀ {s}, I s → TableLaw s
  releaseWhere : ∀ {w : Work} (reason : Option ReleaseReason) (gone : Connection → Bool),
    I w.state → I (w.releaseWhere reason gone).state

namespace KeptByReleases

variable {I : State → Prop}

theorem finish (hI : KeptByReleases I) {w : Work} (h : I w.state) : I w.finish :=
  hI.stand w.finish_onlyPorts.sameCalls h

theorem setStation (hI : KeptByReleases I) {s : State} (n : Nat) (v : Station) (h : I s) :
    I (s.setStation n v) := hI.stand (s.setStation_sameCalls n v) h

theorem setLine (hI : KeptByReleases I) {s : State} (n : Nat) (v : LinePort) (h : I s) :
    I (s.setLine n v) := hI.stand (s.setLine_sameCalls n v) h

theorem setPort (hI : KeptByReleases I) {s : State} (p : Port) (v : PortState) (h : I s) :
    I (s.setPort p v) := hI.stand (s.setPort_onlyPorts p v).sameCalls h

/-- The release of one record of the table (R148). -/
theorem release (hI : KeptByReleases I) {w : Work} (reason : Option ReleaseReason) {c : Connection}
    (hc : c ∈ w.state.connections) (h : I w.state) : I (w.release reason c).state := by
  rw [← Work.releaseWhere_id (hI.tableLaw h) hc]
  exact hI.releaseWhere _ _ h

/-! ### Stations leave their states -/

/-- A withdrawal (R67). -/
theorem withdraw (hI : KeptByReleases I) {w : Work} (r : ReleaseReason) (n : Nat) (h : I w.state) :
    I (w.withdraw r n).state := by
  unfold Work.withdraw
  split
  · exact hI.releaseWhere _ _ (hI.setStation n _ h)
  · exact h

/-- The clearing of a position (R49). -/
theorem clearPosition (hI : KeptByReleases I) {w : Work} (r : ReleaseReason) (n : Nat)
    (h : I w.state) : I (w.clearPosition r n).state := by
  unfold Work.clearPosition
  refine hI.setStation n _ ?_
  split
  · exact hI.withdraw r n h
  · exact hI.setStation n _ h
  · exact hI.setStation n _ h
  · exact h
  · exact h

theorem clearPositions (hI : KeptByReleases I) {w : Work} (r : ReleaseReason) (ns : List Nat)
    (h : I w.state) : I (ns.foldl (fun w n => w.clearPosition r n) w).state := by
  induction ns generalizing w with
  | nil => exact h
  | cons n ns ih => exact ih (hI.clearPosition r n h)

/-- The loss of the link at a position (R51). -/
theorem loseLink (hI : KeptByReleases I) {w : Work} (n : Nat) (h : I w.state) :
    I (w.loseLink n).state := by
  unfold Work.loseLink
  refine hI.setStation n _ ?_
  split
  · exact hI.withdraw _ n h
  · exact hI.setStation n _ h
  all_goals exact h

/-- A report of a link (R51). -/
theorem reportLink (hI : KeptByReleases I) {w : Work} (n : Nat) (up : Bool) (h : I w.state) :
    I (w.reportLink n up).state := by
  unfold Work.reportLink
  split
  · exact h
  · split
    · exact hI.setLine n _ h
    · exact hI.loseLink _ (hI.loseLink _ (hI.setLine n _ h))

theorem rereadLinks (hI : KeptByReleases I) {w : Work} (links : List Bool) (h : I w.state) :
    I (w.rereadLinks links).state := by
  unfold Work.rereadLinks
  generalize List.range 48 = ns
  induction ns generalizing w with
  | nil => exact h
  | cons n ns ih => exact ih (hI.reportLink n _ h)

/-- The port that babbles (R50). -/
theorem disableForBabble (hI : KeptByReleases I) {w : Work} (n : Nat) (h : I w.state) :
    I (w.disableForBabble n).state :=
  hI.clearPosition _ _ (hI.clearPosition _ _ (hI.setLine n _ h))

/-- The challenges of an identity that are abandoned (R65). -/
theorem abandonIdentity (hI : KeptByReleases I) {w : Work} (r : RefusalReason) (identity : Nat)
    (selects : Nat → Bool) (h : I w.state) : I (w.abandonIdentity r identity selects).state := by
  unfold Work.abandonIdentity
  generalize w.state.challengedPositions identity selects = ns
  induction ns generalizing w with
  | nil => exact h
  | cons n ns ih => exact ih (hI.stand (w.abandon_sameCalls r n) h)

/-- The requests of REMOVE and SUSPEND (R33, R35). -/
theorem retireIdentity (hI : KeptByReleases I) {w : Work} (r : ReleaseReason) (identity : Nat)
    (h : I w.state) : I (w.retireIdentity r identity).state := by
  refine hI.abandonIdentity _ _ _ ?_
  unfold Work.withdrawIdentity
  split
  · exact hI.withdraw r _ h
  · exact h

/-- The first two requests of AMEND (R38). -/
theorem applyHomePorts (hI : KeptByReleases I) {w : Work} (e : DirectoryEntry) (h : I w.state) :
    I (w.applyHomePorts e).state := by
  unfold Work.applyHomePorts
  refine hI.abandonIdentity _ _ _ ?_
  split
  · split
    · exact hI.withdraw _ _ h
    · exact h
  · exact h

/-- The third request of AMEND (R38, R156). -/
theorem judgeClass (hI : KeptByReleases I) {w : Work} (e : DirectoryEntry) (h : I w.state) :
    I (w.judgeClass e).state := by
  unfold Work.judgeClass
  split
  · exact hI.releaseWhere _ _ h
  · exact h

/-! ### The messages of stations -/

theorem judgeRegister (hI : KeptByReleases I) {w : Work} (n identity : Nat) (h : I w.state) :
    I (w.judgeRegister n identity).state := by
  have hfails : ∀ r, I (w.countFailure n identity r).state := fun r =>
    hI.stand (w.countFailure_sameCalls n identity r) h
  unfold Work.judgeRegister
  split
  · exact hfails _
  · split
    · exact hfails _
    · split
      · exact hfails _
      · exact hI.stand (w.issueChallenge_sameCalls n identity _) h

/-- A REGISTER, as the position's record takes it (R58). -/
theorem takeRegister (hI : KeptByReleases I) {w : Work} (n identity : Nat) (h : I w.state) :
    I (w.takeRegister n identity).state := by
  unfold Work.takeRegister
  split
  · exact hI.judgeRegister n identity h
  · exact hI.judgeRegister n identity (hI.withdraw _ n h)
  all_goals exact h

/-- An ANSWER, as the position's record takes it (R61, R62). -/
theorem takeAnswer (hI : KeptByReleases I) {w : Work} (n : Nat) (response : Word16)
    (h : I w.state) : I (w.takeAnswer n response).state := by
  unfold Work.takeAnswer
  split
  · rename_i identity _ _ _ _
    split
    · rw [Work.admitStation_state]
      refine hI.setStation n _ (hI.setStation n _ ?_)
      unfold Work.relocate
      split
      · exact hI.withdraw _ _ h
      · exact h
    · exact hI.stand (w.countFailure_sameCalls n identity _) h
  all_goals exact h

/-- A LEAVE, as the position's record takes it (R64, R66). -/
theorem takeLeave (hI : KeptByReleases I) {w : Work} (n : Nat) (h : I w.state) :
    I (w.takeLeave n).state := by
  unfold Work.takeLeave
  split
  · exact hI.withdraw _ n h
  · exact hI.setStation n _ h
  all_goals exact h

/-! ### Restarts -/

/-- A call-keeping restart discards the PENDING records through the release procedure (R109). -/
theorem startKeep (hI : KeptByReleases I) {s : State} (cause : RestartCause) (h : I s) :
    I (s.startKeep cause) :=
  hI.finish (hI.releaseWhere (w := Work.start (s.keepTables cause)) none _
    (hI.stand (s.keepTables_sameCalls cause) h))

theorem endRestart (hI : KeptByReleases I) {s : State} (mode : RestartMode) (h : I s) :
    I (s.endRestart mode) := by
  have hended : I { s with restart := none } := hI.stand (s := s) ⟨rfl, rfl, rfl, rfl, rfl, rfl⟩ h
  exact hI.stand (((State.append_onlyPorts _ _ _).trans (State.append_onlyPorts _ _ _)).trans
    (State.append_onlyPorts _ _ _)).sameCalls hended

/-! ### The take of a row keeps what its own answer keeps -/

/-- What is done for an order: refusals and replies write no table of calls (R8). -/
theorem replied (hI : KeptByReleases I) {s : State} (hs : I s) (p : Port) (o : OrderRecord)
    {a : Answer} (ha : a.Leaves I) : I (s.replied p o a) := by
  cases a with
  | refuse outcome fields => exact hI.setPort _ _ hs
  | done fields w =>
    exact hI.stand ((State.append_onlyPorts _ _ _).trans (State.postAll_onlyPorts _ _)).sameCalls ha
  | restart t => exact ha

/-- A row whose own answers keep a property. -/
theorem row_of_take (hI : KeptByReleases I) {i : Instr} {mine : OrderRecord → Bool}
    {codes : List Byte → Bool} {authority : Authority} {body : Port → List Byte → State → Answer}
    (meaning : State → Host.Outcome State Fault Refusal) (hexec : ∀ s, exec i s = meaning s)
    (htake : ∀ s, meaning s = takeOrder mine codes authority body s)
    (hbody : ∀ p params u, I u → (body p params u).Leaves I) : KeepingRow I i := by
  intro s t hs h
  rw [hexec, htake] at h
  rcases takeOrder_cases h with rfl | ⟨p, o, -, -, rfl⟩
  · exact hs
  have htaken : I (s.taken p) := hI.stand (s.taken_sameCalls p) hs
  refine hI.replied htaken p o ?_
  unfold answerTo
  split
  · trivial
  · split
    · trivial
    · exact hbody p o.params _ htaken

end KeptByReleases

end Sys2Proof.Machine
end

section
/-! SUPPORT. The rows that write no table of calls but by releases keep a property that stands under
releases, one lemma a row, and so does a step whose other rows keep it (R8, R9, R28). -/

namespace Sys2Proof.Machine

/-- The commands that write the tables of calls in another way than by releases. -/
def WritesCalls (i : Instr) : Prop :=
  match i with
  | .connect | .setTrunk | .setGroup | .loadKey | .eraseKey | .resync | .armWatch | .disarmWatch
  | .clearTrace | .releaseHold | .restartCold | .frameStart | .powerOn | .resetPin => True
  | _ => False

namespace KeptByReleases

variable {I : State → Prop}

/-! ### Mastership (R18 to R24) -/

theorem withMastership (hI : KeptByReleases I) {s : State} (m : Mastership) (h : I s) :
    I { s with mastership := m } :=
  hI.stand (s := s) ⟨rfl, rfl, rfl, rfl, rfl, rfl⟩ h

theorem claim (hI : KeptByReleases I) : KeepingRow I .claim :=
  hI.row_of_take execClaim (fun _ => rfl) (fun _ => rfl) fun p _ s hs => by
    refine byController_leaves (fun x => ?_) p
    have hheld : I (s.holdMastership x) := hI.withMastership _ hs
    unfold claimBy
    split
    · exact masteryDone_leaves hheld _ _
    · split
      · exact masteryDone_leaves hheld _ _
      · trivial
    · exact masteryDone_leaves hheld _ _

theorem pulse (hI : KeptByReleases I) : KeepingRow I .pulse :=
  hI.row_of_take execPulse (fun _ => rfl) (fun _ => rfl) fun p _ s hs => by
    refine byController_leaves (fun x => ?_) p
    have hheld : I (s.holdMastership x) := hI.withMastership _ hs
    unfold pulseBy
    split
    · split
      · exact masteryDone_leaves hheld _ _
      · trivial
    · split
      · exact masteryDone_leaves hheld _ _
      · trivial
    · trivial

theorem yield (hI : KeptByReleases I) : KeepingRow I .yield :=
  hI.row_of_take execYield (fun _ => rfl) (fun _ => rfl) fun p _ s hs => by
    refine byController_leaves (fun x => ?_) p
    unfold yieldBy
    split
    · exact masteryDone_leaves (hI.withMastership _ hs) _ _
    · trivial

theorem assign (hI : KeptByReleases I) : KeepingRow I .assign :=
  hI.row_of_take execAssign (fun _ => rfl) (fun _ => rfl) fun _ _ s hs => by
    refine masteryDone_leaves ?_ _ _
    split
    · exact hI.withMastership _ hs
    · exact hI.withMastership _ hs

theorem setLapse (hI : KeptByReleases I) : KeepingRow I .setLapse :=
  hI.row_of_take execSetLapse (fun _ => rfl) (fun _ => rfl) fun _ _ s hs => by
    refine masteryDone_leaves ?_ _ _
    exact hI.stand (s := s) ⟨rfl, rfl, rfl, rfl, rfl, rfl⟩ hs

/-! ### The directory and the precedence map (R32 to R42) -/

theorem withDirectory (hI : KeptByReleases I) {s : State} (d : List DirectoryEntry) (h : I s) :
    I { s with directory := d } :=
  hI.stand (s := s) ⟨rfl, rfl, rfl, rfl, rfl, rfl⟩ h

theorem enter (hI : KeptByReleases I) : KeepingRow I .enter :=
  hI.row_of_take execEnter (fun _ => rfl) (fun _ => rfl) fun _ _ s hs => by
    unfold enterEntry
    dsimp only
    split
    · trivial
    · split
      · trivial
      · split
        · trivial
        · exact hI.withDirectory _ hs

theorem remove (hI : KeptByReleases I) : KeepingRow I .remove :=
  hI.row_of_take execRemove (fun _ => rfl) (fun _ => rfl) fun _ _ _ hs =>
    onEntry_leaves fun _ _ => hI.retireIdentity _ _ (hI.withDirectory _ hs)

theorem setSecret (hI : KeptByReleases I) : KeepingRow I .setSecret :=
  hI.row_of_take execSetSecret (fun _ => rfl) (fun _ => rfl) fun _ _ _ hs =>
    onEntry_leaves fun _ _ => hI.withDirectory _ hs

theorem amend (hI : KeptByReleases I) : KeepingRow I .amend :=
  hI.row_of_take execAmend (fun _ => rfl) (fun _ => rfl) fun _ params s hs => by
    unfold amendEntry
    dsimp only
    split
    · trivial
    · split
      · trivial
      · rename_i old _
        have hhomes : I (if flagSet (paramByte params 8) = true then
            (Work.start (s.mapEntry (param2 params 0) (amendedEntry params))).applyHomePorts
              (amendedEntry params old)
            else Work.start (s.mapEntry (param2 params 0) (amendedEntry params))).state := by
          split
          · exact hI.applyHomePorts _ (hI.withDirectory _ hs)
          · exact hI.withDirectory _ hs
        simp only [Answer.Leaves]
        split
        · exact hI.judgeClass _ hhomes
        · exact hhomes

theorem suspend (hI : KeptByReleases I) : KeepingRow I .suspend :=
  hI.row_of_take execSuspend (fun _ => rfl) (fun _ => rfl) fun _ _ s hs =>
    onEntry_leaves fun _ _ => by
      split
      · exact hs
      · exact hI.retireIdentity _ _ (hI.withDirectory _ hs)

theorem resume (hI : KeptByReleases I) : KeepingRow I .resume :=
  hI.row_of_take execResume (fun _ => rfl) (fun _ => rfl) fun _ _ _ hs =>
    onEntry_leaves fun _ _ => hI.withDirectory _ hs

theorem setPrecedenceMap (hI : KeptByReleases I) : KeepingRow I .setPrecedenceMap :=
  hI.row_of_take execSetPrecedenceMap (fun _ => rfl) (fun _ => rfl) fun _ _ s hs => by
    dsimp only
    split
    · trivial
    · exact hI.stand (s := s) ⟨rfl, rfl, rfl, rfl, rfl, rfl⟩ hs

/-! ### Admission (R48, R56, R68 to R72) -/

theorem setPortRow (hI : KeptByReleases I) : KeepingRow I .setPort :=
  hI.row_of_take execSetPort (fun _ => rfl) (fun _ => rfl) fun _ params s hs => by
    refine setPortSettings_leaves params s ?_
    rintro w rfl
    exact hI.clearPositions _ _ (hI.setLine _ _ hs)

theorem withdrawRow (hI : KeptByReleases I) : KeepingRow I .withdraw :=
  hI.row_of_take execWithdraw (fun _ => rfl) (fun _ => rfl) fun _ _ s hs => by
    unfold withdrawPosition
    split
    · trivial
    · split
      · trivial
      · exact hI.withdraw _ _ hs

theorem deliver (hI : KeptByReleases I) : KeepingRow I .deliver :=
  hI.row_of_take execDeliver (fun _ => rfl) (fun _ => rfl) fun _ _ s hs => by
    unfold deliverTo
    split
    · trivial
    · split
      · trivial
      · split
        · trivial
        · exact hI.setStation _ _ hs

theorem releaseLockout (hI : KeptByReleases I) : KeepingRow I .releaseLockout :=
  hI.row_of_take execReleaseLockout (fun _ => rfl) (fun _ => rfl) fun _ _ s hs => by
    dsimp only
    split
    · trivial
    · simp only [Answer.plain, Answer.Leaves, Work.start_state]
      split
      · exact hI.setStation _ _ hs
      · exact hs

theorem setAdmissionTimes (hI : KeptByReleases I) : KeepingRow I .setAdmissionTimes :=
  hI.row_of_take execSetAdmissionTimes (fun _ => rfl) (fun _ => rfl) fun _ _ s hs => by
    exact hI.stand (s := s) ⟨rfl, rfl, rfl, rfl, rfl, rfl⟩ hs

theorem seedChallenge (hI : KeptByReleases I) : KeepingRow I .seedChallenge :=
  hI.row_of_take execSeedChallenge (fun _ => rfl) (fun _ => rfl) fun _ _ s hs => by
    exact hI.stand (s := s) ⟨rfl, rfl, rfl, rfl, rfl, rfl⟩ hs

/-! ### The switching network (R99, R100, R104) -/

theorem releaseById (hI : KeptByReleases I) : KeepingRow I .releaseById :=
  hI.row_of_take execReleaseById (fun _ => rfl) (fun _ => rfl) fun _ _ s hs => by
    unfold releaseId
    split
    · trivial
    · split
      · trivial
      · rename_i c hc
        split
        · trivial
        · exact hI.release (w := Work.start s) none (List.mem_of_find?_eq_some hc) hs

theorem releaseByTag (hI : KeptByReleases I) : KeepingRow I .releaseByTag :=
  hI.row_of_take execReleaseByTag (fun _ => rfl) (fun _ => rfl) fun _ _ s hs => by
    unfold releaseTag
    split
    · trivial
    · exact hI.releaseWhere _ _ hs

theorem setMuteCode (hI : KeptByReleases I) : KeepingRow I .setMuteCode :=
  hI.row_of_take execSetMuteCode (fun _ => rfl) (fun _ => rfl) fun _ _ s hs => by
    exact hI.stand (s := s) ⟨rfl, rfl, rfl, rfl, rfl, rfl⟩ hs

/-! ### The looks (R9) -/

/-- A look that is refused on a condition, and otherwise leaves what it found. -/
theorem look_guarded {s : State} (hs : I s) {refused : Prop} [Decidable refused]
    (outcome : OutcomeCode) (fields fields' : List Byte) :
    (if refused then Answer.refuse outcome fields else .plain fields' s).Leaves I := by
  split
  · trivial
  · exact hs

theorem lookMastership (hI : KeptByReleases I) : KeepingRow I .lookMastership :=
  hI.row_of_take execLookMastership (fun _ => rfl) (fun _ => rfl) fun _ _ _ hs => hs

theorem lookPrecedenceMap (hI : KeptByReleases I) : KeepingRow I .lookPrecedenceMap :=
  hI.row_of_take execLookPrecedenceMap (fun _ => rfl) (fun _ => rfl) fun _ _ _ hs => hs

theorem lookAdmissionTimes (hI : KeptByReleases I) : KeepingRow I .lookAdmissionTimes :=
  hI.row_of_take execLookAdmissionTimes (fun _ => rfl) (fun _ => rfl) fun _ _ _ hs => hs

theorem lookNetwork (hI : KeptByReleases I) : KeepingRow I .lookNetwork :=
  hI.row_of_take execLookNetwork (fun _ => rfl) (fun _ => rfl) fun _ _ _ hs => hs

theorem lookPort (hI : KeptByReleases I) : KeepingRow I .lookPort :=
  hI.row_of_take execLookPort (fun _ => rfl) (fun _ => rfl) fun _ _ _ hs => look_guarded hs _ _ _

theorem lookStation (hI : KeptByReleases I) : KeepingRow I .lookStation :=
  hI.row_of_take execLookStation (fun _ => rfl) (fun _ => rfl) fun _ _ _ hs => look_guarded hs _ _ _

theorem lookEndpoint (hI : KeptByReleases I) : KeepingRow I .lookEndpoint :=
  hI.row_of_take execLookEndpoint (fun _ => rfl) (fun _ => rfl) fun _ _ _ hs =>
    look_guarded hs _ _ _

theorem lookTrunk (hI : KeptByReleases I) : KeepingRow I .lookTrunk :=
  hI.row_of_take execLookTrunk (fun _ => rfl) (fun _ => rfl) fun _ _ _ hs => look_guarded hs _ _ _

theorem lookGroup (hI : KeptByReleases I) : KeepingRow I .lookGroup :=
  hI.row_of_take execLookGroup (fun _ => rfl) (fun _ => rfl) fun _ _ _ hs => look_guarded hs _ _ _

theorem lookKey (hI : KeptByReleases I) : KeepingRow I .lookKey :=
  hI.row_of_take execLookKey (fun _ => rfl) (fun _ => rfl) fun _ _ _ hs => look_guarded hs _ _ _

theorem lookEntry (hI : KeptByReleases I) : KeepingRow I .lookEntry :=
  hI.row_of_take execLookEntry (fun _ => rfl) (fun _ => rfl) fun _ _ _ hs => by
    split
    · trivial
    · split
      · exact hs
      · trivial

theorem lookNextEntry (hI : KeptByReleases I) : KeepingRow I .lookNextEntry :=
  hI.row_of_take execLookNextEntry (fun _ => rfl) (fun _ => rfl) fun _ _ _ hs => by
    split
    · trivial
    · split
      · exact hs
      · trivial

theorem lookConnection (hI : KeptByReleases I) : KeepingRow I .lookConnection :=
  hI.row_of_take execLookConnection (fun _ => rfl) (fun _ => rfl) fun _ _ _ hs => by
    split
    · trivial
    · split
      · exact hs
      · trivial

theorem lookNextConnection (hI : KeptByReleases I) : KeepingRow I .lookNextConnection :=
  hI.row_of_take execLookNextConnection (fun _ => rfl) (fun _ => rfl) fun _ _ _ hs => by
    split
    · trivial
    · split
      · exact hs
      · trivial

theorem lookLeg (hI : KeptByReleases I) : KeepingRow I .lookLeg :=
  hI.row_of_take execLookLeg (fun _ => rfl) (fun _ => rfl) fun _ _ s hs => by
    unfold lookLegId
    split
    · trivial
    · split
      · trivial
      · split
        · trivial
        · exact hI.stand (s := s) ⟨rfl, rfl, rfl, rfl, rfl, rfl⟩ hs

theorem lookWatch (hI : KeptByReleases I) : KeepingRow I .lookWatch :=
  hI.row_of_take execLookWatch (fun _ => rfl) (fun _ => rfl) fun _ _ s hs => by
    unfold lookWatchOf
    split
    · trivial
    · exact hI.stand (s := s) ⟨rfl, rfl, rfl, rfl, rfl, rfl⟩ hs

/-! ### Restart control and the issuing port (R8, R13, R170, R175) -/

theorem unknownOrder (hI : KeptByReleases I) : KeepingRow I .unknownOrder :=
  hI.row_of_take execUnknownOrder (fun _ => rfl) (fun _ => rfl) fun _ _ _ _ => trivial

theorem restartKeep (hI : KeptByReleases I) : KeepingRow I .restartKeep :=
  hI.row_of_take execRestartKeep (fun _ => rfl) (fun _ => rfl) fun _ _ _ hs => hI.startKeep _ hs

theorem readCauses (hI : KeptByReleases I) : KeepingRow I .readCauses :=
  hI.row_of_take execReadCauses (fun _ => rfl) (fun _ => rfl) fun _ _ _ hs => hI.setPort _ _ hs

theorem setPortMode (hI : KeptByReleases I) : KeepingRow I .setPortMode :=
  hI.row_of_take execSetPortMode (fun _ => rfl) (fun _ => rfl) fun _ _ _ hs => hI.setPort _ _ hs

/-! ### Transfers (R2 to R5) -/

theorem completing (hI : KeptByReleases I) {s : State} (p : Port) (v : PortState) (h : I s) :
    I ((s.inTransfer p).setPort p v) := by
  rw [State.inTransfer_setPort]
  exact hI.setPort p v h

theorem orderTransfer (hI : KeptByReleases I) (p : Port) (part : TransferPart)
    (record : List Byte) : KeepingRow I (.orderTransfer p part record) := by
  intro s t hs h
  cases part <;> obtain rfl := Host.Outcome.next.inj h
  · exact hI.setPort p _ hs
  · exact hI.completing p _ hs

theorem fetchTransfer (hI : KeptByReleases I) (p : Port) (part : TransferPart) :
    KeepingRow I (.fetchTransfer p part) := by
  intro s t hs h
  cases part <;> obtain rfl := Host.Outcome.next.inj h
  · exact hI.setPort p _ hs
  · exact hI.completing p _ hs

theorem statusTransfer (hI : KeptByReleases I) (p : Port) (part : TransferPart) :
    KeepingRow I (.statusTransfer p part) := by
  intro s t hs h
  cases part <;> obtain rfl := Host.Outcome.next.inj h
  · exact hI.setPort p _ hs
  · exact hI.completing p _ hs

theorem unknownTransferKind (hI : KeptByReleases I) (p : Port) (kind : Option Byte) :
    KeepingRow I (.unknownTransferKind p kind) := by
  intro s t hs h
  obtain rfl := Host.Outcome.next.inj h
  exact hI.completing p _ hs

/-! ### Deadlines, messages, lines and restarts -/

theorem lapseTimerExpiry (hI : KeptByReleases I) : KeepingRow I .lapseTimerExpiry := by
  intro s t hs h
  change execLapseTimerExpiry s = _ at h
  unfold execLapseTimerExpiry at h
  split at h <;> obtain rfl := Host.Outcome.next.inj h
  · exact hI.finish (hI.stand (s := s) ⟨rfl, rfl, rfl, rfl, rfl, rfl⟩ hs)
  · exact hs

theorem reach (hI : KeptByReleases I) {s : State} (instant : Nat) (h : I s) :
    I (s.reach instant) := hI.stand (s := s) ⟨rfl, rfl, rfl, rfl, rfl, rfl⟩ h

theorem answerDeadlineExpiry (hI : KeptByReleases I) (n : Fin 96) :
    KeepingRow I (.answerDeadlineExpiry n) := by
  intro s t hs h
  change execAnswerDeadlineExpiry n s = _ at h
  unfold execAnswerDeadlineExpiry at h
  split at h <;> obtain rfl := Host.Outcome.next.inj h
  · exact hI.finish (hI.stand (Work.countFailure_sameCalls _ _ _ _) (hI.reach _ hs))
  all_goals exact hs

theorem holdOffExpiry (hI : KeptByReleases I) (n : Fin 96) : KeepingRow I (.holdOffExpiry n) := by
  intro s t hs h
  change execHoldOffExpiry n s = _ at h
  unfold execHoldOffExpiry at h
  split at h <;> obtain rfl := Host.Outcome.next.inj h
  · exact hI.setStation _ _ (hI.reach _ hs)
  all_goals exact hs

theorem register (hI : KeptByReleases I) (n : Fin 96) (identity : Word16) :
    KeepingRow I (.register n identity) := by
  intro s t hs h
  change execRegister n identity s = _ at h
  unfold execRegister at h
  split at h <;> obtain rfl := Host.Outcome.next.inj h
  · exact hI.finish (hI.takeRegister _ _ hs)
  · exact hs

theorem answer (hI : KeptByReleases I) (n : Fin 96) (response : Word16) :
    KeepingRow I (.answer n response) := by
  intro s t hs h
  change execAnswer n response s = _ at h
  unfold execAnswer at h
  split at h <;> obtain rfl := Host.Outcome.next.inj h
  · exact hI.finish (hI.takeAnswer _ _ hs)
  · exact hs

theorem leave (hI : KeptByReleases I) (n : Fin 96) : KeepingRow I (.leave n) := by
  intro s t hs h
  change execLeave n s = _ at h
  unfold execLeave at h
  split at h <;> obtain rfl := Host.Outcome.next.inj h
  · exact hI.finish (hI.takeLeave _ hs)
  · exact hs

theorem signal (hI : KeptByReleases I) (n : Fin 96) (bytes : List Byte) :
    KeepingRow I (.signal n bytes) := by
  intro s t hs h
  change execSignal n bytes s = _ at h
  unfold execSignal at h
  split at h
  · split at h <;> obtain rfl := Host.Outcome.next.inj h
    case h_1 => exact hI.finish hs
    all_goals exact hs
  · obtain rfl := Host.Outcome.next.inj h
    exact hs

theorem unfitStationMessage (n : Fin 48) (message : List Byte) :
    KeepingRow I (.unfitStationMessage n message) := by
  intro s t hs h
  obtain rfl := Host.Outcome.next.inj h
  exact hs

theorem babble (hI : KeptByReleases I) (n : Fin 48) : KeepingRow I (.babble n) := by
  intro s t hs h
  change execBabble n s = _ at h
  unfold execBabble at h
  dsimp only at h
  split at h
  · obtain rfl := Host.Outcome.next.inj h
    exact hs
  · split at h <;> obtain rfl := Host.Outcome.next.inj h
    · exact hI.finish (hI.disableForBabble _ (hI.setLine _ _ hs))
    · exact hI.setLine _ _ hs

theorem linkUp (hI : KeptByReleases I) (n : Fin 48) : KeepingRow I (.linkUp n) := by
  intro s t hs h
  change execLinkUp n s = _ at h
  unfold execLinkUp at h
  split at h <;> obtain rfl := Host.Outcome.next.inj h
  · exact hs
  · exact hI.finish (hI.reportLink _ _ hs)

theorem linkDown (hI : KeptByReleases I) (n : Fin 48) : KeepingRow I (.linkDown n) := by
  intro s t hs h
  change execLinkDown n s = _ at h
  unfold execLinkDown at h
  split at h <;> obtain rfl := Host.Outcome.next.inj h
  · exact hs
  · exact hI.finish (hI.reportLink _ _ hs)

theorem beginSend (hI : KeptByReleases I) (n : Fin 48) : KeepingRow I (.beginSend n) := by
  intro s t hs h
  change execBeginSend n s = _ at h
  unfold execBeginSend at h
  split at h
  · split at h <;> obtain rfl := Host.Outcome.next.inj h
    · exact hI.stand (s.sendFrom_sameCalls _ _) hs
    · exact hs
  · obtain rfl := Host.Outcome.next.inj h
    exact hs

theorem sendCompletion (hI : KeptByReleases I) (n : Fin 48) :
    KeepingRow I (.sendCompletion n) := by
  intro s t hs h
  obtain rfl := Host.Outcome.next.inj h
  exact hI.setLine _ _ hs

theorem sampleArrival (hI : KeptByReleases I) (samples : List Byte) :
    KeepingRow I (.sampleArrival samples) := by
  intro s t hs h
  change execSampleArrival samples s = _ at h
  unfold execSampleArrival at h
  obtain rfl := Host.Outcome.next.inj h
  exact hI.stand (s := s) ⟨rfl, rfl, rfl, rfl, rfl, rfl⟩ hs

theorem resetPinRelease (hI : KeptByReleases I) : KeepingRow I .resetPinRelease := by
  intro s t hs h
  change execResetPinRelease s = _ at h
  unfold execResetPinRelease at h
  split at h <;> obtain rfl := Host.Outcome.next.inj h
  · exact hI.stand (s := s) ⟨rfl, rfl, rfl, rfl, rfl, rfl⟩ hs
  · exact hs

theorem restartComplete (hI : KeptByReleases I) (links : List Bool) :
    KeepingRow I (.restartComplete links) := by
  intro s t hs h
  change execRestartComplete links s = _ at h
  unfold execRestartComplete at h
  split at h
  · split at h <;> obtain rfl := Host.Outcome.next.inj h
    · exact hs
    · exact hI.finish (hI.rereadLinks links (hI.endRestart _ hs))
  · obtain rfl := Host.Outcome.next.inj h
    exact hs

/-- The three commands that restart the part cold, from what the cold values are (R170, R173). -/
theorem coldRows (hI : KeptByReleases I) (hreset : I State.reset) :
    KeepingRow I .restartCold ∧ KeepingRow I .powerOn ∧ KeepingRow I .resetPin := by
  have hcold : ∀ (s : State) cause, I (s.startCold cause) := fun s cause =>
    hI.stand (s := State.reset) ⟨rfl, rfl, rfl, rfl, rfl, rfl⟩ hreset
  refine ⟨?_, fun s t _ ht => ?_, fun s t hs ht => ?_⟩
  · exact hI.row_of_take execRestartCold (fun _ => rfl) (fun _ => rfl) fun _ _ s _ => hcold s _
  · obtain rfl := Host.Outcome.next.inj ht
    exact hcold s _
  · change execResetPin s = .next t at ht
    unfold execResetPin at ht
    split at ht <;> obtain rfl := Host.Outcome.next.inj ht
    · exact hs
    · exact hI.stand (s := s.startCold .pin) ⟨rfl, rfl, rfl, rfl, rfl, rfl⟩ (hcold s _)

/-! ### Every command -/

theorem keepingRow (hI : KeptByReleases I) {i : Instr} (hi : ¬WritesCalls i) : KeepingRow I i := by
  cases i
  case orderTransfer p part record => exact hI.orderTransfer p part record
  case fetchTransfer p part => exact hI.fetchTransfer p part
  case statusTransfer p part => exact hI.statusTransfer p part
  case unknownTransferKind p kind => exact hI.unknownTransferKind p kind
  case unknownOrder => exact hI.unknownOrder
  case claim => exact hI.claim
  case pulse => exact hI.pulse
  case yield => exact hI.yield
  case assign => exact hI.assign
  case setLapse => exact hI.setLapse
  case lookMastership => exact hI.lookMastership
  case enter => exact hI.enter
  case remove => exact hI.remove
  case setSecret => exact hI.setSecret
  case amend => exact hI.amend
  case suspend => exact hI.suspend
  case resume => exact hI.resume
  case lookEntry => exact hI.lookEntry
  case lookNextEntry => exact hI.lookNextEntry
  case setPrecedenceMap => exact hI.setPrecedenceMap
  case lookPrecedenceMap => exact hI.lookPrecedenceMap
  case setPort => exact hI.setPortRow
  case lookPort => exact hI.lookPort
  case withdraw => exact hI.withdrawRow
  case deliver => exact hI.deliver
  case releaseLockout => exact hI.releaseLockout
  case lookStation => exact hI.lookStation
  case setAdmissionTimes => exact hI.setAdmissionTimes
  case lookAdmissionTimes => exact hI.lookAdmissionTimes
  case seedChallenge => exact hI.seedChallenge
  case releaseById => exact hI.releaseById
  case releaseByTag => exact hI.releaseByTag
  case setMuteCode => exact hI.setMuteCode
  case lookConnection => exact hI.lookConnection
  case lookNextConnection => exact hI.lookNextConnection
  case lookEndpoint => exact hI.lookEndpoint
  case lookNetwork => exact hI.lookNetwork
  case lookTrunk => exact hI.lookTrunk
  case lookGroup => exact hI.lookGroup
  case lookKey => exact hI.lookKey
  case lookLeg => exact hI.lookLeg
  case lookWatch => exact hI.lookWatch
  case restartKeep => exact hI.restartKeep
  case readCauses => exact hI.readCauses
  case setPortMode => exact hI.setPortMode
  case lapseTimerExpiry => exact hI.lapseTimerExpiry
  case resetPinRelease => exact hI.resetPinRelease
  case answerDeadlineExpiry n => exact hI.answerDeadlineExpiry n
  case holdOffExpiry n => exact hI.holdOffExpiry n
  case register n identity => exact hI.register n identity
  case answer n response => exact hI.answer n response
  case leave n => exact hI.leave n
  case signal n bytes => exact hI.signal n bytes
  case babble n => exact hI.babble n
  case linkUp n => exact hI.linkUp n
  case linkDown n => exact hI.linkDown n
  case beginSend n => exact hI.beginSend n
  case sendCompletion n => exact hI.sendCompletion n
  case sampleArrival samples => exact hI.sampleArrival samples
  case restartComplete links => exact hI.restartComplete links
  case unfitStationMessage n message => exact unfitStationMessage n message
  all_goals exact absurd trivial hi

/-- The idle step, and then a command of the queue: a step keeps a property that stands under releases,
when the commands that write the tables of calls in another way keep it. -/
theorem step (hI : KeptByReleases I) (hwrites : ∀ i, WritesCalls i → KeepingRow I i) {s t : State}
    (hs : I s) (h : step s = .next t) : I t := by
  unfold Machine.step at h
  split at h
  · rename_i c rest _
    have hs' : I { s with pending := rest } :=
      hI.stand (s := s) ⟨rfl, rfl, rfl, rfl, rfl, rfl⟩ hs
    by_cases hc : WritesCalls c
    · exact hwrites c hc _ t hs' h
    · exact hI.keepingRow hc _ t hs' h
  · obtain rfl := Host.Outcome.next.inj h
    refine hI.stand (s := s) ?_ hs
    unfold State.idle
    split <;> exact ⟨rfl, rfl, rfl, rfl, rfl, rfl⟩

end KeptByReleases

end Sys2Proof.Machine
end

section
/-! SUPPORT. The law of call privacy: what keeps it while records stand, while they leave through the
release procedure, when a key context that is not in use is written, and when a record is made (R76,
R91, R128, R133, R134, R146, R150). -/

namespace Sys2Proof.Machine

/-! ### What the law of one record reads -/

theorem State.isTie_congr {s t : State} {e : Nat}
    (h : isTrunk e = true → t.slot (slotOf e) = s.slot (slotOf e)) : t.isTie e = s.isTie e := by
  unfold State.isTie
  cases ht : isTrunk e with
  | false => rfl
  | true => rw [h ht]

/-- The law of one record reads its key's material, its leg and the modes of its two endpoints. -/
theorem PartLaw.congr {s t : State} {c d : Connection} {part : PrivacyPart} (h : PartLaw s c part)
    (hlive : d.live = c.live) (hsource : t.isTie d.source = s.isTie c.source)
    (hdestination : t.isTie d.destination = s.isTie c.destination)
    (hkey : (t.key part.key).material = (s.key part.key).material)
    (hleg : t.leg part.leg = s.leg part.leg) : PartLaw t d part := by
  unfold PartLaw at h ⊢
  rwa [hlive, hsource, hdestination, hkey, hleg]

/-- The endpoints of the record are TIE slots as before, where the slots stand. -/
theorem PartLaw.of_slots {s t : State} {c : Connection} {part : PrivacyPart} (h : PartLaw s c part)
    (hslot : ∀ n, t.slot n = s.slot n)
    (hkey : (t.key part.key).material = (s.key part.key).material)
    (hleg : t.leg part.leg = s.leg part.leg) : PartLaw t c part :=
  h.congr rfl (State.isTie_congr fun _ => hslot _) (State.isTie_congr fun _ => hslot _) hkey hleg

/-! ### The records stand -/

/-- Every record keeps its privacy part, the key contexts stand, and no leg is taken. -/
theorem PrivacyLaw.of_map {s t : State} (h : PrivacyLaw s) {g : Connection → Connection}
    (hconnections : t.connections = s.connections.map g) (hprivacy : ∀ c, (g c).privacy = c.privacy)
    (hkey : ∀ k, t.key k = s.key k) (hfree : ∀ n, s.leg n = none → t.leg n = none)
    (hpart : ∀ c ∈ s.connections, ∀ part ∈ c.privacy, PartLaw s c part → PartLaw t (g c) part) :
    PrivacyLaw t := by
  obtain ⟨hparts, hlegs, hheld, hcounts, hodd⟩ := h
  refine ⟨fun c hc part hm => ?_, ?_, fun n leg hn => ?_, fun k hk => ?_, fun k m hm => ?_⟩
  · rw [hconnections] at hc
    obtain ⟨d, hd, rfl⟩ := List.mem_map.1 hc
    rw [hprivacy] at hm
    exact hpart d hd part hm (hparts d hd part hm)
  · rw [hconnections, List.pairwise_map]
    simpa only [hprivacy] using hlegs
  · cases hs : s.leg n with
    | none =>
      rw [hfree n hs] at hn
      cases hn
    | some old =>
      obtain ⟨c, hc, part, hm, hleg⟩ := hheld n old hs
      refine ⟨g c, ?_, part, ?_, hleg⟩
      · rw [hconnections]
        exact List.mem_map_of_mem hc
      · rw [hprivacy]
        exact hm
  · rw [hkey, hcounts k hk, hconnections, List.countP_map]
    simp only [Function.comp_def, hprivacy]
  · rw [hkey] at hm
    exact hodd k m hm

/-- The law reads the connection table, the slots, the key contexts and the legs alone. -/
theorem PrivacyLaw.of_eq {s t : State} (h : PrivacyLaw s)
    (hconnections : t.connections = s.connections) (hslots : t.slots = s.slots)
    (hkeys : t.keys = s.keys) (hlegs : t.legs = s.legs) : PrivacyLaw t := by
  have hslot : ∀ n, t.slot n = s.slot n := fun n => by unfold State.slot; rw [hslots]
  have hkey : ∀ k, t.key k = s.key k := fun k => by unfold State.key; rw [hkeys]
  have hleg : ∀ n, t.leg n = s.leg n := fun n => by unfold State.leg; rw [hlegs]
  exact h.of_map (g := id) (by rw [List.map_id]; exact hconnections) (fun _ => rfl) hkey
    (fun n hn => (hleg n).trans hn)
    fun c _ part _ hp => hp.of_slots hslot (congrArg _ (hkey _)) (hleg _)

/-- A record is marked or unmarked trace-held, which the law does not read (R163). -/
theorem PrivacyLaw.mapTraceHeld {s : State} (h : PrivacyLaw s) (id : Nat) (held : Bool) :
    PrivacyLaw (s.mapConnection id fun c => { c with traceHeld := held }) := by
  refine h.of_map (g := fun c => if c.id == id then { c with traceHeld := held } else c) rfl
    (fun c => ?_) (fun _ => rfl) (fun _ hn => hn) fun c _ part _ hp => ?_
  · split <;> rfl
  · split
    · exact hp
    · exact hp

/-- A held leg goes on to a state of the same direction that waits as the old one did. -/
theorem PrivacyLaw.setLegState {s : State} (h : PrivacyLaw s) {n : Nat} {leg : Leg}
    (hn : s.leg n = some leg) {state : LegState}
    (hdirection : state.direction = leg.state.direction)
    (hwaiting : state.isWaiting = leg.state.isWaiting) :
    PrivacyLaw (s.setLeg n (some { leg with state := state })) := by
  refine h.of_map (g := id) (List.map_id _).symm (fun _ => rfl) (fun _ => rfl)
    (fun m hm => ?_) fun c hc part hpart hp => ?_
  · have hne : m ≠ n := fun heq => by
      rw [heq, hn] at hm
      cases hm
    rw [State.leg_setLeg_ne _ hne]
    exact hm
  · by_cases hleg : part.leg = n
    · obtain ⟨hkey, hlt, hmaterial, ⟨old, hold, hsame, hdir, hwait⟩, hties⟩ := hp
      rw [hleg, hn, Option.some.injEq] at hold
      subst hold
      refine ⟨hkey, hlt, hmaterial, ⟨{ leg with state := state }, ?_, hsame, ?_, ?_⟩, hties⟩
      · rw [hleg, State.leg_setLeg_same _ (hleg ▸ hlt)]
      · exact hdirection.trans hdir
      · exact hwaiting.trans hwait
    · exact hp.of_slots (fun _ => rfl) rfl (State.leg_setLeg_ne _ hleg _)

/-- A slot that no record names is written (R111). -/
theorem PrivacyLaw.setSlot {s : State} (h : PrivacyLaw s) {n : Nat} (v : TrunkSlot)
    (hfree : s.named (endpointOfSlot n) = false) : PrivacyLaw (s.setSlot n v) := by
  have htie : ∀ c ∈ s.connections, ∀ e, c.names e = true →
      (s.setSlot n v).isTie e = s.isTie e := fun c hc e he => by
    refine State.isTie_congr fun htrunk => State.slot_setSlot_ne _ (fun heq => ?_) v
    have hnamed : c.names (endpointOfSlot n) = true := by
      have : endpointOfSlot n = e := by
        simp only [isTrunk, Bool.and_eq_true, decide_eq_true_eq] at htrunk
        simp only [slotOf] at heq
        simp only [endpointOfSlot]
        omega
      rw [this]
      exact he
    exact absurd (List.any_eq_true.2 ⟨c, hc, hnamed⟩) (Bool.eq_false_iff.1 hfree)
  exact h.of_map (g := id) (List.map_id _).symm (fun _ => rfl) (fun _ => rfl)
    (fun _ hm => hm) fun c hc part _ hp => hp.congr rfl
      (htie c hc _ (by simp [Connection.names])) (htie c hc _ (by simp [Connection.names])) rfl rfl

/-! ### Records leave through the release procedure (R146, R150) -/

/-- The records selected give back their legs and their uses of key contexts; the others keep theirs. -/
theorem PrivacyLaw.of_releases {s t : State} (h : PrivacyLaw s) {gone : Connection → Bool}
    (hslot : ∀ n, t.slot n = s.slot n) (hreleases : Releases s t gone) : PrivacyLaw t := by
  obtain ⟨hconnections, hleg, hkey, -, -⟩ := hreleases
  have hkept : ∀ c, c ∈ t.connections ↔ c ∈ s.connections ∧ gone c = false := fun c => by
    rw [hconnections, List.mem_filter, Bool.not_eq_true']
  have hshared := @PrivacyLaw.leg_ne s h
  obtain ⟨hparts, hlegs, hheld, hcounts, hodd⟩ := h
  refine ⟨fun c hc part hm => ?_, ?_, fun n leg hn => ?_, fun k hk => ?_, fun k m hm => ?_⟩
  · obtain ⟨hs, hgone⟩ := (hkept c).1 hc
    refine (hparts c hs part hm).of_slots hslot (by rw [hkey]) ?_
    rw [hleg, if_neg]
    intro hany
    obtain ⟨d, hd, hboth⟩ := List.any_eq_true.1 hany
    simp only [Bool.and_eq_true, beq_iff_eq, Option.map_eq_some_iff] at hboth
    obtain ⟨hdgone, part', hm', heq⟩ := hboth
    have hne : d ≠ c := fun hdc => by
      rw [hdc, hgone] at hdgone
      cases hdgone
    exact hshared hd hs hne hm' hm heq
  · rw [hconnections]
    exact hlegs.filter _
  · rw [hleg] at hn
    split at hn
    · cases hn
    · rename_i hany
      obtain ⟨c, hc, part, hm, heq⟩ := hheld n leg hn
      refine ⟨c, (hkept c).2 ⟨hc, ?_⟩, part, hm, heq⟩
      by_contra hgone
      rw [Bool.not_eq_false] at hgone
      rw [Option.mem_def] at hm
      exact hany (List.any_eq_true.2 ⟨c, hc, by simp [hgone, hm, heq]⟩)
  · rw [hkey, hconnections]
    have hstages := countP_stages s.connections gone (fun _ => true)
      fun c => (c.privacy.map (·.key)) == some k
    simp only [Bool.true_and, Bool.or_true] at hstages
    simp only [hcounts k hk]
    omega
  · rw [hkey] at hm
    exact hodd k m hm

/-! ### Key contexts that are not in use (R128 to R130) -/

/-- A context that is not in use is written, and stays so. -/
theorem PrivacyLaw.setKey {s : State} (h : PrivacyLaw s) {index : Nat} {v : KeyContext}
    (hunused : (s.key index).useCount = 0) (hv : v.useCount = 0)
    (hodd : ∀ m, v.material = some m → m.increment.getLsbD 0 = true) :
    PrivacyLaw (s.setKey index v) := by
  obtain ⟨hparts, hlegs, hheld, hcounts, hodds⟩ := h
  refine ⟨fun c hc part hm => ?_, hlegs, hheld, fun k hk => ?_, fun k m hm => ?_⟩
  · have hp := hparts c hc part hm
    refine hp.of_slots (fun _ => rfl) ?_ rfl
    rw [State.key_setKey_ne]
    rintro rfl
    obtain ⟨hlt, -⟩ := hp
    rw [hcounts _ hlt, List.countP_eq_zero] at hunused
    rw [Option.mem_def] at hm
    exact hunused c hc (by simp [hm])
  · rw [State.setKey_connections, ← hcounts k hk, State.key_setKey]
    split
    · rename_i heq
      rw [heq.1, hv, hunused]
    · rfl
  · rw [State.key_setKey] at hm
    split at hm
    · exact hodd m hm
    · exact hodds k m hm

/-! ### The record that CONNECT makes (R91, R97, R134) -/

/-- A record comes into the table: the legs of the others stand, its own was free, and the context it
names is used once more. -/
theorem PrivacyLaw.of_insert {s t : State} (h : PrivacyLaw s) {c : Connection}
    (hconnections : t.connections = insertConnection c s.connections)
    (hslot : ∀ n, t.slot n = s.slot n) (hown : ∀ part ∈ c.privacy, PartLaw t c part)
    (hfree : ∀ part ∈ c.privacy, s.leg part.leg = none)
    (hlegs : ∀ n, (∀ part ∈ c.privacy, part.leg ≠ n) → t.leg n = s.leg n)
    (hmaterial : ∀ k, (t.key k).material = (s.key k).material)
    (hcount : ∀ k, k < 32 → (t.key k).useCount
      = (s.key k).useCount + if (c.privacy.map (·.key)) == some k then 1 else 0) :
    PrivacyLaw t := by
  have hmem : ∀ d, d ∈ t.connections ↔ d = c ∨ d ∈ s.connections := fun d => by
    rw [hconnections, mem_insertConnection]
  have hperm := insertConnection_perm c s.connections
  obtain ⟨hparts, hshared, hheld, hcounts, hodd⟩ := h
  have hapart : ∀ d ∈ s.connections, ∀ part ∈ c.privacy, ∀ part' ∈ d.privacy,
      part.leg ≠ part'.leg := fun d hd part hm part' hm' heq => by
    obtain ⟨-, -, -, ⟨leg, hleg, -⟩, -⟩ := hparts d hd part' hm'
    rw [← heq, hfree part hm] at hleg
    cases hleg
  refine ⟨fun d hd part hm => ?_, ?_, fun n leg hn => ?_, fun k hk => ?_, fun k m hm => ?_⟩
  · rcases (hmem d).1 hd with rfl | hd
    · exact hown part hm
    · exact (hparts d hd part hm).of_slots hslot (hmaterial _)
        (hlegs _ fun part' hm' => hapart d hd part' hm' part hm)
  · rw [hconnections, hperm.pairwise_iff fun hdisjoint p hp q hq => (hdisjoint q hq p hp).symm]
    exact List.pairwise_cons.2 ⟨hapart, hshared⟩
  · by_cases hc : ∃ part ∈ c.privacy, part.leg = n
    · exact ⟨c, (hmem c).2 (.inl rfl), hc⟩
    · rw [hlegs n fun part hm heq => hc ⟨part, hm, heq⟩] at hn
      obtain ⟨d, hd, hpart⟩ := hheld n leg hn
      exact ⟨d, (hmem d).2 (.inr hd), hpart⟩
  · rw [hcount k hk, hcounts k hk, hconnections, hperm.countP_eq, List.countP_cons]
  · rw [hmaterial] at hm
    exact hodd k m hm

/-- A PENDING record without a privacy part, or with one: then its leg was free, its key context is
LOADED, and the TIE slot stands at the end that its direction says, and not at the other. -/
theorem PrivacyLaw.makeConnection {w : Work} (h : PrivacyLaw w.state) (r : ConnectRequest)
    {c : Connection} (hpending : c.live = false)
    (hfits : ∀ part ∈ c.privacy, part.key < 32 ∧ part.leg < 64
      ∧ (w.state.key part.key).material.isSome = true ∧ w.state.leg part.leg = none
      ∧ w.state.isTie c.destination = (part.direction == .scramble)
      ∧ w.state.isTie c.source = (part.direction == .descramble)) :
    PrivacyLaw (w.makeConnection r c).state := by
  have hslot := (w.makeConnection_onlyCalls r c).slot
  have htie : ∀ e, (w.makeConnection r c).state.isTie e = w.state.isTie e := fun e =>
    State.isTie_congr fun _ => hslot _
  have hconnections := w.makeConnection_connections r c
  cases hc : c.privacy with
  | none =>
    have hkey : ∀ k, (w.makeConnection r c).state.key k = w.state.key k := fun k => by
      rw [Work.makeConnection_key, hc]
    refine h.of_insert hconnections hslot (by simp [hc]) (by simp [hc]) (fun n _ => ?_)
      (fun k => congrArg _ (hkey k)) fun k _ => ?_
    · rw [Work.makeConnection_leg, hc]
    · rw [hkey, hc]
      rfl
  | some part =>
    obtain ⟨hkeyLt, hlegLt, hloaded, hfree, hdestination, hsource⟩ := hfits part hc
    have hmaterial : ∀ k, ((w.makeConnection r c).state.key k).material
        = (w.state.key k).material := fun k => by
      simp only [Work.makeConnection_key, hc]
      split
      · rename_i heq
        rw [heq.1]
      · rfl
    have hleg : ∃ leg, (w.makeConnection r c).state.leg part.leg = some leg ∧ leg.key = part.key
        ∧ leg.state.direction = part.direction ∧ leg.state.isWaiting = true := by
      simp only [Work.makeConnection_leg, hc, hlegLt, and_self, if_true]
      refine ⟨_, rfl, rfl, ?_⟩
      cases part.direction <;> exact ⟨rfl, rfl⟩
    have hpart : ∀ p ∈ c.privacy, p = part := fun p hp => Option.some.inj (hp.symm.trans hc)
    refine h.of_insert hconnections hslot (fun p hp => ?_) (fun p hp => ?_) (fun n hn => ?_)
      hmaterial fun k hk => ?_
    · obtain rfl := hpart p hp
      unfold PartLaw
      rw [hmaterial, htie, htie, hpending]
      exact ⟨hkeyLt, hlegLt, hloaded, hleg, hdestination, hsource⟩
    · obtain rfl := hpart p hp
      exact hfree
    · have hne : n ≠ part.leg := (hn part hc).symm
      simp only [Work.makeConnection_leg, hc, hne, false_and, if_false]
    · simp only [Work.makeConnection_key, hc]
      by_cases heq : part.key = k
      · subst heq
        simp [hk]
      · simp [heq, Ne.symm heq]

end Sys2Proof.Machine
end

section
/-! SUPPORT. The law of call privacy, O55, concluded: the orders on key contexts, legs, slots and watches,
CONNECT, and the frame start (R91, R102, R103, R111, R128 to R142). -/

namespace Sys2Proof.Machine

/-- The laws that O55 speaks of. -/
def PrivacyLaws (s : State) : Prop := TableLaw s ∧ PrivacyLaw s

theorem PrivacyLaws.keptByReleases : KeptByReleases PrivacyLaws where
  stand h hs := ⟨hs.1.of_shrinks (.of_eq h.connections),
    hs.2.of_eq h.connections h.slots h.keys h.legs⟩
  tableLaw hs := hs.1
  releaseWhere {w} reason gone hs := ⟨hs.1.of_shrinks (w.releaseWhere_shrinks reason gone),
    hs.2.of_releases (w.releaseWhere_onlyCalls reason gone).slot
      (Work.releaseWhere_releases reason gone hs.1)⟩

/-- The groups and the watches are none of the laws' concern. -/
theorem PrivacyLaws.of_eq {s t : State} (hs : PrivacyLaws s)
    (hconnections : t.connections = s.connections) (hslots : t.slots = s.slots)
    (hkeys : t.keys = s.keys) (hlegs : t.legs = s.legs) : PrivacyLaws t :=
  ⟨hs.1.of_shrinks (.of_eq hconnections), hs.2.of_eq hconnections hslots hkeys hlegs⟩

/-! ### Slots, groups and watches (R111, R114, R161 to R166) -/

theorem setTrunk_keepsPrivacy : KeepingRow PrivacyLaws .setTrunk :=
  PrivacyLaws.keptByReleases.row_of_take execSetTrunk (fun _ => rfl) (fun _ => rfl)
    fun _ _ s hs => by
      unfold setTrunkSlot
      dsimp only
      split
      · trivial
      · split
        · trivial
        · rename_i hfree
          exact ⟨hs.1.of_shrinks (.of_eq rfl), hs.2.setSlot _ (Bool.eq_false_iff.2 hfree)⟩

theorem setGroup_keepsPrivacy : KeepingRow PrivacyLaws .setGroup :=
  PrivacyLaws.keptByReleases.row_of_take execSetGroup (fun _ => rfl) (fun _ => rfl)
    fun _ _ s hs => by
      unfold setGroupSettings
      dsimp only
      split
      · trivial
      · simp only [Answer.Leaves, Work.reevaluate_state]
        exact hs.of_eq rfl rfl rfl rfl

theorem PrivacyLaws.clearHold {s : State} (hs : PrivacyLaws s) (n : Nat) :
    PrivacyLaws (s.clearHold n) := by
  refine ⟨hs.1.of_shrinks (s.clearHold_recedes n).connections, ?_⟩
  unfold State.clearHold
  split
  · exact PrivacyLaw.mapTraceHeld (hs.2.of_eq rfl rfl rfl rfl) _ _
  · exact hs.2

theorem PrivacyLaws.setWatch {s : State} (hs : PrivacyLaws s) (n : Nat) (v : Watch) :
    PrivacyLaws (s.setWatch n v) := hs.of_eq rfl rfl rfl rfl

theorem armWatch_keepsPrivacy : KeepingRow PrivacyLaws .armWatch :=
  PrivacyLaws.keptByReleases.row_of_take execArmWatch (fun _ => rfl) (fun _ => rfl)
    fun _ _ _ hs => by
      unfold armWatchOn
      split
      · trivial
      · split
        · trivial
        · split
          · trivial
          · exact hs.setWatch _ _

theorem disarmWatch_keepsPrivacy : KeepingRow PrivacyLaws .disarmWatch :=
  PrivacyLaws.keptByReleases.row_of_take execDisarmWatch (fun _ => rfl) (fun _ => rfl)
    fun _ _ _ hs => by
      dsimp only
      split
      · trivial
      · exact (hs.clearHold _).setWatch _ _

theorem clearTrace_keepsPrivacy : KeepingRow PrivacyLaws .clearTrace :=
  PrivacyLaws.keptByReleases.row_of_take execClearTrace (fun _ => rfl) (fun _ => rfl)
    fun _ _ _ hs => by
      unfold clearTraceOf
      split
      · trivial
      · split
        · trivial
        · exact hs
        · exact (hs.clearHold _).setWatch _ _

theorem releaseHold_keepsPrivacy : KeepingRow PrivacyLaws .releaseHold :=
  PrivacyLaws.keptByReleases.row_of_take execReleaseHold (fun _ => rfl) (fun _ => rfl)
    fun _ _ _ hs => by
      unfold releaseHoldOf
      split
      · trivial
      · split
        · trivial
        · trivial
        · exact hs.clearHold _

/-! ### Key contexts and legs (R129, R130, R142) -/

/-- What is done to a key context that is not in use. -/
theorem onFreeKey_leaves_of_unused {I : State → Prop} {s : State} {own : Answer} {index : Nat}
    (h : (s.key index).useCount = 0 → own.Leaves I) : (onFreeKey index s own).Leaves I := by
  unfold onFreeKey
  split
  · trivial
  · split
    · trivial
    · rename_i hused
      exact h (by simpa using hused)

theorem PrivacyLaws.setKey {s : State} (hs : PrivacyLaws s) {index : Nat} {v : KeyContext}
    (hunused : (s.key index).useCount = 0) (hv : v.useCount = 0)
    (hodd : ∀ m, v.material = some m → m.increment.getLsbD 0 = true) :
    PrivacyLaws (s.setKey index v) :=
  ⟨hs.1.of_shrinks (.of_eq rfl), hs.2.setKey hunused hv hodd⟩

/-- R76: no increment that a LOAD KEY stores is even. -/
theorem loadedKey_increment_odd {params : List Byte} {m : KeyMaterial}
    (h : (loadedKey params).material = some m) : m.increment.getLsbD 0 = true := by
  obtain rfl := Option.some.inj h
  exact forceOdd_odd _

theorem loadKey_keepsPrivacy : KeepingRow PrivacyLaws .loadKey :=
  PrivacyLaws.keptByReleases.row_of_take execLoadKey (fun _ => rfl) (fun _ => rfl)
    fun _ _ _ hs => onFreeKey_leaves_of_unused fun hunused =>
      hs.setKey hunused rfl fun _ => loadedKey_increment_odd

theorem eraseKey_keepsPrivacy : KeepingRow PrivacyLaws .eraseKey :=
  PrivacyLaws.keptByReleases.row_of_take execEraseKey (fun _ => rfl) (fun _ => rfl)
    fun _ _ _ hs => onFreeKey_leaves_of_unused fun hunused => hs.setKey hunused hunused nofun

theorem LegState.resynced_direction (l : LegState) : l.resynced.direction = l.direction := by
  cases l <;> rfl

theorem LegState.resynced_isWaiting (l : LegState) : l.resynced.isWaiting = l.isWaiting := by
  cases l <;> rfl

theorem resync_keepsPrivacy : KeepingRow PrivacyLaws .resync :=
  PrivacyLaws.keptByReleases.row_of_take execResync (fun _ => rfl) (fun _ => rfl)
    fun _ _ _ hs => by
      unfold resyncId
      split
      · trivial
      · split
        · trivial
        · split
          · rename_i leg _ hleg
            exact ⟨hs.1.of_shrinks (.of_eq rfl), hs.2.setLegState hleg
              leg.state.resynced_direction leg.state.resynced_isWaiting⟩
          · trivial

/-! ### CONNECT (R92, R95, R97, R121, R134) -/

/-- What checks 2, 8 and 10 leave of a CONNECT that names a key (R92, R95, R134). -/
theorem State.connectRefusal_eq_none_key {s : State} {r : ConnectRequest}
    (h : s.connectRefusal r = none) {k : Nat} (hk : r.key = some k) :
    k < 32 ∧ (s.key k).material.isSome = true ∧ s.isTie r.source ≠ s.isTie r.destination
      ∧ ∃ n, s.lowestFreeLeg = some n := by
  unfold State.connectRefusal at h
  split at h
  · cases h
  rename_i hrange
  split at h
  · cases h
  split at h
  · cases h
  split at h
  · cases h
  split at h
  · cases h
  split at h
  · cases h
  rename_i hkey
  split at h
  · cases h
  split at h
  · cases h
  rename_i hleg
  simp only [ConnectRequest.outOfRange, hk, Option.getD_some, Bool.or_eq_true, decide_eq_true_eq,
    beq_iff_eq, not_or, Nat.not_lt] at hrange
  simp only [State.keyRefused, hk, Bool.or_eq_true, beq_iff_eq, not_or, Option.isNone_iff_eq_none,
    ← Option.isSome_iff_ne_none] at hkey
  refine ⟨Nat.lt_succ_of_le hrange.2, hkey.1, hkey.2, Option.ne_none_iff_exists'.1 ?_⟩
  simpa [hk] using hleg

/-- A preemption takes no leg (R150). -/
theorem Work.foldl_preempt_leg_free (victims : List Nat) {w : Work} {n : Nat}
    (h : w.state.leg n = none) : (victims.foldl Work.preempt w).state.leg n = none := by
  induction victims generalizing w with
  | nil => exact h
  | cons v victims ih =>
    refine ih ?_
    unfold Work.preempt Work.releaseWhere
    rw [Work.foldl_release_leg, h, ite_self]

/-- A preemption leaves the material of every key context (R150). -/
theorem Work.foldl_preempt_material (victims : List Nat) (w : Work) (k : Nat) :
    ((victims.foldl Work.preempt w).state.key k).material = (w.state.key k).material := by
  induction victims generalizing w with
  | nil => rfl
  | cons v victims ih =>
    rw [List.foldl_cons, ih]
    unfold Work.preempt Work.releaseWhere
    rw [Work.foldl_release_key]

theorem PrivacyLaws.preempt {w : Work} (hw : PrivacyLaws w.state) (victims : List Nat) :
    PrivacyLaws (victims.foldl Work.preempt w).state := by
  induction victims generalizing w with
  | nil => exact hw
  | cons v victims ih => exact ih (PrivacyLaws.keptByReleases.releaseWhere _ _ hw)

/-- A record of a free id, whose destination nothing feeds, in a table that is in order (R88). -/
theorem TableLaw.makeConnection {w : Work} (hw : TableLaw w.state) (r : ConnectRequest)
    {c : Connection} (hid : c.id < 160) (hfree : ∀ d ∈ w.state.connections, d.id ≠ c.id)
    (hfed : ∀ d ∈ w.state.connections, d.destination ≠ c.destination) (hsource : c.source < 176)
    (hdestination : c.destination < 160) (hne : c.source ≠ c.destination) :
    TableLaw (w.makeConnection r c).state := by
  obtain ⟨hids, hdestinations, hrecords⟩ := hw
  unfold TableLaw
  rw [Work.makeConnection_connections]
  refine ⟨pairwise_insertConnection hids hfree, ?_, fun d hd => ?_⟩
  · rw [(insertConnection_perm c _).pairwise_iff fun h => Ne.symm h]
    exact List.pairwise_cons.2 ⟨fun d hd => (hfed d hd).symm, hdestinations⟩
  · rcases (mem_insertConnection c d _).1 hd with rfl | hd
    · exact ⟨hid, hsource, hdestination, hne⟩
    · exact hrecords d hd

/-- The record that a CONNECT makes after its preemptions keeps the table in order. -/
theorem TableLaw.connect {s : State} (hs : TableLaw s) {r : ConnectRequest}
    (hchecks : s.connectRefusal r = none) (victims : List Nat) (cls : Nat) :
    TableLaw ((victims.foldl Work.preempt (Work.start s)).makeConnection r
      ((victims.foldl Work.preempt (Work.start s)).state.newConnection r cls)).state := by
  obtain ⟨⟨hsource, hdestination, hne, -⟩, hfed, hlen⟩ := State.connectRefusal_eq_none hchecks
  have hshrinks : TableShrinks s (victims.foldl Work.preempt (Work.start s)).state :=
    (Work.preempt_foldl_recedes victims (Work.start s)).connections
  generalize victims.foldl Work.preempt (Work.start s) = w at hshrinks
  have hlen' : w.state.connections.length < 160 := by
    have := hshrinks.length_le
    simp only [List.length_map] at this
    omega
  obtain ⟨n, hn⟩ := State.exists_lowestFreeId hlen'
  obtain ⟨hlt, hfree, -⟩ := State.lowestFreeId_eq_some hn
  have hid : (w.state.newConnection r cls).id = n := by simp [State.newConnection, hn]
  refine (hs.of_shrinks hshrinks).makeConnection r (by rwa [hid]) (by rwa [hid]) (fun d hd => ?_)
    (Nat.lt_succ_of_le hsource) (Nat.lt_succ_of_le hdestination) hne
  obtain ⟨d', hd', hends⟩ := hshrinks.exists_ends hd
  simp only [Connection.ends, Prod.mk.injEq] at hends
  obtain ⟨-, -, hdest, -⟩ := hends
  rw [← hdest]
  exact hfed d' hd'

/-- The privacy part that a CONNECT gives its record after its preemptions: a leg is free, and the key
has passed its check (R91, R95, R134). -/
theorem PrivacyLaw.connect {s : State} (hs : PrivacyLaws s) {r : ConnectRequest}
    (hchecks : s.connectRefusal r = none) (victims : List Nat) (cls : Nat) :
    PrivacyLaw ((victims.foldl Work.preempt (Work.start s)).makeConnection r
      ((victims.foldl Work.preempt (Work.start s)).state.newConnection r cls)).state := by
  have hlaw : PrivacyLaws (Work.start s).state := hs
  refine (hlaw.preempt victims).2.makeConnection r rfl fun part hm => ?_
  obtain ⟨k, hk, rfl⟩ := Option.map_eq_some_iff.1 hm
  obtain ⟨hlt, hloaded, hties, m, hm⟩ := State.connectRefusal_eq_none_key hchecks hk
  have hfree : ∃ n, (victims.foldl Work.preempt (Work.start s)).state.lowestFreeLeg = some n := by
    obtain ⟨hmLt, hmFree, -⟩ := State.lowestFreeLeg_eq_some hm
    refine Option.ne_none_iff_exists'.1 fun hnone => ?_
    exact State.lowestFreeLeg_eq_none.1 hnone m hmLt
      (Work.foldl_preempt_leg_free victims (w := Work.start s) hmFree)
  obtain ⟨n, hn⟩ := hfree
  obtain ⟨hnLt, hnFree, -⟩ := State.lowestFreeLeg_eq_some hn
  have htie : ∀ e, (victims.foldl Work.preempt (Work.start s)).state.isTie e = s.isTie e := fun e =>
    State.isTie_congr fun _ => (Work.preempt_foldl_onlyCalls victims (Work.start s)).slot _
  refine ⟨hlt, ?_, ?_, ?_, ?_, ?_⟩
  · simpa [hn] using hnLt
  · rw [Work.foldl_preempt_material]
    exact hloaded
  · simpa [hn] using hnFree
  · simp only [State.newConnection, State.directionOf, htie]
    cases s.isTie r.destination <;> rfl
  · simp only [State.newConnection, State.directionOf, htie]
    revert hties
    cases s.isTie r.source <;> cases s.isTie r.destination <;> simp

theorem connect_keepsPrivacy : KeepingRow PrivacyLaws .connect :=
  PrivacyLaws.keptByReleases.row_of_take execConnect (fun _ => rfl) (fun _ => rfl)
    fun _ _ _ hs => by
      unfold connectTake
      split
      · trivial
      rename_i hchecks
      split
      · trivial
      · exact ⟨hs.1.connect hchecks _ _, PrivacyLaw.connect hs hchecks _ _⟩

/-! ### The frame start (R102, R103, R135 to R141) -/

/-- A held leg when it starts (R135). -/
def State.legStarted (s : State) (leg : Leg) : Leg :=
  { leg with state := leg.state.started (s.key leg.key).use.seed }

/-- What the start of a record's leg makes of every leg (R135). -/
theorem State.startLeg_leg (s : State) (c : Connection) (n : Nat) :
    (s.startLeg c).leg n =
      if (c.privacy.map (·.leg)) = some n then (s.leg n).map s.legStarted else s.leg n := by
  unfold State.startLeg
  cases hc : c.privacy with
  | none => simp
  | some part =>
    simp only [Option.map_some, Option.some.injEq]
    by_cases hn : part.leg = n
    · subst hn
      cases hleg : s.leg part.leg with
      | none => simp [hleg]
      | some leg =>
        have hlt : part.leg < 64 := by
          by_contra hge
          simp [State.leg, hge] at hleg
        simp [State.leg_setLeg_same _ hlt, State.legStarted]
    · rw [if_neg hn]
      split
      · rfl
      · exact State.leg_setLeg_ne _ (Ne.symm hn) _

theorem State.startLeg_key (s : State) (c : Connection) (k : Nat) :
    (s.startLeg c).key k = s.key k := by
  unfold State.startLeg
  split
  · rfl
  · split <;> rfl

theorem State.startLeg_slot (s : State) (c : Connection) (n : Nat) :
    (s.startLeg c).slot n = s.slot n := by
  unfold State.startLeg
  split
  · rfl
  · split <;> rfl

theorem LegState.started_direction (l : LegState) (seed : Word16) :
    (l.started seed).direction = l.direction := by cases l <;> rfl

theorem LegState.started_isWaiting (l : LegState) (seed : Word16) :
    (l.started seed).isWaiting = false := by cases l <;> rfl

/-- A record with the changes of its promotion (R102). -/
def Connection.promotedBy (id : Nat) (c : Connection) : Connection :=
  if c.id == id then { c with live := true } else c

theorem Connection.promotedBy_privacy (id : Nat) (c : Connection) :
    (c.promotedBy id).privacy = c.privacy := by
  unfold Connection.promotedBy
  split <;> rfl

/-- The id and the privacy part of a record, which no frame start changes. -/
def Connection.holding (c : Connection) : Nat × Option PrivacyPart := (c.id, c.privacy)

/-- A record becomes LIVE, and its leg, if it has one, starts (R102, R135). -/
def State.recordStarted (s : State) (c : Connection) : State :=
  (s.mapConnection c.id fun d => { d with live := true }).startLeg c

theorem State.recordStarted_connections (s : State) (c : Connection) :
    (s.recordStarted c).connections = s.connections.map (Connection.promotedBy c.id) :=
  State.startLeg_connections _ c

theorem State.recordStarted_key (s : State) (c : Connection) (k : Nat) :
    (s.recordStarted c).key k = s.key k := State.startLeg_key _ c k

theorem State.recordStarted_slot (s : State) (c : Connection) (n : Nat) :
    (s.recordStarted c).slot n = s.slot n := State.startLeg_slot _ c n

theorem State.recordStarted_leg (s : State) (c : Connection) (n : Nat) :
    (s.recordStarted c).leg n =
      if (c.privacy.map (·.leg)) = some n then (s.leg n).map s.legStarted else s.leg n :=
  State.startLeg_leg _ c n

/-- The law of the record whose leg starts: it is LIVE, and its leg does not wait (R133, R135). -/
theorem PartLaw.started {s : State} {d : Connection} {part : PrivacyPart} (h : PartLaw s d part)
    {c : Connection} (hid : d.id = c.id) (hc : c.privacy = some part) :
    PartLaw (s.recordStarted c) (d.promotedBy c.id) part := by
  have hlive : d.promotedBy c.id = { d with live := true } := by
    simp [Connection.promotedBy, hid]
  have htie : ∀ e, (s.recordStarted c).isTie e = s.isTie e := fun e =>
    State.isTie_congr fun _ => s.recordStarted_slot c _
  obtain ⟨hkeyLt, hlegLt, hloaded, ⟨leg, hheld, hkey, hdirection, -⟩, hdestination, hsource⟩ := h
  rw [hlive]
  unfold PartLaw
  rw [State.recordStarted_key, htie, htie]
  refine ⟨hkeyLt, hlegLt, hloaded, ⟨s.legStarted leg, ?_, hkey, ?_, ?_⟩, hdestination, hsource⟩
  · rw [State.recordStarted_leg, hc, Option.map_some, if_pos rfl, hheld, Option.map_some]
  · exact (leg.state.started_direction _).trans hdirection
  · exact leg.state.started_isWaiting _

/-- The start of the leg of a record of the table keeps the law (R102, R135). -/
theorem PrivacyLaw.recordStarted {s : State} (ht : TableLaw s) (h : PrivacyLaw s) {c : Connection}
    (hc : c.holding ∈ s.connections.map Connection.holding) : PrivacyLaw (s.recordStarted c) := by
  obtain ⟨own, hown, hholding⟩ := List.mem_map.1 hc
  obtain ⟨hid, hprivacy⟩ := Prod.mk.inj hholding
  obtain ⟨hids, -, -⟩ := ht
  refine h.of_map (s.recordStarted_connections c) (Connection.promotedBy_privacy _)
    (s.recordStarted_key c) (fun n hn => ?_) fun d hd part hm hp => ?_
  · rw [State.recordStarted_leg, hn, Option.map_none, ite_self]
  · by_cases heq : d = own
    · subst heq
      exact hp.started hid (hprivacy.symm.trans hm)
    · have hne : d.id ≠ c.id := fun hdc => heq (eq_of_id_eq hids hd hown (hdc.trans hid.symm))
      have hstill : d.promotedBy c.id = d := by simp [Connection.promotedBy, hne]
      rw [hstill]
      refine hp.of_slots (s.recordStarted_slot c) (by rw [State.recordStarted_key]) ?_
      rw [State.recordStarted_leg, if_neg]
      rw [← hprivacy, Option.map_eq_some_iff]
      rintro ⟨part', hpart', hleg⟩
      exact h.leg_ne hd hown heq hm hpart' hleg.symm

/-- A watch that examines a record writes itself, and may mark the record trace-held (R162, R163). -/
theorem PrivacyLaw.examine {w : Work} (h : PrivacyLaw w.state) (c : Connection) (n : Nat) :
    PrivacyLaw (w.examine c n).state := by
  unfold Work.examine
  split
  · split
    · have hset : ∀ v, PrivacyLaw (w.state.setWatch n v) := fun _ => h.of_eq rfl rfl rfl rfl
      dsimp only
      split
      · exact (hset _).mapTraceHeld _ _
      · exact hset _
    · exact h
  · exact h
  · exact h

theorem PrivacyLaw.foldl_examine {w : Work} (h : PrivacyLaw w.state) (c : Connection)
    (ns : List Nat) : PrivacyLaw (ns.foldl (fun w n => w.examine c n) w).state := by
  induction ns generalizing w with
  | nil => exact h
  | cons n ns ih => exact ih (h.examine c n)

theorem State.mapConnection_holding (s : State) (id : Nat) {f : Connection → Connection}
    (hf : ∀ c, (f c).holding = c.holding) :
    (s.mapConnection id f).connections.map Connection.holding
      = s.connections.map Connection.holding := by
  simp only [State.mapConnection, List.map_map]
  refine List.map_congr_left fun c _ => ?_
  by_cases h : c.id = id <;> simp [h, hf]

theorem Work.examine_holding (w : Work) (c : Connection) (n : Nat) :
    (w.examine c n).state.connections.map Connection.holding
      = w.state.connections.map Connection.holding := by
  unfold Work.examine
  split
  · split
    · dsimp only
      split
      · refine State.mapConnection_holding _ _ ?_
        exact fun _ => rfl
      · rfl
    · rfl
  · rfl
  · rfl

/-- A promotion changes no record's id or privacy part (R102). -/
theorem Work.promote_holding (w : Work) (c : Connection) :
    (w.promote c).state.connections.map Connection.holding
      = w.state.connections.map Connection.holding := by
  have hexamined : ∀ (ns : List Nat) (w : Work),
      (ns.foldl (fun w n => w.examine c n) w).state.connections.map Connection.holding
        = w.state.connections.map Connection.holding := by
    intro ns
    induction ns with
    | nil => exact fun _ => rfl
    | cons n ns ih => exact fun w => (ih _).trans (w.examine_holding c n)
  unfold Work.promote
  rw [hexamined]
  simp only [Work.update_state, State.startLeg_connections]
  refine State.mapConnection_holding _ _ ?_
  exact fun _ => rfl

theorem PrivacyLaws.promote {w : Work} (hw : PrivacyLaws w.state) {c : Connection}
    (hc : c.holding ∈ w.state.connections.map Connection.holding) :
    PrivacyLaws (w.promote c).state :=
  ⟨hw.1.of_shrinks (w.promote_recedes c).connections,
    PrivacyLaw.foldl_examine (PrivacyLaw.recordStarted hw.1 hw.2 hc) c _⟩

theorem PrivacyLaws.foldl_promote {cs : List Connection} {w : Work} (hw : PrivacyLaws w.state)
    (hcs : ∀ c ∈ cs, c.holding ∈ w.state.connections.map Connection.holding) :
    PrivacyLaws (cs.foldl Work.promote w).state := by
  induction cs generalizing w with
  | nil => exact hw
  | cons c cs ih =>
    refine ih (hw.promote (hcs c (by simp))) fun d hd => ?_
    rw [Work.promote_holding]
    exact hcs d (by simp [hd])

/-- A record carries its sample: its leg goes on in its direction (R103, R136 to R141). -/
theorem PrivacyLaws.carry {w : Work} (hw : PrivacyLaws w.state) (c : Connection) :
    PrivacyLaws (w.carry c).state := by
  refine ⟨hw.1.of_shrinks (.of_eq (w.carry_connections c)), ?_⟩
  unfold Work.carry
  split
  · exact hw.2.of_eq rfl rfl rfl rfl
  · split
    · exact hw.2.of_eq rfl rfl rfl rfl
    · rename_i leg hleg
      rw [Work.raiseAll_state]
      exact (hw.2.setLegState hleg (legFrame_direction _ _ _ _)
        (legFrame_isWaiting _ _ _ _)).of_eq rfl rfl rfl rfl

theorem PrivacyLaws.foldl_carry {cs : List Connection} {w : Work} (hw : PrivacyLaws w.state) :
    PrivacyLaws (cs.foldl Work.carry w).state := by
  induction cs generalizing w with
  | nil => exact hw
  | cons c cs ih => exact ih (hw.carry c)

theorem frameStart_keepsPrivacy : KeepingRow PrivacyLaws .frameStart := by
  intro s t hs h
  change execFrameStart s = _ at h
  unfold execFrameStart at h
  obtain rfl := Host.Outcome.next.inj h
  have hopened : PrivacyLaws (Work.start s.openFrame).state := hs.of_eq rfl rfl rfl rfl
  refine PrivacyLaws.keptByReleases.finish (PrivacyLaws.foldl_carry (hopened.foldl_promote ?_))
  exact fun c hc => List.mem_map_of_mem (List.mem_of_mem_filter hc)

/-! ### Every command -/

theorem PrivacyLaws.reset : PrivacyLaws State.reset := ⟨TableLaw.reset, PrivacyLaw.reset⟩

theorem privacyLaws_writes {i : Instr} (hi : WritesCalls i) : KeepingRow PrivacyLaws i := by
  obtain ⟨hrestart, hpower, hpin⟩ := PrivacyLaws.keptByReleases.coldRows PrivacyLaws.reset
  cases i
  case connect => exact connect_keepsPrivacy
  case setTrunk => exact setTrunk_keepsPrivacy
  case setGroup => exact setGroup_keepsPrivacy
  case loadKey => exact loadKey_keepsPrivacy
  case eraseKey => exact eraseKey_keepsPrivacy
  case resync => exact resync_keepsPrivacy
  case armWatch => exact armWatch_keepsPrivacy
  case disarmWatch => exact disarmWatch_keepsPrivacy
  case clearTrace => exact clearTrace_keepsPrivacy
  case releaseHold => exact releaseHold_keepsPrivacy
  case restartCold => exact hrestart
  case frameStart => exact frameStart_keepsPrivacy
  case powerOn => exact hpower
  case resetPin => exact hpin
  all_goals exact hi.elim

/-- Settles O55: the law stands under releases, and each row of `privacyLaws_writes` keeps it. -/
theorem everyStepKeepsKeysAndLegsWithTheirRecords :
    Obligations.EveryStepKeepsKeysAndLegsWithTheirRecords := by
  unfold Obligations.EveryStepKeepsKeysAndLegsWithTheirRecords
  intro s t hs h
  exact (PrivacyLaws.keptByReleases.step (fun _ => privacyLaws_writes) hs h).2

end Sys2Proof.Machine
end

section
/-! SUPPORT. The orders on key contexts, O36 (R76, R129, R130, R131). -/

namespace Sys2Proof.Machine

/-! ### What the orders store and report -/

/-- R76, as the statements write it. -/
theorem forceOdd_eq (c : Word16) : forceOdd c = if c.toNat % 2 = 1 then c else c + 1 := by
  unfold forceOdd
  rw [BitVec.getLsbD, Nat.testBit_zero]
  simp only [decide_eq_true_eq]

theorem keyStateCode_eq (material : Option KeyMaterial) :
    keyStateCode material = if material = none then 0 else 1 := by
  cases material <;> rfl

/-- The context that a LOAD KEY stores, by its parameters (R76, R129). -/
theorem loadedKey_eq (n a b c d marker confirm loss : Byte) :
    loadedKey [n, a, b, c, d, marker, confirm, loss] =
      { material := some
          { seed := a ++ b
            increment := if (c ++ d : Word16).toNat % 2 = 1 then c ++ d else (c ++ d) + 1 }
        confirmCount := if marker = 1 then max 2 (min 4 confirm.toNat) else 2
        lossLimit := if marker = 1 then max 2 (min 8 loss.toNat) else 3
        useCount := 0 } := by
  rw [← forceOdd_eq, ← clampTo_eq, ← clampTo_eq]
  unfold loadedKey flagSet
  simp only [beq_iff_eq]
  rfl

/-- The free legs counted by their numbers (R131). -/
theorem State.freeLegCount_eq (s : State) :
    s.freeLegCount = (List.range 64).countP fun m => (s.leg m).isNone := by
  have hlegs : s.legs.toList = (List.range 64).map s.leg := by
    refine List.ext_getElem (by simp) fun n hn hn' => ?_
    have hlt : n < 64 := by simpa using hn
    simp [State.leg, hlt]
  rw [State.freeLegCount, hlegs, List.countP_map]
  rfl

/-! ### What the orders leave -/

/-- What an order on a key context leaves: it is refused on an index above 31 and on a context in use
(R129, R130). -/
theorem State.replied_onFreeKey {s t : State} {p : Port} {o : OrderRecord} {index : Nat}
    {own : Answer}
    (h : ¬0 < (s.key index).useCount → (s.taken p).replied p o own = t) :
    (s.taken p).replied p o (onFreeKey index (s.taken p) own) =
      if 31 < index then s.refusal p o.code o.tag .range []
      else if 0 < (s.key index).useCount then s.refusal p o.code o.tag .inUse []
      else t := by
  unfold onFreeKey
  refine State.replied_ite (by simp) rfl fun _ => ?_
  exact State.replied_ite (by simp) rfl h

theorem loadKey_of_takes {s : State} {p : Port} {tag n a b c d marker confirm loss : Byte}
    (ht : s.Takes p (queuedOrder 0x50 tag [n, a, b, c, d, marker, confirm, loss]))
    (hp : s.HolderAt p) (hmarker : marker.toNat ≤ 1) {key : KeyContext}
    (hkey : loadedKey [n, a, b, c, d, marker, confirm, loss] = key) :
    exec .loadKey s = .next (
      if 31 < n.toNat then s.refusal p 0x50 tag .range []
      else if 0 < (s.key n.toNat).useCount then s.refusal p 0x50 tag .inUse []
      else s.done p 0x50 tag
        [n, 1, byteOf key.confirmCount, byteOf key.lossLimit, 0,
          keyStateCode (s.key n.toNat).material]
        fun t => t.setKey n.toNat key) := by
  subst hkey
  refine exec_of_answer execLoadKey (fun _ => rfl) (fun _ => rfl) ht rfl rfl
    ((isFlag_iff _ 5).2 hmarker) (authorityCheck_holder hp) ?_
  refine State.replied_onFreeKey fun _ => ?_
  simp only [param1, paramByte, List.getD_cons_zero, byteOf_toNat, State.taken_key]
  rfl

theorem eraseKey_of_takes {s : State} {p : Port} {tag n : Byte}
    (ht : s.Takes p (queuedOrder 0x51 tag [n])) (hp : s.HolderAt p) :
    exec .eraseKey s = .next (
      if 31 < n.toNat then s.refusal p 0x51 tag .range []
      else if 0 < (s.key n.toNat).useCount then s.refusal p 0x51 tag .inUse []
      else s.done p 0x51 tag [n, keyStateCode (s.key n.toNat).material] fun t =>
        t.setKey n.toNat ⟨none, 2, 3, 0⟩) := by
  refine exec_of_answer execEraseKey (fun _ => rfl) (fun _ => rfl) ht rfl rfl rfl
    (authorityCheck_holder hp) ?_
  refine State.replied_onFreeKey fun hunused => ?_
  have hzero : (s.key n.toNat).useCount = 0 := Nat.eq_zero_of_not_pos hunused
  simp only [param1, paramByte, List.getD_cons_zero, byteOf_toNat, State.taken_key, hzero]
  rfl

theorem lookKey_of_takes {s : State} {p : Port} {tag n : Byte}
    (ht : s.Takes p (queuedOrder 0x52 tag [n])) :
    exec .lookKey s = .next (
      if 31 < n.toNat then s.refusal p 0x52 tag .range []
      else s.done p 0x52 tag
        [n, keyStateCode (s.key n.toNat).material, byteOf (s.key n.toNat).confirmCount,
          byteOf (s.key n.toNat).lossLimit, byteOf (s.key n.toNat).useCount,
          byteOf s.freeLegCount] fun t => t) := by
  refine exec_of_answer execLookKey (fun _ => rfl) (fun _ => rfl) ht rfl rfl rfl rfl ?_
  refine State.replied_ite (by simp [param1, paramByte]) rfl fun _ => ?_
  have hfree : (s.taken p).freeLegCount = s.freeLegCount := by
    simp only [State.freeLegCount, State.taken_legs]
  simp only [param1, paramByte, List.getD_cons_zero, byteOf_toNat, State.taken_key, hfree]
  rfl

/-- Settles O36: each order by its own lemma, its fields and its context as the statement writes them. -/
theorem keyOrdersChangeOneFreeContext : Obligations.KeyOrdersChangeOneFreeContext := by
  unfold Obligations.KeyOrdersChangeOneFreeContext
  intro s p tag n a b c d marker confirm loss
  simp only [← keyStateCode_eq, ← State.freeLegCount_eq]
  exact ⟨fun ht hp hmarker => loadKey_of_takes ht hp hmarker (loadedKey_eq ..),
    eraseKey_of_takes, lookKey_of_takes⟩

end Sys2Proof.Machine
end

section
/-! SUPPORT. Keystream Arithmetic: the full period of the generator, O46, one period of a RUNNING leg,
O47, and two legs in step, O48 (R74 to R83, R136, R139, R140). -/

namespace Sys2Proof.Machine

/-! ### The generator is one-to-one (R74) -/

theorem generatorStep_eq_ofNat (c s : Word16) :
    generatorStep c s = BitVec.ofNat 16 (5 * s.toNat + c.toNat) := by
  apply BitVec.eq_of_toNat_eq
  rw [generatorStep_toNat, BitVec.toNat_ofNat]

/-- 5 is odd, so that its multiples modulo 65536 are different. -/
theorem generatorStep_injective (c : Word16) : Function.Injective (generatorStep c) := by
  intro s s' h
  have hnat := congrArg BitVec.toNat h
  rw [generatorStep_toNat, generatorStep_toNat] at hnat
  have hs := s.isLt
  have hs' := s'.isLt
  exact BitVec.eq_of_toNat_eq (by omega)

theorem generatorStep_surjective (c : Word16) : Function.Surjective (generatorStep c) :=
  Finite.surjective_of_injective (generatorStep_injective c)

/-! ### The period (R74) -/

/-- The number 4 s + c, which a step multiplies by 5 modulo 2 to the power 18. -/
def generatorPhase (c s : Word16) : Nat := 4 * s.toNat + c.toNat

theorem generatorPhase_step (c s : Word16) :
    generatorPhase c (generatorStep c s) ≡ 5 * generatorPhase c s [MOD 262144] := by
  unfold generatorPhase Nat.ModEq
  rw [generatorStep_toNat]
  omega

theorem generatorPhase_iterate (c s : Word16) (n : Nat) :
    generatorPhase c ((generatorStep c)^[n] s) ≡ 5 ^ n * generatorPhase c s [MOD 262144] := by
  induction n with
  | zero => simp [Nat.ModEq.refl]
  | succ n ih =>
    rw [Function.iterate_succ_apply', pow_succ' 5 n, mul_assoc]
    exact (generatorPhase_step c _).trans (ih.mul_left 5)

/-- A power of 5 that is 1 modulo 2 to the power 18 has an exponent that 2 to the power 16 divides. -/
theorem dvd_of_five_pow_sub_one {n : Nat} (h : 262144 ∣ 5 ^ n - 1) : 65536 ∣ n := by
  have hlift : emultiplicity 2 ((5 : ℤ) ^ n - 1 ^ n)
      = emultiplicity 2 ((5 : ℤ) - 1) + emultiplicity (2 : ℤ) n :=
    Int.two_pow_sub_pow' n (by norm_num) (by norm_num)
  have hfour : emultiplicity 2 ((5 : ℤ) - 1) = 2 := by
    rw [show (5 : ℤ) - 1 = 2 ^ 2 by norm_num, emultiplicity_pow_self_of_prime Int.prime_two]
    rfl
  have hpow : (2 : ℤ) ^ 18 ∣ 5 ^ n - 1 ^ n := by
    have := Int.natCast_dvd_natCast.2 h
    rw [Nat.cast_sub (Nat.one_le_pow _ _ (by norm_num))] at this
    simpa using this
  have hsum : (2 : ℕ∞) + 16 ≤ 2 + emultiplicity (2 : ℤ) n := by
    rw [hfour] at hlift
    rw [← hlift]
    exact le_emultiplicity_of_pow_dvd hpow
  have hsixteen : (16 : ℕ∞) ≤ emultiplicity (2 : ℤ) n :=
    (ENat.add_le_add_iff_left (by decide)).1 hsum
  have hdvd : (2 : ℤ) ^ 16 ∣ n := pow_dvd_of_le_emultiplicity hsixteen
  exact_mod_cast hdvd

/-- For an odd increment, no state returns before 65536 steps. -/
theorem generatorStep_iterate_ne {c : Word16} (hc : c.getLsbD 0 = true) (s : Word16) {n : Nat}
    (hpos : 0 < n) (hlt : n < 65536) : (generatorStep c)^[n] s ≠ s := by
  intro hreturn
  have hphase := generatorPhase_iterate c s n
  rw [hreturn] at hphase
  have hodd : generatorPhase c s % 2 = 1 := by
    rw [BitVec.getLsbD, Nat.testBit_zero, decide_eq_true_eq] at hc
    unfold generatorPhase
    omega
  have hcoprime : Nat.Coprime (2 ^ 18) (generatorPhase c s) :=
    Nat.Coprime.pow_left _ (Nat.coprime_two_left.2 (Nat.odd_iff.2 hodd))
  have hone : 1 ≡ 5 ^ n [MOD 262144] := by
    refine Nat.ModEq.cancel_right_of_coprime (c := generatorPhase c s) hcoprime ?_
    rwa [one_mul]
  have hdvd : 65536 ∣ n := dvd_of_five_pow_sub_one
    ((Nat.modEq_iff_dvd' (Nat.one_le_pow _ _ (by norm_num))).1 hone)
  exact absurd (Nat.le_of_dvd hpos hdvd) (Nat.not_le.2 hlt)

/-- The first 65536 states from any state are different, so they are all states. -/
theorem generatorStep_iterate_surjective {c : Word16} (hc : c.getLsbD 0 = true) (s s' : Word16) :
    ∃ n, n < 65536 ∧ (generatorStep c)^[n] s = s' := by
  have hinjective : Function.Injective fun n : Fin (2 ^ 16) =>
      ((generatorStep c)^[n.val] s).toFin := by
    have hle : ∀ m n : Fin (2 ^ 16), (generatorStep c)^[m.val] s = (generatorStep c)^[n.val] s →
        ¬m.val < n.val := fun m n heq hlt => by
      have hsplit : n.val = m.val + (n.val - m.val) := by omega
      rw [hsplit, Function.iterate_add_apply] at heq
      have hlast := n.isLt
      exact generatorStep_iterate_ne hc s (by omega) (by omega)
        ((generatorStep_injective c).iterate m.val heq).symm
    intro m n heq
    have heq' : (generatorStep c)^[m.val] s = (generatorStep c)^[n.val] s :=
      BitVec.eq_of_toFin_eq heq
    exact Fin.ext (le_antisymm (Nat.not_lt.1 (hle n m heq'.symm)) (Nat.not_lt.1 (hle m n heq')))
  obtain ⟨n, hn⟩ := Finite.injective_iff_surjective.1 hinjective s'.toFin
  exact ⟨n.val, n.isLt, BitVec.eq_of_toFin_eq hn⟩

/-- Settles O46: the steps from one state are all different until the 65536th. -/
theorem generatorPassesThroughEveryState : Obligations.GeneratorPassesThroughEveryState := by
  unfold Obligations.GeneratorPassesThroughEveryState
  refine ⟨fun c hc => ⟨generatorStep_eq_ofNat c, fun _ _ h => generatorStep_injective c h,
    generatorStep_surjective c, generatorStep_iterate_surjective hc,
    fun s n => generatorStep_iterate_ne hc s⟩, fun _ _ => loadedKey_increment_odd,
    fun u => forceOdd_odd u⟩

/-! ### One period of a RUNNING leg (R75, R77, R78, R80, R136) -/

theorem KeyContext.use_of_material {key : KeyContext} {m : KeyMaterial}
    (h : key.material = some m) : key.use = m := by
  unfold KeyContext.use
  rw [h, Option.getD_some]

theorem scramble_eq_ofNat (x : Byte) (w : Word16) :
    scramble x (keystreamByte w) = BitVec.ofNat 8 (x.toNat + w.toNat / 256) := by
  apply BitVec.eq_of_toNat_eq
  rw [scramble_toNat, keystreamByte_toNat, BitVec.toNat_ofNat]

/-- The period number at a position of a period, with position 0 of the next as its position 256. -/
def periodAt (q : Byte) (p : Nat) : Byte := if p = 256 then q + 1 else q

theorem nextPeriod_ofNat (q : Byte) {p : Nat} (h : p < 256) :
    nextPeriod q (BitVec.ofNat 8 p) = periodAt q (p + 1) := by
  have hlast : BitVec.ofNat 8 p = 255 ↔ p + 1 = 256 := by
    rw [← BitVec.toNat_inj, BitVec.toNat_ofNat]
    change p % 256 = 255 ↔ _
    omega
  simp only [nextPeriod, periodAt, hlast]

theorem nextPosition_ofNat (p : Nat) :
    nextPosition (BitVec.ofNat 8 p) = BitVec.ofNat 8 (p + 1) := by
  apply BitVec.eq_of_toNat_eq
  simp [nextPosition, BitVec.toNat_add]

/-- One sample of a RUNNING leg past position 0 (R136). -/
theorem legFrame_running_ofNat (key : KeyContext) (mute q : Byte) {p : Nat} (hp : 0 < p)
    (hlt : p < 256) (w : Word16) (x : Byte) :
    legFrame key mute (.running (periodAt q p) (BitVec.ofNat 8 p) w) x =
      { state := .running (periodAt q (p + 1)) (BitVec.ofNat 8 (p + 1))
          (generatorStep key.use.increment w)
        sample := scramble x (keystreamByte (generatorStep key.use.increment w))
        locked := none
        lost := none } := by
  have hne : BitVec.ofNat 8 p ≠ 0 := fun h => by
    have hmod : p % 256 = 0 := congrArg BitVec.toNat h
    omega
  have hperiod : periodAt q p = q := if_neg hlt.ne
  rw [legFrame_running, scrambleFrame_ne hne, hperiod, nextPeriod_ofNat q hlt, nextPosition_ofNat]

/-- A RUNNING leg past position 0, to the end of its period at most: each sample is scrambled with the
next state, and the positions advance (R136). -/
theorem legRun_running (key : KeyContext) (mute q : Byte) (ys : List Byte) {p : Nat} (w : Word16)
    (hp : 0 < p) (hend : p + ys.length ≤ 256) :
    (∀ i, i < ys.length →
      (legRun key mute (.running (periodAt q p) (BitVec.ofNat 8 p) w) ys).1.getD i 0
        = scramble (ys.getD i 0) (keystreamByte ((generatorStep key.use.increment)^[i + 1] w)))
      ∧ (legRun key mute (.running (periodAt q p) (BitVec.ofNat 8 p) w) ys).2 =
        .running (periodAt q (p + ys.length)) (BitVec.ofNat 8 (p + ys.length))
          ((generatorStep key.use.increment)^[ys.length] w) := by
  induction ys generalizing p w with
  | nil => exact ⟨nofun, rfl⟩
  | cons y ys ih =>
    rw [List.length_cons] at hend
    obtain ⟨hsamples, hstate⟩ := ih (p := p + 1) (generatorStep key.use.increment w) (by omega)
      (by omega)
    rw [legRun_cons, legFrame_running_ofNat key mute q hp (by omega)]
    refine ⟨fun i hi => ?_, ?_⟩
    · cases i with
      | zero => rfl
      | succ i => exact hsamples i (Nat.lt_of_succ_lt_succ hi)
    · rw [List.length_cons, Nat.add_comm ys.length 1, ← Nat.add_assoc, Nat.add_comm 1 ys.length]
      exact hstate

/-- Settles O47: position 0 sends the period number and seeds the generator; the other 255 positions are
`legRun_running`. -/
theorem scrambleLegFollowsItsPeriodSeed : Obligations.ScrambleLegFollowsItsPeriodSeed := by
  unfold Obligations.ScrambleLegFollowsItsPeriodSeed
  intro key m mute q s xs hkey hlength
  dsimp only
  obtain ⟨x, ys, rfl⟩ := List.exists_cons_of_length_pos (hlength ▸ (by decide : 0 < 256))
  have hys : ys.length = 255 := Nat.succ.inj hlength
  obtain ⟨hsamples, hstate⟩ := legRun_running key mute q ys (p := 1) (periodSeed m.seed q)
    Nat.one_pos (by omega)
  have huse := KeyContext.use_of_material hkey
  have hfirst : legRun key mute (.running q 0 s) (x :: ys) =
      (q :: (legRun key mute (.running q 1 (periodSeed m.seed q)) ys).1,
        (legRun key mute (.running q 1 (periodSeed m.seed q)) ys).2) := by
    rw [legRun_cons, legFrame_running, huse, scrambleFrame_zero]
  rw [huse, hys] at hsamples hstate
  refine ⟨(legRun_length key mute _ _).trans hlength, by rw [hfirst]; rfl, fun j hj hlast => ?_, ?_⟩
  · obtain ⟨i, rfl⟩ := Nat.exists_eq_add_of_le' hj
    rw [← scramble_eq_ofNat, hfirst]
    exact hsamples i (by omega)
  · rw [hfirst]
    exact hstate

/-! ### Two legs in step (R81, R139, R140) -/

/-- One frame of two legs in step: they stay in step, the sample comes back but at position 0, and the
lock is not lost. -/
theorem legFrame_inStep {near far : KeyContext} {m : KeyMaterial} (hnear : near.material = some m)
    (hfar : far.material = some m) (mute mute' q j : Byte) (s : Word16) (misses : Nat)
    (last x : Byte) :
    ∃ q' s' misses', (legFrame far mute' (.running q j s) x).state = .running q' (j + 1) s'
      ∧ legFrame near mute (.synced q j s misses last)
          (legFrame far mute' (.running q j s) x).sample =
        { state := .synced q' (j + 1) s' misses' (if j = 0 then last else x)
          sample := if j = 0 then last else x
          locked := none
          lost := none } := by
  have huse := KeyContext.use_of_material hnear
  have huse' := KeyContext.use_of_material hfar
  by_cases hj : j = 0
  · subst hj
    refine ⟨q, periodSeed m.seed q, 0, ?_, ?_⟩
    · rw [legFrame_running, huse', scrambleFrame_zero]
      rfl
    · rw [legFrame_running, scrambleFrame_zero, legFrame_synced_zero, syncFrame_hit, huse]
      rfl
  · refine ⟨nextPeriod q j, generatorStep m.increment s, misses, ?_, ?_⟩
    · rw [legFrame_running, huse', scrambleFrame_ne hj]
      rfl
    · rw [legFrame_running, scrambleFrame_ne hj, legFrame_synced_ne _ _ hj, huse, huse',
        if_neg hj]
      simp only [unscrambleFrame, unscramble_scramble]
      rfl

/-- Settles O48, by induction on the samples: frame after frame the legs stay in step. -/
theorem legsInStepRecoverTheVoice : Obligations.LegsInStepRecoverTheVoice := by
  unfold Obligations.LegsInStepRecoverTheVoice
  intro near far m mute mute' q j s misses last xs hnear hfar
  dsimp only
  induction xs generalizing q j s misses last with
  | nil => exact ⟨rfl, q, j, s, misses, last, rfl, rfl⟩
  | cons x xs ih =>
    obtain ⟨q', s', misses', hsent, hreceived⟩ :=
      legFrame_inStep hnear hfar mute mute' q j s misses last x
    obtain ⟨hheard, hstep⟩ := ih q' (j + 1) s' misses' (if j = 0 then last else x)
    simp only [legRun_cons, hsent, hreceived, heard, hheard]
    exact ⟨trivial, hstep⟩

end Sys2Proof.Machine
end

section
/-! SUPPORT. The RESTARTING period: what each command does to it, and O60 (R53, R109, R170 to R174). -/

namespace Sys2Proof.Machine

/-! ### The period stands -/

/-- t has what the laws of the RESTARTING period read of s. -/
structure SamePeriod (s t : State) : Prop where
  restart : t.restart = s.restart
  mastership : t.mastership = s.mastership
  stations : t.stations = s.stations
  connections : t.connections = s.connections
  since : t.restartSince = s.restartSince
  pin : t.resetPin = s.resetPin
  clock : t.clock = s.clock

theorem SamePeriod.refl (s : State) : SamePeriod s s := ⟨rfl, rfl, rfl, rfl, rfl, rfl, rfl⟩

theorem OnlyPorts.samePeriod {s t : State} (h : OnlyPorts s t) : SamePeriod s t := by
  unfold OnlyPorts at h
  rw [h]
  exact ⟨rfl, rfl, rfl, rfl, rfl, rfl, rfl⟩

/-- Work on legs, watches and outgoing samples that leaves the records (R103). -/
theorem OnlyFrames.samePeriod {s t : State} (h : OnlyFrames s t)
    (hc : t.connections = s.connections) : SamePeriod s t := by
  unfold OnlyFrames at h
  rw [h]
  exact ⟨rfl, rfl, rfl, hc, rfl, rfl, rfl⟩

theorem SamePeriod.trans {s t u : State} (h : SamePeriod s t) (h' : SamePeriod t u) :
    SamePeriod s u where
  restart := h'.restart.trans h.restart
  mastership := h'.mastership.trans h.mastership
  stations := h'.stations.trans h.stations
  connections := h'.connections.trans h.connections
  since := h'.since.trans h.since
  pin := h'.pin.trans h.pin
  clock := h'.clock.trans h.clock

/-- What a command does to the RESTARTING period. -/
inductive PeriodStep (s : State) : State → Prop
  /-- No restart is in progress after it. -/
  | ended {t : State} (h : t.restart = none) : PeriodStep s t
  /-- The period stands as it was. -/
  | stands {t : State} (h : SamePeriod s t) : PeriodStep s t
  /-- A cold restart begins (R170). -/
  | cold (u : State) (cause : RestartCause) : PeriodStep s (u.startCold cause)
  /-- A call-keeping restart begins (R170). -/
  | keep (u : State) (cause : RestartCause) : PeriodStep s (u.startKeep cause)
  /-- The reset pin is asserted (R170). -/
  | pin (u : State) : PeriodStep s { u.startCold .pin with resetPin := true }
  /-- The reset pin is released, and the period measured from here (R170). -/
  | release : PeriodStep s s.releasePin

/-! ### The commands, in the period and out of it -/

/-- A command that leaves the restart, and stands the period if there is one. -/
theorem PeriodStep.of_standing {s t : State} (hrestart : t.restart = s.restart)
    (h : s.restart ≠ none → SamePeriod s t) : PeriodStep s t := by
  by_cases hs : s.restart = none
  · exact .ended (hrestart.trans hs)
  · exact .stands (h hs)

theorem OnlyPosts.restart {s t : State} (h : OnlyPosts s t) : t.restart = s.restart := by
  obtain ⟨w, ⟨hrestart, -⟩, rfl⟩ := h
  rw [Work.finish, State.postAll_restart, hrestart]

theorem State.restarting_of_ne {s : State} (hr : s.restart ≠ none) : s.restarting = true :=
  Option.isSome_iff_ne_none.2 hr

/-- During RESTARTING no position is heard (R54). -/
theorem State.hears_restarting {s : State} (hr : s.restart ≠ none) (n : Nat) :
    s.hears n = false := by
  simp [State.hears, State.restarting_of_ne hr]

theorem RestartLaw.of_ne {s : State} (h : RestartLaw s) (hr : s.restart ≠ none) :
    s.mastership = .vacant
      ∧ (∀ n, ((s.station n).state = .vacant ∨ (s.station n).state = .locked
          ∨ ∃ identity, (s.station n).state = .admitted identity)
        ∧ (s.station n).slot = none ∧ (s.station n).deliver = [])
      ∧ (∀ c ∈ s.connections, c.live = true) ∧ (s.restart = some .cold → s.connections = []) :=
  h (Option.isSome_iff_ne_none.2 hr)

/-- With no PENDING record a frame start promotes nothing and leaves the records (R102). -/
theorem frameStart_samePeriod {s t : State} (hlive : ∀ c ∈ s.connections, c.live = true)
    (h : execFrameStart s = .next t) : SamePeriod s t := by
  have hnone : s.openFrame.connections.filter (fun c => !c.live) = [] :=
    List.filter_eq_nil_iff.2 fun c hc => by simp [hlive c hc]
  have hpromoted : (Work.start s.openFrame).promoteAll = Work.start s.openFrame := by
    rw [Work.promoteAll, Work.start_state, hnone]
    rfl
  have hopened : SamePeriod s s.openFrame := ⟨rfl, rfl, rfl, rfl, rfl, rfl, rfl⟩
  have hcarried : ∀ (cs : List Connection) (w : Work),
      (cs.foldl Work.carry w).state.connections = w.state.connections := fun cs => by
    induction cs with
    | nil => exact fun _ => rfl
    | cons c cs ih => exact fun w => (ih _).trans (w.carry_connections c)
  obtain rfl := Host.Outcome.next.inj h
  rw [hpromoted]
  exact (hopened.trans ((Work.carryAll_onlyFrames (Work.start s.openFrame)).samePeriod
    (hcarried _ _))).trans (Work.finish_onlyPorts _).samePeriod

/-- What a station, the line interface, a deadline or the frame clock makes happen during RESTARTING
(R54, R172). -/
theorem exec_callSide_samePeriod {i : Instr} (hi : IsCallSideCommand i) {s t : State}
    (hs : RestartLaw s) (hr : s.restart ≠ none) (h : exec i s = .next t) : SamePeriod s t := by
  obtain ⟨-, hstations, hlive, -⟩ := hs.of_ne hr
  have hrestarting := State.restarting_of_ne hr
  have hdeaf := fun n => State.hears_restarting hr n
  have hstays : exec i s = .next s → SamePeriod s t := fun h' => by
    obtain rfl := Host.Outcome.next.inj (h'.symm.trans h)
    exact .refl _
  cases i
  case register n identity => exact hstays (if_neg (by simp [hdeaf]))
  case answer n response => exact hstays (if_neg (by simp [hdeaf]))
  case leave n => exact hstays (if_neg (by simp [hdeaf]))
  case signal n bytes => exact hstays (if_neg (by simp [hdeaf]))
  case unfitStationMessage => exact hstays rfl
  case babble n => exact hstays (if_pos (by simp [hrestarting]))
  case linkUp n => exact hstays (if_pos hrestarting)
  case linkDown n => exact hstays (if_pos hrestarting)
  case beginSend n => exact hstays (if_neg (by simp [State.channelReady, hrestarting]))
  case sendCompletion n =>
    obtain rfl := Host.Outcome.next.inj h
    exact ⟨rfl, rfl, rfl, rfl, rfl, rfl, rfl⟩
  case sampleArrival samples =>
    obtain rfl := Host.Outcome.next.inj h
    exact ⟨rfl, rfl, rfl, rfl, rfl, rfl, rfl⟩
  case answerDeadlineExpiry n =>
    refine hstays ?_
    change execAnswerDeadlineExpiry n s = _
    unfold execAnswerDeadlineExpiry
    obtain ⟨h | h | ⟨_, h⟩, -⟩ := hstations n.val <;> rw [h]
  case holdOffExpiry n =>
    refine hstays ?_
    change execHoldOffExpiry n s = _
    unfold execHoldOffExpiry
    obtain ⟨h | h | ⟨_, h⟩, -⟩ := hstations n.val <;> rw [h]
  case frameStart => exact frameStart_samePeriod hlive h
  all_goals exact hi.elim

/-- The orders that restart the part (R170). -/
theorem takeOrder_restart_periodStep {mine : OrderRecord → Bool} {codes : List Byte → Bool}
    {authority : Authority} {f : State → State} {s t : State} (hf : ∀ u, PeriodStep s (f u))
    (h : takeOrder mine codes authority (fun _ _ u => .restart (f u)) s = .next t) :
    PeriodStep s t := by
  rcases takeOrder_cases h with rfl | ⟨p, o, ⟨hnone, -⟩, -, rfl⟩
  · exact .stands (.refl _)
  unfold answerTo
  split
  · exact .ended (by simpa [State.replied] using hnone)
  · split
    · exact .ended (by simpa [State.replied] using hnone)
    · exact hf _

/-- An order is not taken during RESTARTING; outside it, only a restart order starts one (R7, R170). -/
theorem exec_take_periodStep {i : Instr} (hi : i ∈ takeRows) {s t : State}
    (h : exec i s = .next t) : PeriodStep s t := by
  by_cases hrestarts : i = .restartCold ∨ i = .restartKeep
  · rcases hrestarts with rfl | rfl
    · exact takeOrder_restart_periodStep (fun u => .cold u .orderCold) h
    · exact takeOrder_restart_periodStep (fun u => .keep u .orderKeep) h
  obtain ⟨authority, hrow⟩ := takeRow_of_mem i hi
  have hstays : exec i s = .next s → PeriodStep s t := fun h' => by
    obtain rfl := Host.Outcome.next.inj (h'.symm.trans h)
    exact .stands (.refl _)
  by_cases hidle : ∀ p o, ¬s.Takes p o
  · exact hstays (hrow.exec_idle hidle)
  push Not at hidle
  obtain ⟨p, o, ht⟩ := hidle
  by_cases hne : i = rowOf o
  · subst hne
    have hnone : s.restart = none := ht.1
    rcases exec_rowOf_cases ht with ⟨outcome, fields, h'⟩ | ⟨fields, w, ⟨hrestart, -⟩, h'⟩
      | ⟨u, hrow, -, -⟩
    · obtain rfl := Host.Outcome.next.inj (h'.symm.trans h)
      exact .ended (by simpa [State.refusal, State.reply] using hnone)
    · obtain rfl := Host.Outcome.next.inj (h'.symm.trans h)
      exact .ended (by simp [hrestart, hnone])
    · exact absurd hrow hrestarts
  · exact hstays (hrow.exec_other ht hne)

/-- A transfer changes its port alone (R2 to R5). -/
theorem State.completing_onlyPorts (s : State) (p : Port) (v : PortState) :
    OnlyPorts s ((s.inTransfer p).setPort p v) := by
  rw [State.inTransfer_setPort]
  exact s.setPort_onlyPorts p v

/-- What a command does to the RESTARTING period. -/
theorem exec_periodStep {i : Instr} {s t : State} (hs : RestartLaw s) (h : exec i s = .next t) :
    PeriodStep s t := by
  by_cases hi : i ∈ takeRows
  · exact exec_take_periodStep hi h
  by_cases hc : IsCallSideCommand i
  · exact .of_standing (exec_callSide_onlyPosts hc h).restart
      fun hr => exec_callSide_samePeriod hc hs hr h
  cases i
  case orderTransfer p part record =>
    cases part <;> obtain rfl := Host.Outcome.next.inj h
    · exact .stands (s.setPort_onlyPorts p _).samePeriod
    · exact .stands (s.completing_onlyPorts p _).samePeriod
  case fetchTransfer p part =>
    cases part <;> obtain rfl := Host.Outcome.next.inj h
    · exact .stands (s.setPort_onlyPorts p _).samePeriod
    · exact .stands (s.completing_onlyPorts p _).samePeriod
  case statusTransfer p part =>
    cases part <;> obtain rfl := Host.Outcome.next.inj h
    · exact .stands (s.setPort_onlyPorts p _).samePeriod
    · exact .stands (s.completing_onlyPorts p _).samePeriod
  case unknownTransferKind p kind =>
    obtain rfl := Host.Outcome.next.inj h
    exact .stands (s.completing_onlyPorts p _).samePeriod
  case lapseTimerExpiry =>
    refine .of_standing (execLapseTimerExpiry_onlyPosts h).restart fun hr => ?_
    change execLapseTimerExpiry s = _ at h
    unfold execLapseTimerExpiry at h
    rw [(hs.of_ne hr).1] at h
    obtain rfl := Host.Outcome.next.inj h
    exact .refl _
  case powerOn =>
    obtain rfl := Host.Outcome.next.inj h
    exact .cold s .powerOn
  case resetPin =>
    change execResetPin s = _ at h
    unfold execResetPin at h
    split at h <;> obtain rfl := Host.Outcome.next.inj h
    · exact .stands (.refl _)
    · exact .pin s
  case resetPinRelease =>
    change execResetPinRelease s = _ at h
    unfold execResetPinRelease at h
    split at h <;> obtain rfl := Host.Outcome.next.inj h
    · exact .release
    · exact .stands (.refl _)
  case restartComplete links =>
    change execRestartComplete links s = _ at h
    unfold execRestartComplete at h
    split at h
    · rename_i mode _
      split at h <;> obtain rfl := Host.Outcome.next.inj h
      · exact .stands (.refl _)
      · obtain ⟨hrestart, -⟩ :=
          (Work.rereadLinks_onlyLinks (Work.start (s.endRestart mode)) links).sameQueues
        have hended : (s.endRestart mode).restart = none := by simp [State.endRestart]
        exact .ended (by rw [Work.finish, State.postAll_restart, hrestart]; exact hended)
    · obtain rfl := Host.Outcome.next.inj h
      exact .stands (.refl _)
  case register | answer | leave | signal | unfitStationMessage | babble | linkUp | linkDown
      | beginSend | sendCompletion | answerDeadlineExpiry | holdOffExpiry | sampleArrival
      | frameStart => exact absurd trivial hc
  all_goals exact absurd (by decide) hi

/-! ### The laws of the period -/

theorem SamePeriod.restartLaw {s t : State} (h : SamePeriod s t) (hs : RestartLaw s) :
    RestartLaw t := by
  unfold RestartLaw State.station at *
  rw [h.restart, h.mastership, h.stations, h.connections]
  exact hs

theorem SamePeriod.restartBoundLaw {s t : State} (h : SamePeriod s t) (hs : RestartBoundLaw s) :
    RestartBoundLaw t := by
  unfold RestartBoundLaw at *
  rw [h.restart, h.pin, h.clock, h.since]
  exact hs

/-- The start of a cold restart: the tables are empty (R173). -/
theorem RestartLaw.startCold (s : State) (cause : RestartCause) : RestartLaw (s.startCold cause) := by
  have hstation : ∀ n, (s.startCold cause).station n = State.reset.station n := fun _ => rfl
  intro hr
  obtain ⟨hmastership, hstations, hlive, hempty⟩ := RestartLaw.reset rfl
  exact ⟨rfl, fun n => hstation n ▸ hstations n, nofun, fun _ => rfl⟩

/-- R53: a station record that a call-keeping restart has kept is VACANT, LOCKED or ADMITTED, and no
message waits. -/
theorem Station.keptByRestart_quiet (st : Station) :
    (st.keptByRestart.state = .vacant ∨ st.keptByRestart.state = .locked
        ∨ ∃ identity, st.keptByRestart.state = .admitted identity)
      ∧ st.keptByRestart.slot = none ∧ st.keptByRestart.deliver = [] := by
  refine ⟨?_, rfl, rfl⟩
  cases h : st.state <;> simp [Station.keptByRestart, h]

/-- The start of a call-keeping restart: no record is left PENDING (R109). -/
theorem RestartLaw.startKeep (s : State) (cause : RestartCause) :
    RestartLaw (s.startKeep cause) := by
  have hframe := s.startKeep_frame cause
  have hmastership := congrArg State.mastership hframe
  have hmode := congrArg State.restart hframe
  have hconnections : (s.startKeep cause).connections = s.connections.filter fun d =>
      (s.connections.filter fun c => !c.live).all fun c => d.id != c.id := by
    unfold State.startKeep Work.finish Work.releaseWhere
    rw [State.postAll_connections, Work.foldl_release_connections]
    rfl
  intro _
  refine ⟨hmastership, fun n => ?_, fun c hc => ?_, fun hcold => ?_⟩
  · rw [State.startKeep_station]
    exact Station.keptByRestart_quiet _
  · rw [hconnections, List.mem_filter, List.all_eq_true] at hc
    obtain ⟨hc, hkept⟩ := hc
    by_contra hpending
    exact absurd (hkept c (List.mem_filter.2 ⟨hc, by simpa using hpending⟩)) (by simp)
  · rw [hmode] at hcold
    cases hcold

theorem PeriodStep.restartLaw {s t : State} (h : PeriodStep s t) (hs : RestartLaw s) :
    RestartLaw t := by
  cases h with
  | ended h => exact fun hr => absurd h (Option.isSome_iff_ne_none.1 hr)
  | stands h => exact h.restartLaw hs
  | cold u cause => exact .startCold u cause
  | keep u cause => exact .startKeep u cause
  | pin u => exact RestartLaw.startCold u .pin
  | release => exact hs

/-- The measured period begins at the start of a restart, or with the release of the pin (R174). -/
theorem PeriodStep.restartBoundLaw {s t : State} (h : PeriodStep s t) (hs : RestartBoundLaw s) :
    RestartBoundLaw t := by
  cases h with
  | ended h => exact fun hr => absurd h (Option.isSome_iff_ne_none.1 hr)
  | stands h => exact h.restartBoundLaw hs
  | cold u cause => exact fun _ _ => Nat.le_add_right _ _
  | keep u cause =>
    intro _ _
    have hframe := u.startKeep_frame cause
    rw [congrArg State.clock hframe, congrArg State.restartSince hframe]
    exact Nat.le_add_right _ _
  | pin u => exact fun _ hpin => by cases hpin
  | release => exact fun _ _ => Nat.le_add_right _ _

/-- What a step does to the period, from the state that its command finds. -/
theorem step_cases {s t : State} (hs : RestartLaw s) (h : step s = .next t) :
    (∃ rest, PeriodStep { s with pending := rest } t) ∨ t = s.idle := by
  unfold step at h
  split at h
  · rename_i c rest _
    have hs' : RestartLaw { s with pending := rest } := hs
    exact .inl ⟨rest, exec_periodStep hs' h⟩
  · exact .inr (Host.Outcome.next.inj h).symm

theorem RestartLaw.idle {s : State} (hs : RestartLaw s) : RestartLaw s.idle := by
  unfold State.idle
  split
  · exact hs
  · exact hs

/-- The time base waits for the end of a measured period (log entries 1 and 15). -/
theorem RestartBoundLaw.idle {s : State} (hs : RestartBoundLaw s) : RestartBoundLaw s.idle := by
  unfold State.idle
  split
  · exact hs
  · rename_i hmoves
    intro hr hpin
    simp only [State.restarting, Bool.and_eq_true, Bool.not_eq_true', decide_eq_true_eq,
      not_and, Nat.not_lt] at hmoves
    exact hmoves ⟨hr, hpin⟩

/-- Settles O60: every command is a `PeriodStep`, and the idle step keeps the time base in bounds. -/
theorem everyStepKeepsTheRestartingPeriodQuiet :
    Obligations.EveryStepKeepsTheRestartingPeriodQuiet := by
  unfold Obligations.EveryStepKeepsTheRestartingPeriodQuiet
  constructor
  · intro s t hs h
    rcases step_cases hs h with ⟨rest, hperiod⟩ | rfl
    · exact hperiod.restartLaw (s := { s with pending := rest }) hs
    · exact hs.idle
  · intro s t hs hbound h
    rcases step_cases hs h with ⟨rest, hperiod⟩ | rfl
    · exact hperiod.restartBoundLaw (s := { s with pending := rest }) hbound
    · exact hbound.idle

end Sys2Proof.Machine
end

section
/-! SUPPORT. The checks of CONNECT, check by check: what the model decides is what the checks of the
manual say, and a CONNECT is refused by checks 2 to 10 exactly when one of them fails (R92 to R95,
R134). -/

namespace Sys2Proof.Machine

/-! ### Endpoints -/

theorem isTrunk_iff (e : Nat) : isTrunk e = true ↔ 96 ≤ e ∧ e < 160 := by simp [isTrunk]

theorem isStation_iff (e : Nat) : isStation e = true ↔ e < 96 := by simp [isStation]

theorem isService_iff (e : Nat) : isService e = true ↔ 160 ≤ e := by simp [isService]

theorem State.named_iff (s : State) (e : Nat) :
    s.named e = true ↔ ∃ c ∈ s.connections, c.names e = true := List.any_eq_true

theorem State.newlyBusy_iff (s : State) (e : Nat) : s.newlyBusy e = true ↔ s.NewlyBusy e := by
  simp only [State.newlyBusy, Bool.and_eq_true, isTrunk_iff, State.NewlyBusy, and_assoc,
    State.named, Bool.not_eq_true', List.any_eq_false, Connection.names, Bool.or_eq_true,
    beq_iff_eq, not_or, ne_eq]

theorem State.isTie_iff (s : State) (e : Nat) : s.isTie e = true ↔ s.TieAt e := by
  simp only [State.isTie, Bool.and_eq_true, isTrunk_iff, beq_iff_eq, State.TieAt, slotOf, and_assoc]

/-- The identity ADMITTED at a station position. -/
theorem State.identityAt_eq_some (s : State) (e identity : Nat) :
    s.identityAt e = some identity ↔ e < 96 ∧ (s.station e).state = .admitted identity := by
  unfold State.identityAt
  by_cases h : e < 96
  · rw [if_pos ((isStation_iff e).2 h), StationState.admittedIdentity_eq_some]
    exact (and_iff_right h).symm
  · rw [if_neg (fun hs => h ((isStation_iff e).1 hs))]
    exact iff_of_false nofun fun hs => h hs.1

/-! ### Checks 2 to 5 (R92, R93) -/

theorem ConnectRequest.outOfRange_iff (r : ConnectRequest) :
    r.outOfRange = true ↔ ¬Check2 r.source r.destination r.cls r.key := by
  have hkey : (∀ k ∈ r.key, k ≤ 31) ↔ ¬31 < r.key.getD 0 := by cases r.key <;> simp
  unfold ConnectRequest.outOfRange Check2
  rw [hkey]
  simp only [Bool.or_eq_true, decide_eq_true_eq, beq_iff_eq]
  omega

theorem State.feeder_isSome_iff (s : State) (e : Nat) :
    (s.feeder e).isSome = true ↔ ¬s.Check3 e := by
  simp [State.feeder, State.Check3, List.find?_isSome]

theorem State.lacksAdmission_iff (s : State) (r : ConnectRequest) :
    s.lacksAdmission r = true ↔ ¬s.Check4 r.source r.destination := by
  have hlacks : ∀ e, (isStation e && (s.identityAt e).isNone) = true
      ↔ ¬(e < 96 → ∃ identity, (s.station e).state = .admitted identity) := fun e => by
    rw [Bool.and_eq_true, isStation_iff, Classical.not_imp]
    refine and_congr_right fun he => ?_
    rw [Option.isNone_iff_eq_none, Option.eq_none_iff_forall_ne_some, not_exists]
    exact forall_congr' fun identity =>
      not_congr ((s.identityAt_eq_some e identity).trans (and_iff_right he))
  unfold State.lacksAdmission State.Check4
  rw [Bool.and_eq_true, Bool.not_eq_true', ← Bool.not_eq_true, isService_iff, Nat.not_le,
    Classical.not_imp, Bool.or_eq_true, hlacks, hlacks]
  refine and_congr_right fun _ => not_and_or.symm.trans (not_congr ?_)
  constructor
  · rintro ⟨hsource, hdestination⟩ e (rfl | rfl)
    exacts [hsource, hdestination]
  · exact fun h => ⟨h _ (.inl rfl), h _ (.inr rfl)⟩

theorem State.trunkOut_iff (s : State) (r : ConnectRequest) :
    (s.trunkOut r.source || s.trunkOut r.destination) = true
      ↔ ¬s.Check5 r.source r.destination := by
  have hout : ∀ e, s.trunkOut e = true
      ↔ ¬(96 ≤ e → e < 160 → (s.slot (e - 96)).mode ≠ .outOfService) := fun e => by
    simp only [State.trunkOut, Bool.and_eq_true, isTrunk_iff, beq_iff_eq, slotOf,
      Classical.not_imp, ne_eq, not_not, and_assoc]
  unfold State.Check5
  rw [Bool.or_eq_true, hout, hout, ← not_and_or]
  refine not_congr ⟨?_, fun h => ⟨h _ (.inl rfl), h _ (.inr rfl)⟩⟩
  rintro ⟨hsource, hdestination⟩ e (rfl | rfl)
  exacts [hsource, hdestination]

/-! ### Checks 6 and 7 (R94) -/

/-- The record would join a station to a trunk. -/
theorem ConnectRequest.stationAndTrunk_eq_some (r : ConnectRequest) (station trunk : Nat) :
    r.stationAndTrunk = some (station, trunk) ↔
      ((r.source = station ∧ r.destination = trunk) ∨ (r.source = trunk ∧ r.destination = station))
        ∧ station < 96 ∧ 96 ≤ trunk ∧ trunk < 160 := by
  unfold ConnectRequest.stationAndTrunk
  simp only [Bool.and_eq_true, isStation_iff, isTrunk_iff]
  split
  · simp only [Option.some.injEq, Prod.mk.injEq]
    omega
  · split
    · simp only [Option.some.injEq, Prod.mk.injEq]
      omega
    · simp only [reduceCtorEq, false_iff]
      omega

/-- A record that passes check 4 joins a station that has an entry (R39, R93). -/
theorem State.entry_of_check4 {s : State} (hs : AdmissionLaw s) {r : ConnectRequest}
    (h4 : s.Check4 r.source r.destination) {station trunk : Nat}
    (hjoins : r.stationAndTrunk = some (station, trunk)) :
    ∃ e, (s.identityAt station).bind s.entry = some e := by
  obtain ⟨hends, hstation, htrunk⟩ := (r.stationAndTrunk_eq_some _ _).1 hjoins
  obtain ⟨identity, hadmitted⟩ := h4 (by omega) station (by omega) hstation
  obtain ⟨⟨e, he, -⟩, -⟩ := hs.1 station identity (.inl hadmitted)
  exact ⟨e, by rw [(s.identityAt_eq_some _ _).2 ⟨hstation, hadmitted⟩]; exact he⟩

/-- The entry that checks 6 and 7 judge. -/
theorem State.joins_iff (s : State) (r : ConnectRequest) (station trunk : Nat) (e : DirectoryEntry) :
    s.Joins r.source r.destination station trunk e ↔
      r.stationAndTrunk = some (station, trunk) ∧ (s.identityAt station).bind s.entry = some e := by
  rw [r.stationAndTrunk_eq_some]
  unfold State.Joins
  simp only [Option.bind_eq_some_iff, State.identityAt_eq_some]
  constructor
  · rintro ⟨hends, hstation, hlow, hhigh, identity, hadmitted, hentry⟩
    exact ⟨⟨hends, hstation, hlow, hhigh⟩, identity, ⟨hstation, hadmitted⟩, hentry⟩
  · rintro ⟨⟨hends, hstation, hlow, hhigh⟩, identity, ⟨-, hadmitted⟩, hentry⟩
    exact ⟨hends, hstation, hlow, hhigh, identity, hadmitted, hentry⟩

/-- A pair of endpoints joins one station to one trunk at most. -/
theorem State.Joins.unique {s : State} {r : ConnectRequest} {station trunk station' trunk' : Nat}
    {e e' : DirectoryEntry} (h : s.Joins r.source r.destination station trunk e)
    (h' : s.Joins r.source r.destination station' trunk' e') : trunk' = trunk ∧ e' = e := by
  obtain ⟨hjoins, hentry⟩ := (s.joins_iff r _ _ _).1 h
  obtain ⟨hjoins', hentry'⟩ := (s.joins_iff r _ _ _).1 h'
  obtain ⟨rfl, rfl⟩ := Prod.mk.inj (Option.some.inj (hjoins'.symm.trans hjoins))
  exact ⟨rfl, Option.some.inj (hentry'.symm.trans hentry)⟩

/-- Check 7 for one entry and trunk (R94). -/
theorem failsPrivacy_iff (s : State) (e : DirectoryEntry) {trunk : Nat} (hlow : 96 ≤ trunk)
    (hhigh : trunk < 160) (scrambled : Bool) :
    failsPrivacy s e trunk scrambled = true ↔
      ¬((e.privacy ≠ .openClass → (s.slot (trunk - 96)).mode ≠ .publicTrunk)
        ∧ (e.privacy = .required → (s.slot (trunk - 96)).mode = .tie → scrambled = true)) := by
  have htrunk : isTrunk trunk = true := (isTrunk_iff trunk).2 ⟨hlow, hhigh⟩
  simp only [failsPrivacy, State.isPublic, State.isTie, htrunk, Bool.true_and, slotOf,
    Bool.or_eq_true, Bool.and_eq_true, bne_iff_ne, beq_iff_eq, Bool.not_eq_true', ne_eq,
    ← Bool.not_eq_true scrambled]
  tauto

/-- What checks 6 and 7 decide once check 4 has passed (R94). -/
theorem State.serviceCheck_eq {s : State} (hs : AdmissionLaw s) {r : ConnectRequest}
    (h4 : s.Check4 r.source r.destination) :
    (¬s.Check6 r.source r.destination → s.serviceCheck r = some .barred)
      ∧ (s.Check6 r.source r.destination →
        (¬s.Check7 r.source r.destination r.key → s.serviceCheck r = some .privacy)
          ∧ (s.Check7 r.source r.destination r.key → s.serviceCheck r = none)) := by
  unfold State.serviceCheck
  cases hjoins : r.stationAndTrunk with
  | none =>
    have hno : ∀ station trunk e, ¬s.Joins r.source r.destination station trunk e :=
      fun station trunk e h => by
        rw [s.joins_iff, hjoins] at h
        exact absurd h.1 nofun
    exact ⟨fun h => absurd (fun _ _ _ hj => absurd hj (hno _ _ _)) h,
      fun _ => ⟨fun h => absurd (fun _ _ _ hj => absurd hj (hno _ _ _)) h, fun _ => rfl⟩⟩
  | some ends =>
    obtain ⟨station, trunk⟩ := ends
    obtain ⟨e, he⟩ := State.entry_of_check4 hs h4 hjoins
    have hj : s.Joins r.source r.destination station trunk e := (s.joins_iff r _ _ _).2 ⟨hjoins, he⟩
    obtain ⟨-, -, hlow, hhigh, -⟩ := (id hj)
    have h6 : s.Check6 r.source r.destination ↔ failsMask s e trunk = false := by
      unfold State.Check6 failsMask inMask State.groupAt slotOf
      rw [Bool.not_eq_false']
      refine ⟨fun h => h _ _ _ hj, fun h _ _ _ hj' => ?_⟩
      obtain ⟨rfl, rfl⟩ := hj.unique hj'
      exact h
    have h7 : s.Check7 r.source r.destination r.key ↔
        failsPrivacy s e trunk r.key.isSome = false := by
      rw [← Bool.not_eq_true, failsPrivacy_iff s e hlow hhigh, not_not, Option.isSome_iff_ne_none]
      refine ⟨fun h => h _ _ _ hj, fun h _ _ _ hj' => ?_⟩
      obtain ⟨rfl, rfl⟩ := hj.unique hj'
      exact h
    rw [h6, h7]
    simp only [he]
    cases failsMask s e trunk <;> cases failsPrivacy s e trunk r.key.isSome <;> simp

/-! ### Checks 8 to 10 (R95, R134) -/

theorem State.keyRefused_iff (s : State) (r : ConnectRequest) :
    s.keyRefused r = true ↔ ¬s.Check8 r.source r.destination r.key := by
  unfold State.keyRefused State.Check8
  cases r.key with
  | none => simp
  | some k =>
    simp only [Option.mem_def, Option.some.injEq, forall_eq', ← State.isTie_iff, Bool.or_eq_true,
      Option.isNone_iff_eq_none, beq_iff_eq, ne_eq]
    cases s.isTie r.source <;> cases s.isTie r.destination <;> simp

theorem State.full_iff (s : State) :
    decide (Config.tableSize ≤ s.recordCount) = true ↔ ¬s.Check9 := by
  rw [decide_eq_true_eq]
  exact Nat.not_lt.symm

theorem State.lacksLeg_iff (s : State) (r : ConnectRequest) :
    (r.key.isSome && s.lowestFreeLeg.isNone) = true ↔ ¬s.Check10 r.key := by
  simp only [Bool.and_eq_true, Option.isSome_iff_ne_none, Option.isNone_iff_eq_none,
    State.lowestFreeLeg_eq_none, State.Check10, Classical.not_imp, not_exists, not_and]

/-! ### The first check that fails -/

/-- CONNECT is refused by the first of checks 2 to 10 that fails. -/
theorem State.connectRefusal_first {s : State} (hs : AdmissionLaw s) (r : ConnectRequest) :
    (¬Check2 r.source r.destination r.cls r.key → s.connectRefusal r = some .range)
    ∧ (Check2 r.source r.destination r.cls r.key →
      (¬s.Check3 r.destination → s.connectRefusal r = some .destBusy)
      ∧ (s.Check3 r.destination →
        (¬s.Check4 r.source r.destination → s.connectRefusal r = some .notAdmitted)
        ∧ (s.Check4 r.source r.destination →
          (¬s.Check5 r.source r.destination → s.connectRefusal r = some .trunkOut)
          ∧ (s.Check5 r.source r.destination →
            (¬s.Check6 r.source r.destination → s.connectRefusal r = some .barred)
            ∧ (s.Check6 r.source r.destination →
              (¬s.Check7 r.source r.destination r.key → s.connectRefusal r = some .privacy)
              ∧ (s.Check7 r.source r.destination r.key →
                (¬s.Check8 r.source r.destination r.key → s.connectRefusal r = some .keyState)
                ∧ (s.Check8 r.source r.destination r.key →
                  (¬s.Check9 → s.connectRefusal r = some .full)
                  ∧ (s.Check9 →
                    (¬s.Check10 r.key → s.connectRefusal r = some .noLeg)
                    ∧ (s.Check10 r.key → s.connectRefusal r = none))))))))) := by
  unfold State.connectRefusal
  have hfails := fun {b : Bool} {P : Prop} (h : b = true ↔ ¬P) (x y : Option OutcomeCode)
    (hP : ¬P) => (if_pos (h.2 hP) : (if b = true then x else y) = x)
  have hpasses := fun {b : Bool} {P : Prop} (h : b = true ↔ ¬P) (x y : Option OutcomeCode)
    (hP : P) => (if_neg fun hb => h.1 hb hP : (if b = true then x else y) = y)
  refine ⟨hfails r.outOfRange_iff _ _, fun h2 => ?_⟩
  rw [hpasses r.outOfRange_iff _ _ h2]
  refine ⟨hfails (s.feeder_isSome_iff _) _ _, fun h3 => ?_⟩
  rw [hpasses (s.feeder_isSome_iff _) _ _ h3]
  refine ⟨hfails (s.lacksAdmission_iff r) _ _, fun h4 => ?_⟩
  rw [hpasses (s.lacksAdmission_iff r) _ _ h4]
  refine ⟨hfails (s.trunkOut_iff r) _ _, fun h5 => ?_⟩
  rw [hpasses (s.trunkOut_iff r) _ _ h5]
  obtain ⟨hbarred, hservice⟩ := State.serviceCheck_eq hs h4
  refine ⟨fun h6 => by rw [hbarred h6], fun h6 => ?_⟩
  obtain ⟨hprivacy, hserved⟩ := hservice h6
  refine ⟨fun h7 => by rw [hprivacy h7], fun h7 => ?_⟩
  rw [hserved h7]
  refine ⟨hfails (s.keyRefused_iff r) _ _, fun h8 => ?_⟩
  simp only [hpasses (s.keyRefused_iff r) _ _ h8]
  refine ⟨hfails s.full_iff _ _, fun h9 => ?_⟩
  rw [hpasses s.full_iff _ _ h9]
  exact ⟨hfails (s.lacksLeg_iff r) _ _, hpasses (s.lacksLeg_iff r) _ _⟩

/-- A CONNECT passes checks 2 to 10 exactly when the model refuses it by none of them. -/
theorem State.connectRefusal_eq_none_iff {s : State} (hs : AdmissionLaw s) (r : ConnectRequest) :
    s.connectRefusal r = none ↔ s.PassesTo10 r.source r.destination r.cls r.key := by
  obtain ⟨h2, hto3⟩ := State.connectRefusal_first hs r
  unfold State.PassesTo10
  constructor
  · intro hnone
    rw [hnone] at h2 hto3
    simp only [reduceCtorEq, imp_false, not_not] at h2 hto3
    obtain ⟨h3, hto4⟩ := hto3 h2
    obtain ⟨h4, hto5⟩ := hto4 h3
    obtain ⟨h5, hto6⟩ := hto5 h4
    obtain ⟨h6, hto7⟩ := hto6 h5
    obtain ⟨h7, hto8⟩ := hto7 h6
    obtain ⟨h8, hto9⟩ := hto8 h7
    obtain ⟨h9, hto10⟩ := hto9 h8
    obtain ⟨h10, -⟩ := hto10 h9
    exact ⟨h2, h3, h4, h5, h6, h7, h8, h9, h10⟩
  · rintro ⟨h2, h3, h4, h5, h6, h7, h8, h9, h10⟩
    obtain ⟨-, hto4⟩ := hto3 h2
    obtain ⟨-, hto5⟩ := hto4 h3
    obtain ⟨-, hto6⟩ := hto5 h4
    obtain ⟨-, hto7⟩ := hto6 h5
    obtain ⟨-, hto8⟩ := hto7 h6
    obtain ⟨-, hto9⟩ := hto8 h7
    obtain ⟨-, hto10⟩ := hto9 h8
    obtain ⟨-, hnone⟩ := hto10 h9
    exact hnone h10

end Sys2Proof.Machine
end

section
/-! SUPPORT. The laws of stations in calls: what keeps them while stations, records and entries stand,
while stations leave with their records, and while records leave through the release procedure (R67,
R89, R94, R155). -/

namespace Sys2Proof.Machine

/-! ### The laws, but for some identities -/

/-- R94, for the stations ADMITTED with an identity that is not skipped. -/
def ServiceLawBut (skip : Nat → Prop) (s : State) : Prop :=
  ∀ c ∈ s.connections, ∀ station trunk,
    ((c.source = station ∧ c.destination = trunk) ∨ (c.source = trunk ∧ c.destination = station)) →
    station < 96 → 96 ≤ trunk → trunk < 160 →
    ∀ identity, (s.station station).state = .admitted identity → ¬skip identity →
    ∃ e, s.entry identity = some e ∧ Conforms s e trunk c.privacy.isSome

/-- The laws that O58 speaks of, in a table that is in order; R94 while the entries of some identities
change. -/
structure CallsServedBut (skip : Nat → Prop) (s : State) : Prop where
  table : TableLaw s
  stations : StationLaw s
  service : ServiceLawBut skip s

/-- The laws that O58 speaks of. -/
def CallsServed : State → Prop := CallsServedBut fun _ => False

theorem callsServed_iff (s : State) :
    CallsServed s ↔ TableLaw s ∧ StationLaw s ∧ ServiceLaw s := by
  constructor
  · rintro ⟨ht, hs, hv⟩
    exact ⟨ht, hs, fun c hc n m hends hn hlow hhigh i hi => hv c hc n m hends hn hlow hhigh i hi id⟩
  · rintro ⟨ht, hs, hv⟩
    exact ⟨ht, hs, fun c hc n m hends hn hlow hhigh i hi _ => hv c hc n m hends hn hlow hhigh i hi⟩

/-- Every entry of an identity stands as far as R94 reads it, but for skipped identities. -/
def EntriesStandBut (skip : Nat → Prop) (s t : State) : Prop :=
  ∀ i e, ¬skip i → s.entry i = some e →
    ∃ e', t.entry i = some e' ∧ e'.mask = e.mask ∧ e'.privacy = e.privacy

/-- What R94 reads of a record beside its endpoints. -/
def Connection.like (c d : Connection) : Prop :=
  d.source = c.source ∧ d.destination = c.destination ∧ d.privacy.isSome = c.privacy.isSome

/-- The records of t are records of s, slots and entries stand, and a station is ADMITTED only as it was
before, and still where a record names it. -/
theorem CallsServedBut.of_leaving {skip skip' : Nat → Prop} {s t : State}
    (h : CallsServedBut skip s) (hskip : ∀ i, skip i → skip' i) (ht : TableLaw t)
    (hrecords : ∀ c ∈ t.connections, ∃ d ∈ s.connections, c.like d)
    (hslot : ∀ n, (∃ c ∈ t.connections, c.names (96 + n) = true) → t.slot n = s.slot n)
    (hentries : EntriesStandBut skip' s t)
    (hbefore : ∀ n i, (t.station n).state = .admitted i → (s.station n).state = .admitted i)
    (hstill : ∀ n i, (s.station n).state = .admitted i →
      (t.station n).state = .admitted i
        ∨ ∀ c ∈ t.connections, ¬160 ≤ c.source → c.names n = false) : CallsServedBut skip' t where
  table := ht
  stations := by
    intro c hc hsource n hnames hn
    obtain ⟨d, hd, hlike⟩ := hrecords c hc
    obtain ⟨hs, hdest, -⟩ := hlike
    have hdnames : d.names n = true := by unfold Connection.names at hnames ⊢; rwa [hs, hdest]
    obtain ⟨i, hi⟩ := h.stations d hd (by rwa [hs]) n hdnames hn
    rcases hstill n i hi with hadmitted | hnone
    · exact ⟨i, hadmitted⟩
    · rw [hnone c hc hsource] at hnames
      cases hnames
  service := by
    intro c hc n m hends hn hlow hhigh i hi hnot
    obtain ⟨d, hd, hs, hdest, hprivacy⟩ := hrecords c hc
    obtain ⟨e, he, hmask, hpublic, htie⟩ := h.service d hd n m (by rwa [hs, hdest]) hn hlow hhigh i
      (hbefore n i hi) fun hi => hnot (hskip i hi)
    obtain ⟨e', he', hmask', hprivacy'⟩ := hentries i e hnot he
    have hm : t.slot (m - 96) = s.slot (m - 96) := hslot _ ⟨c, hc, by
      rw [Nat.add_sub_cancel' hlow]
      simp only [Connection.names, Bool.or_eq_true, beq_iff_eq]
      omega⟩
    refine ⟨e', he', ?_⟩
    unfold Conforms
    rw [hm, hmask', hprivacy', ← hprivacy]
    exact ⟨hmask, hpublic, htie⟩

/-! ### Everything stands -/

/-- t holds what the laws read of s: records, slots, entries, and where which identity is ADMITTED. -/
structure SameHoldings (s t : State) : Prop where
  ends : t.connections.map Connection.ends = s.connections.map Connection.ends
  like : ∀ c ∈ t.connections, ∃ d ∈ s.connections, c.like d
  slots : t.slots = s.slots
  entries : EntriesStandBut (fun _ => False) s t
  stations : ∀ n, (t.station n).state.admittedIdentity = (s.station n).state.admittedIdentity

theorem SameHoldings.of_eq {s t : State} (hconnections : t.connections = s.connections)
    (hslots : t.slots = s.slots) (hdirectory : t.directory = s.directory)
    (hstations : t.stations = s.stations) : SameHoldings s t where
  ends := by rw [hconnections]
  like c hc := ⟨c, hconnections ▸ hc, rfl, rfl, rfl⟩
  slots := hslots
  entries i e _ he := ⟨e, by unfold State.entry at he ⊢; rwa [hdirectory], rfl, rfl⟩
  stations n := by unfold State.station; rw [hstations]

theorem SameHoldings.refl (s : State) : SameHoldings s s := .of_eq rfl rfl rfl rfl

theorem SameHoldings.trans {s t u : State} (h : SameHoldings s t) (h' : SameHoldings t u) :
    SameHoldings s u where
  ends := h'.ends.trans h.ends
  like c hc := by
    obtain ⟨d, hd, hs, hdest, hprivacy⟩ := h'.like c hc
    obtain ⟨d', hd', hs', hdest', hprivacy'⟩ := h.like d hd
    exact ⟨d', hd', hs'.trans hs, hdest'.trans hdest, hprivacy'.trans hprivacy⟩
  slots := h'.slots.trans h.slots
  entries i e hi he := by
    obtain ⟨e', he', hmask, hprivacy⟩ := h.entries i e hi he
    obtain ⟨e'', he'', hmask', hprivacy'⟩ := h'.entries i e' hi he'
    exact ⟨e'', he'', hmask'.trans hmask, hprivacy'.trans hprivacy⟩
  stations n := (h'.stations n).trans (h.stations n)

theorem OnlyPorts.sameHoldings {s t : State} (h : OnlyPorts s t) : SameHoldings s t := by
  unfold OnlyPorts at h
  rw [h]
  exact .of_eq rfl rfl rfl rfl

theorem State.taken_sameHoldings (s : State) (p : Port) : SameHoldings s (s.taken p) :=
  .of_eq (s.taken_connections p) (s.taken_slots p) (s.taken_directory p) (s.taken_stations p)

/-- A station record changes, but for whom it is ADMITTED with. -/
theorem State.setStation_sameHoldings (s : State) (n : Nat) {v : Station}
    (hv : v.state.admittedIdentity = (s.station n).state.admittedIdentity) :
    SameHoldings s (s.setStation n v) where
  ends := rfl
  like c hc := ⟨c, hc, rfl, rfl, rfl⟩
  slots := rfl
  entries _ e _ he := ⟨e, he, rfl, rfl⟩
  stations m := by
    rw [State.station_setStation]
    split
    · rename_i hm
      rw [hv, hm.1]
    · rfl

/-- Records change, but for their ends and whether they have a privacy part. -/
theorem SameHoldings.of_map {s t : State} {f : Connection → Connection}
    (hconnections : t.connections = s.connections.map f)
    (hf : ∀ c, (f c).ends = c.ends ∧ (f c).privacy = c.privacy) (hslots : t.slots = s.slots)
    (hdirectory : t.directory = s.directory) (hstations : t.stations = s.stations) :
    SameHoldings s t where
  ends := by
    rw [hconnections, List.map_map]
    exact List.map_congr_left fun c _ => (hf c).1
  like c hc := by
    rw [hconnections] at hc
    obtain ⟨d, hd, rfl⟩ := List.mem_map.1 hc
    obtain ⟨hends, hprivacy⟩ := hf d
    simp only [Connection.ends, Prod.mk.injEq] at hends
    exact ⟨d, hd, hends.2.1.symm, hends.2.2.1.symm, by rw [hprivacy]⟩
  slots := hslots
  entries i e _ he := ⟨e, by unfold State.entry at he ⊢; rwa [hdirectory], rfl, rfl⟩
  stations n := by unfold State.station; rw [hstations]

theorem SameHoldings.admitted {s t : State} (h : SameHoldings s t) (n i : Nat) :
    (t.station n).state = .admitted i ↔ (s.station n).state = .admitted i := by
  rw [← StationState.admittedIdentity_eq_some, ← StationState.admittedIdentity_eq_some, h.stations]

theorem CallsServedBut.stand {skip : Nat → Prop} {s t : State} (h : CallsServedBut skip s)
    (hst : SameHoldings s t) : CallsServedBut skip t := by
  have hshrinks : TableShrinks s t := by
    unfold TableShrinks
    rw [hst.ends]
  refine h.of_leaving (fun _ hi => hi) (h.table.of_shrinks hshrinks) hst.like (fun n _ => ?_)
    (fun i e _ he => hst.entries i e id he) (fun n i => (hst.admitted n i).1)
    fun n i hi => .inl ((hst.admitted n i).2 hi)
  unfold State.slot
  rw [hst.slots]

/-! ### Records leave, and stations with their records -/

namespace CallsServedBut

variable {skip : Nat → Prop}

/-- Records leave the table, and an ADMITTED station with those that name it, but for calls from a
service endpoint (R67, R155). -/
theorem of_filter {s t : State} (h : CallsServedBut skip s) (hwork : OnlyCallsAndStations s t)
    {f : Connection → Bool} (hconnections : t.connections = s.connections.filter f)
    (hbefore : ∀ n i, (t.station n).state = .admitted i → (s.station n).state = .admitted i)
    (hstill : ∀ n i, (s.station n).state = .admitted i →
      (t.station n).state = .admitted i
        ∨ ∀ c ∈ t.connections, ¬160 ≤ c.source → c.names n = false) : CallsServedBut skip t := by
  have hslots := congrArg State.slots hwork
  have hdirectory := congrArg State.directory hwork
  refine h.of_leaving (fun _ hi => hi) (h.table.of_shrinks (.of_filter hconnections))
    (fun c hc => ⟨c, (List.mem_filter.1 (hconnections ▸ hc)).1, rfl, rfl, rfl⟩) (fun n _ => ?_)
    (fun i e _ he => ⟨e, ?_, rfl, rfl⟩) hbefore hstill
  · unfold State.slot
    rw [hslots]
  · unfold State.entry at he ⊢
    rwa [hdirectory]

/-- Records leave through the release procedure (R148). -/
theorem releaseWhere {w : Work} (h : CallsServedBut skip w.state) (reason : Option ReleaseReason)
    (gone : Connection → Bool) : CallsServedBut skip (w.releaseWhere reason gone).state := by
  have hcalls := w.releaseWhere_onlyCalls reason gone
  have hstation : ∀ n, (w.releaseWhere reason gone).state.station n = w.state.station n := fun n => by
    unfold State.station
    rw [congrArg State.stations hcalls]
  exact h.of_filter hcalls.andStations (w.foldl_release_connections reason _)
    (fun n i hi => hstation n ▸ hi) fun n i hi => .inl (by rw [hstation]; exact hi)

/-- One record leaves through the release procedure (R148). -/
theorem release {w : Work} (h : CallsServedBut skip w.state) (reason : Option ReleaseReason)
    {c : Connection} (hc : c ∈ w.state.connections) :
    CallsServedBut skip (w.release reason c).state := by
  rw [← Work.releaseWhere_id h.table hc]
  exact h.releaseWhere _ _

/-- A withdrawal selects every record of the position that has a station or trunk source (R155). -/
theorem withdrawalSelects_of_names {s : State} (ht : TableLaw s) {c : Connection}
    (hc : c ∈ s.connections) (hsource : ¬160 ≤ c.source) {n : Nat} (hn : c.names n = true) :
    withdrawalSelects n c = true := by
  obtain ⟨-, -, hrecords⟩ := ht
  obtain ⟨-, -, hdestination, -⟩ := hrecords c hc
  simp only [Connection.names, Bool.or_eq_true, beq_iff_eq] at hn
  simp only [withdrawalSelects, isService, Bool.or_eq_true, Bool.and_eq_true, beq_iff_eq,
    Bool.not_eq_true', decide_eq_false_iff_not]
  omega

/-- A withdrawal (R67). -/
theorem withdraw {w : Work} (h : CallsServedBut skip w.state) (r : ReleaseReason) (n : Nat) :
    CallsServedBut skip (w.withdraw r n).state := by
  by_cases hadmitted : ∃ i, (w.state.station n).state = .admitted i
  · obtain ⟨i, hi⟩ := hadmitted
    have hlt : n < 96 := State.lt_of_identity (by rw [hi]; rfl)
    have hconnections := w.withdraw_connections r n h.table.1
    have hstation := w.withdraw_station r hlt
    simp only [hi] at hconnections hstation
    refine h.of_filter (w.withdraw_onlyCallsAndStations r n) hconnections (fun m j hj => ?_)
      fun m j hj => ?_
    · rw [hstation] at hj
      split at hj
      · cases hj
      · exact hj
    · by_cases hm : m = n
      · subst hm
        refine .inr fun c hc hsource => ?_
        rw [hconnections, List.mem_filter, Bool.not_eq_true'] at hc
        obtain ⟨hc, hstays⟩ := hc
        by_contra hnames
        rw [withdrawalSelects_of_names h.table hc hsource (by simpa using hnames)] at hstays
        cases hstays
      · rw [hstation, if_neg hm]
        exact .inl hj
  · unfold Work.withdraw
    split
    · exact absurd ⟨_, ‹_›⟩ hadmitted
    · exact h

/-- A station record that is not ADMITTED, and is not to be. -/
theorem setStation {s : State} (h : CallsServedBut skip s) (n : Nat) {v : Station}
    (hv : v.state.admittedIdentity = (s.station n).state.admittedIdentity) :
    CallsServedBut skip (s.setStation n v) := h.stand (s.setStation_sameHoldings n hv)

/-- A line port that changes. -/
theorem setLine {s : State} (h : CallsServedBut skip s) (n : Nat) (v : LinePort) :
    CallsServedBut skip (s.setLine n v) := h.stand (.of_eq rfl rfl rfl rfl)

theorem placeMessage {s : State} (h : CallsServedBut skip s) (n : Nat) (m : StationMessage) :
    CallsServedBut skip (s.placeMessage n m) := h.setStation n rfl

theorem finish {w : Work} (h : CallsServedBut skip w.state) : CallsServedBut skip w.finish :=
  h.stand w.finish_onlyPorts.sameHoldings

/-- The clearing of a position (R49). -/
theorem clearPosition {w : Work} (h : CallsServedBut skip w.state) (r : ReleaseReason) (n : Nat) :
    CallsServedBut skip (w.clearPosition r n).state := by
  unfold Work.clearPosition
  refine setStation ?_ n rfl
  split
  · exact h.withdraw r n
  · exact h.setStation n (by rename_i hn; rw [hn]; rfl)
  · exact h.setStation n (by rename_i hn; rw [hn]; rfl)
  · exact h
  · exact h

theorem clearPositions {w : Work} (h : CallsServedBut skip w.state) (r : ReleaseReason)
    (ns : List Nat) :
    CallsServedBut skip (ns.foldl (fun w n => w.clearPosition r n) w).state := by
  induction ns generalizing w with
  | nil => exact h
  | cons n ns ih => exact ih (h.clearPosition r n)

/-- The loss of the link at a position (R51). -/
theorem loseLink {w : Work} (h : CallsServedBut skip w.state) (n : Nat) :
    CallsServedBut skip (w.loseLink n).state := by
  unfold Work.loseLink
  refine setStation ?_ n rfl
  split
  · exact h.withdraw _ n
  · exact h.setStation n (by rename_i hn; rw [hn]; rfl)
  all_goals exact h

/-- A report of a link (R51). -/
theorem reportLink {w : Work} (h : CallsServedBut skip w.state) (n : Nat) (up : Bool) :
    CallsServedBut skip (w.reportLink n up).state := by
  unfold Work.reportLink
  split
  · exact h
  · split
    · exact h.setLine n _
    · exact loseLink (loseLink (h.setLine n _) _) _

theorem rereadLinks {w : Work} (h : CallsServedBut skip w.state) (links : List Bool) :
    CallsServedBut skip (w.rereadLinks links).state := by
  unfold Work.rereadLinks
  generalize List.range 48 = ns
  induction ns generalizing w with
  | nil => exact h
  | cons n ns ih => exact ih (h.reportLink n _)

/-- The port that babbles (R50). -/
theorem disableForBabble {w : Work} (h : CallsServedBut skip w.state) (n : Nat) :
    CallsServedBut skip (w.disableForBabble n).state :=
  clearPosition (clearPosition (h.setLine n _) _ _) _ _

/-- An abandonment (R65). -/
theorem abandon {w : Work} (h : CallsServedBut skip w.state) (r : RefusalReason) (n : Nat) :
    CallsServedBut skip (w.abandon r n).state := by
  unfold Work.abandon
  split
  · exact placeMessage (h.setStation n (by rename_i hn; rw [hn]; rfl)) n _
  · exact h

theorem abandonIdentity {w : Work} (h : CallsServedBut skip w.state) (r : RefusalReason)
    (identity : Nat) (selects : Nat → Bool) :
    CallsServedBut skip (w.abandonIdentity r identity selects).state := by
  unfold Work.abandonIdentity
  generalize w.state.challengedPositions identity selects = ns
  induction ns generalizing w with
  | nil => exact h
  | cons n ns ih => exact ih (h.abandon r n)

/-- The requests of REMOVE and SUSPEND (R33, R35). -/
theorem retireIdentity {w : Work} (h : CallsServedBut skip w.state) (r : ReleaseReason)
    (identity : Nat) : CallsServedBut skip (w.retireIdentity r identity).state := by
  refine abandonIdentity ?_ _ _ _
  unfold Work.withdrawIdentity
  split
  · exact h.withdraw r _
  · exact h

/-- The first two requests of AMEND (R38). -/
theorem applyHomePorts {w : Work} (h : CallsServedBut skip w.state) (e : DirectoryEntry) :
    CallsServedBut skip (w.applyHomePorts e).state := by
  unfold Work.applyHomePorts
  refine abandonIdentity ?_ _ _ _
  split
  · split
    · exact h.withdraw _ _
    · exact h
  · exact h

/-- A counted failure of a station that is not ADMITTED (R59). -/
theorem countFailure {w : Work} (h : CallsServedBut skip w.state) {n : Nat} (identity : Nat)
    (r : RefusalReason) (hn : (w.state.station n).state.admittedIdentity = none) :
    CallsServedBut skip (w.countFailure n identity r).state := by
  unfold Work.countFailure
  dsimp only
  have hplaced := h.placeMessage n (.refuse r)
  have hstill : ((w.state.placeMessage n (.refuse r)).station n).state.admittedIdentity = none := by
    rw [State.placeMessage_station]
    split <;> exact hn
  split
  · exact hplaced.setStation n hstill.symm
  · exact hplaced.setStation n hstill.symm

/-- A REGISTER at a position that is not ADMITTED (R58, R60). -/
theorem judgeRegister {w : Work} (h : CallsServedBut skip w.state) {n : Nat} (identity : Nat)
    (hn : (w.state.station n).state.admittedIdentity = none) :
    CallsServedBut skip (w.judgeRegister n identity).state := by
  unfold Work.judgeRegister
  split
  · exact h.countFailure identity _ hn
  · split
    · exact h.countFailure identity _ hn
    · split
      · exact h.countFailure identity _ hn
      · obtain ⟨sequence, value, expected, deadline, hissued⟩ := w.issueChallenge_state n identity _
        rw [hissued]
        have hdrawn : CallsServedBut skip { w.state with challengeSequence := sequence } :=
          h.stand (.of_eq rfl rfl rfl rfl)
        refine placeMessage (hdrawn.setStation n ?_) n _
        exact hn.symm

/-- A REGISTER, as the position's record takes it (R58). -/
theorem takeRegister {w : Work} (h : CallsServedBut skip w.state) (n identity : Nat) :
    CallsServedBut skip (w.takeRegister n identity).state := by
  unfold Work.takeRegister
  split
  · exact h.judgeRegister identity (by rename_i hn; rw [hn]; rfl)
  · rename_i hn
    have hlt : n < 96 := State.lt_of_identity (by rw [hn]; rfl)
    refine (h.withdraw _ n).judgeRegister identity ?_
    rw [w.withdraw_station _ hlt, hn]
    simp [Station.withdrawn, StationState.admittedIdentity]
  all_goals exact h

/-- A LEAVE, as the position's record takes it (R64, R66). -/
theorem takeLeave {w : Work} (h : CallsServedBut skip w.state) (n : Nat) :
    CallsServedBut skip (w.takeLeave n).state := by
  unfold Work.takeLeave
  split
  · exact h.withdraw _ n
  · exact h.setStation n (by rename_i hn; rw [hn]; rfl)
  all_goals exact h

/-- A call-keeping restart keeps who is ADMITTED, and discards the PENDING records (R53, R109). -/
theorem startKeep {s : State} (h : CallsServedBut skip s) (cause : RestartCause) :
    CallsServedBut skip (s.startKeep cause) := by
  have hstation : ∀ n i, ((s.keepTables cause).station n).state = .admitted i
      ↔ (s.station n).state = .admitted i := fun n i => by
    rw [State.keepTables_station]
    cases hn : (s.station n).state <;> simp [Station.keptByRestart, hn]
  have htables : CallsServedBut skip (s.keepTables cause) :=
    h.of_leaving (fun _ hi => hi) (h.table.of_shrinks (.of_eq rfl))
      (fun c hc => ⟨c, hc, rfl, rfl, rfl⟩) (fun _ _ => rfl) (fun _ e _ he => ⟨e, he, rfl, rfl⟩)
      (fun n i => (hstation n i).1) fun n i hi => .inl ((hstation n i).2 hi)
  exact finish (htables.releaseWhere (w := Work.start (s.keepTables cause)) none _)

theorem endRestart {s : State} (h : CallsServedBut skip s) (mode : RestartMode) :
    CallsServedBut skip (s.endRestart mode) := by
  have hended : SameHoldings s { s with restart := none } := .of_eq rfl rfl rfl rfl
  exact h.stand (hended.trans (((State.append_onlyPorts _ _ _).trans
    (State.append_onlyPorts _ _ _)).trans (State.append_onlyPorts _ _ _)).sameHoldings)

/-- A station that was not ADMITTED is ADMITTED: no call names its position (R61, R89). -/
theorem setAdmitted {s : State} (h : CallsServedBut skip s) {n : Nat}
    (hn : (s.station n).state.admittedIdentity = none) (v : Station) :
    CallsServedBut skip (s.setStation n v) := by
  have hfree : ∀ c ∈ s.connections, ¬160 ≤ c.source → ∀ m, c.names m = true → m < 96 → m ≠ n := by
    rintro c hc hsource m hnames hm rfl
    obtain ⟨i, hi⟩ := h.stations c hc hsource m hnames hm
    rw [hi] at hn
    cases hn
  have hother : ∀ m, m ≠ n → (s.setStation n v).station m = s.station m := fun m hm => by
    rw [State.station_setStation, if_neg fun heq => hm heq.1]
  refine ⟨h.table, fun c hc hsource m hnames hm => ?_,
    fun c hc m k hends hm hlow hhigh i hi hnot => ?_⟩
  · rw [hother m (hfree c hc hsource m hnames hm)]
    exact h.stations c hc hsource m hnames hm
  · have hsource : ¬160 ≤ c.source := by omega
    have hnames : c.names m = true := by
      simp only [Connection.names, Bool.or_eq_true, beq_iff_eq]
      omega
    rw [hother m (hfree c hc hsource m hnames hm)] at hi
    exact h.service c hc m k hends hm hlow hhigh i hi hnot

/-- A correct ANSWER withdraws the identity's station elsewhere, and ADMITs this one (R61). -/
theorem takeAnswer {w : Work} (h : CallsServedBut skip w.state) (n : Nat) (response : Word16) :
    CallsServedBut skip (w.takeAnswer n response).state := by
  unfold Work.takeAnswer
  split
  · rename_i identity _ _ _ hn
    have hidle : (w.state.station n).state.admittedIdentity = none := by rw [hn]; rfl
    split
    · rw [Work.admitStation_state]
      have hrelocated : CallsServedBut skip (w.relocate n identity).state := by
        unfold Work.relocate
        split
        · exact h.withdraw _ _
        · exact h
      refine placeMessage (hrelocated.setAdmitted ?_ _) n _
      rcases ((w.relocate_recedes n identity).stations n).2 with hsame | ⟨hnone, -⟩
      · rw [hsame, hidle]
      · cases hs : ((w.relocate n identity).state.station n).state <;>
          simp_all [StationState.identity, StationState.admittedIdentity]
    · exact h.countFailure identity _ hidle
  all_goals exact h

end CallsServedBut

end Sys2Proof.Machine
end

section
/-! SUPPORT. The rows by which the calls of stations stand, one lemma a row (R8, R9, R28, R54). -/

namespace Sys2Proof.Machine

namespace CallsServed

/-- Work that touches nothing that the laws of stations in calls read. -/
theorem stand {s t : State} (h : CallsServed s) (hst : SameHoldings s t) : CallsServed t :=
  CallsServedBut.stand h hst

/-- Records, slots, entries and stations are not written. -/
theorem of_eq {s t : State} (h : CallsServed s) (hconnections : t.connections = s.connections)
    (hslots : t.slots = s.slots) (hdirectory : t.directory = s.directory)
    (hstations : t.stations = s.stations) : CallsServed t :=
  h.stand (.of_eq hconnections hslots hdirectory hstations)

theorem setPort {s : State} (h : CallsServed s) (p : Port) (v : PortState) :
    CallsServed (s.setPort p v) := h.stand (s.setPort_onlyPorts p v).sameHoldings

/-! ### The take of a row keeps what its own answer keeps -/

theorem replied {s : State} (hs : CallsServed s) (p : Port) (o : OrderRecord) {a : Answer}
    (ha : a.Leaves CallsServed) : CallsServed (s.replied p o a) := by
  cases a with
  | refuse outcome fields => exact hs.setPort _ _
  | done fields w =>
    exact CallsServed.stand ha
      ((State.append_onlyPorts _ _ _).trans (State.postAll_onlyPorts _ _)).sameHoldings
  | restart t => exact ha

/-- A row whose own answers keep the laws, from a state in which another law holds. -/
theorem row_of_take {J : State → Prop} (hJ : OfTables J) {i : Instr} {mine : OrderRecord → Bool}
    {codes : List Byte → Bool} {authority : Authority} {body : Port → List Byte → State → Answer}
    (meaning : State → Host.Outcome State Fault Refusal) (hexec : ∀ s, exec i s = meaning s)
    (htake : ∀ s, meaning s = takeOrder mine codes authority body s)
    (hbody : ∀ p params u, J u → CallsServed u → (body p params u).Leaves CallsServed)
    {s t : State} (hj : J s) (hs : CallsServed s) (h : exec i s = .next t) : CallsServed t := by
  rw [hexec, htake] at h
  rcases takeOrder_cases h with rfl | ⟨p, o, -, -, rfl⟩
  · exact hs
  have htaken : CallsServed (s.taken p) := hs.stand (s.taken_sameHoldings p)
  have hjtaken : J (s.taken p) := hJ s _ (s.taken_sameTables p) hj
  refine htaken.replied p o ?_
  unfold answerTo
  split
  · trivial
  · split
    · trivial
    · exact hbody p o.params _ hjtaken htaken

/-- A row whose own answers keep the laws. -/
theorem row {i : Instr} {mine : OrderRecord → Bool} {codes : List Byte → Bool}
    {authority : Authority} {body : Port → List Byte → State → Answer}
    (meaning : State → Host.Outcome State Fault Refusal) (hexec : ∀ s, exec i s = meaning s)
    (htake : ∀ s, meaning s = takeOrder mine codes authority body s)
    (hbody : ∀ p params u, CallsServed u → (body p params u).Leaves CallsServed) :
    KeepingRow CallsServed i := fun _ _ hs h =>
  row_of_take (J := fun _ => True) (fun _ _ _ _ => trivial) meaning hexec htake
    (fun p params u _ hu => hbody p params u hu) trivial hs h

/-! ### Mastership (R18 to R24) -/

theorem holdMastership {s : State} (h : CallsServed s) (x : Controller) :
    CallsServed (s.holdMastership x) := h.of_eq rfl rfl rfl rfl

theorem claim : KeepingRow CallsServed .claim :=
  row execClaim (fun _ => rfl) (fun _ => rfl) fun p _ s hs => by
    refine byController_leaves (fun x => ?_) p
    unfold claimBy
    split
    · exact masteryDone_leaves (hs.holdMastership x) _ _
    · split
      · exact masteryDone_leaves (hs.holdMastership x) _ _
      · trivial
    · exact masteryDone_leaves (hs.holdMastership x) _ _

theorem pulse : KeepingRow CallsServed .pulse :=
  row execPulse (fun _ => rfl) (fun _ => rfl) fun p _ s hs => by
    refine byController_leaves (fun x => ?_) p
    unfold pulseBy
    split
    · split
      · exact masteryDone_leaves (hs.holdMastership x) _ _
      · trivial
    · split
      · exact masteryDone_leaves (hs.holdMastership x) _ _
      · trivial
    · trivial

theorem yield : KeepingRow CallsServed .yield :=
  row execYield (fun _ => rfl) (fun _ => rfl) fun p _ s hs => by
    refine byController_leaves (fun x => ?_) p
    unfold yieldBy
    split
    · refine masteryDone_leaves ?_ _ _
      exact hs.of_eq rfl rfl rfl rfl
    · trivial

theorem assign : KeepingRow CallsServed .assign :=
  row execAssign (fun _ => rfl) (fun _ => rfl) fun _ _ s hs => by
    refine masteryDone_leaves ?_ _ _
    split
    · exact hs.holdMastership _
    · exact hs.of_eq rfl rfl rfl rfl

theorem setLapse : KeepingRow CallsServed .setLapse :=
  row execSetLapse (fun _ => rfl) (fun _ => rfl) fun _ _ s hs => by
    refine masteryDone_leaves ?_ _ _
    exact hs.of_eq rfl rfl rfl rfl

/-! ### The directory and the precedence map (R32, R34, R36, R42) -/

/-- An entry changes, but for its mask and its privacy class. -/
theorem mapEntry {s : State} (h : CallsServed s) (identity : Nat)
    {f : DirectoryEntry → DirectoryEntry} (hidentity : ∀ e, (f e).identity = e.identity)
    (hf : ∀ e, (f e).mask = e.mask ∧ (f e).privacy = e.privacy) :
    CallsServed (s.mapEntry identity f) := by
  refine h.stand ⟨rfl, fun c hc => ⟨c, hc, rfl, rfl, rfl⟩, rfl, fun i e _ he => ?_, fun _ => rfl⟩
  refine ⟨if i = identity then f e else e, ?_, ?_⟩
  · rw [s.mapEntry_entry identity hidentity, he]
    rfl
  · split
    · exact hf e
    · exact ⟨rfl, rfl⟩

/-- An identity that is new leaves every entry as it was. -/
theorem enter : KeepingRow CallsServed .enter :=
  row execEnter (fun _ => rfl) (fun _ => rfl) fun _ params s hs => by
    unfold enterEntry
    dsimp only
    split
    · trivial
    · split
      · trivial
      · rename_i hnew
        split
        · trivial
        · refine hs.stand ⟨rfl, fun c hc => ⟨c, hc, rfl, rfl, rfl⟩, rfl, fun i e _ he => ?_,
            fun _ => rfl⟩
          have hne : (enteredEntry params).identity ≠ i := fun heq => hnew (by rw [heq, he]; rfl)
          exact ⟨e, (insertEntry_find? (by simpa using hne) s.directory).trans he, rfl, rfl⟩

theorem setSecret : KeepingRow CallsServed .setSecret :=
  row execSetSecret (fun _ => rfl) (fun _ => rfl) fun _ _ _ hs =>
    onEntry_leaves fun _ _ => hs.mapEntry _ (fun _ => rfl) fun _ => ⟨rfl, rfl⟩

theorem resume : KeepingRow CallsServed .resume :=
  row execResume (fun _ => rfl) (fun _ => rfl) fun _ _ _ hs =>
    onEntry_leaves fun _ _ => hs.mapEntry _ (fun _ => rfl) fun _ => ⟨rfl, rfl⟩

theorem setPrecedenceMap : KeepingRow CallsServed .setPrecedenceMap :=
  row execSetPrecedenceMap (fun _ => rfl) (fun _ => rfl) fun _ _ s hs => by
    dsimp only
    split
    · trivial
    · exact hs.of_eq rfl rfl rfl rfl

/-! ### Admission (R56, R70 to R72) -/

theorem deliver : KeepingRow CallsServed .deliver :=
  row execDeliver (fun _ => rfl) (fun _ => rfl) fun _ _ s hs => by
    unfold deliverTo
    split
    · trivial
    · split
      · trivial
      · split
        · trivial
        · exact CallsServedBut.setStation hs _ rfl

theorem releaseLockout : KeepingRow CallsServed .releaseLockout :=
  row execReleaseLockout (fun _ => rfl) (fun _ => rfl) fun _ _ s hs => by
    dsimp only
    split
    · trivial
    · simp only [Answer.plain, Answer.Leaves, Work.start_state]
      split
      · rename_i hlocked
        exact CallsServedBut.setStation hs _ (by rw [hlocked]; rfl)
      · exact hs

theorem setAdmissionTimes : KeepingRow CallsServed .setAdmissionTimes :=
  row execSetAdmissionTimes (fun _ => rfl) (fun _ => rfl) fun _ _ _ hs => by
    exact hs.of_eq rfl rfl rfl rfl

theorem seedChallenge : KeepingRow CallsServed .seedChallenge :=
  row execSeedChallenge (fun _ => rfl) (fun _ => rfl) fun _ _ _ hs => by
    exact hs.of_eq rfl rfl rfl rfl

/-! ### The switching network, groups and keys (R104, R114, R129, R130, R142) -/

theorem setMuteCode : KeepingRow CallsServed .setMuteCode :=
  row execSetMuteCode (fun _ => rfl) (fun _ => rfl) fun _ _ _ hs => by
    exact hs.of_eq rfl rfl rfl rfl

theorem setGroup : KeepingRow CallsServed .setGroup :=
  row execSetGroup (fun _ => rfl) (fun _ => rfl) fun _ _ s hs => by
    unfold setGroupSettings
    dsimp only
    split
    · trivial
    · simp only [Answer.Leaves, Work.reevaluate_state]
      exact hs.of_eq rfl rfl rfl rfl

theorem loadKey : KeepingRow CallsServed .loadKey :=
  row execLoadKey (fun _ => rfl) (fun _ => rfl) fun _ _ _ hs => by
    refine onFreeKey_leaves ?_ _
    exact hs.of_eq rfl rfl rfl rfl

theorem eraseKey : KeepingRow CallsServed .eraseKey :=
  row execEraseKey (fun _ => rfl) (fun _ => rfl) fun _ _ _ hs => by
    refine onFreeKey_leaves ?_ _
    exact hs.of_eq rfl rfl rfl rfl

theorem resync : KeepingRow CallsServed .resync :=
  row execResync (fun _ => rfl) (fun _ => rfl) fun _ _ _ hs => by
    unfold resyncId
    split
    · trivial
    · split
      · trivial
      · split
        · exact hs.of_eq rfl rfl rfl rfl
        · trivial

/-! ### Call trace (R161 to R167) -/

/-- A trace hold changes no record beside its own mark (R163). -/
theorem clearHold {s : State} (h : CallsServed s) (n : Nat) : CallsServed (s.clearHold n) := by
  unfold State.clearHold
  split
  · rename_i trace _
    refine h.stand (.of_map (f := fun c => if c.id == trace.connectionId then _ else c) rfl
      (fun c => ?_) rfl rfl rfl)
    split
    · exact ⟨rfl, rfl⟩
    · exact ⟨rfl, rfl⟩
  · exact h

theorem setWatch {s : State} (h : CallsServed s) (n : Nat) (v : Watch) :
    CallsServed (s.setWatch n v) := h.of_eq rfl rfl rfl rfl

theorem armWatch : KeepingRow CallsServed .armWatch :=
  row execArmWatch (fun _ => rfl) (fun _ => rfl) fun _ _ _ hs => by
    unfold armWatchOn
    split
    · trivial
    · split
      · trivial
      · split
        · trivial
        · exact hs.of_eq rfl rfl rfl rfl

theorem disarmWatch : KeepingRow CallsServed .disarmWatch :=
  row execDisarmWatch (fun _ => rfl) (fun _ => rfl) fun _ _ s hs => by
    dsimp only
    split
    · trivial
    · exact (hs.clearHold _).setWatch _ _

theorem clearTrace : KeepingRow CallsServed .clearTrace :=
  row execClearTrace (fun _ => rfl) (fun _ => rfl) fun _ _ s hs => by
    unfold clearTraceOf
    split
    · trivial
    · split
      · trivial
      · exact hs
      · exact (hs.clearHold _).setWatch _ _

theorem releaseHold : KeepingRow CallsServed .releaseHold :=
  row execReleaseHold (fun _ => rfl) (fun _ => rfl) fun _ _ s hs => by
    unfold releaseHoldOf
    split
    · trivial
    · split
      · trivial
      · trivial
      · exact hs.clearHold _

/-! ### The looks (R9) -/

/-- A look that is refused on a condition, and otherwise leaves what it found. -/
theorem look_guarded {s : State} (hs : CallsServed s) {refused : Prop} [Decidable refused]
    (outcome : OutcomeCode) (fields fields' : List Byte) :
    (if refused then Answer.refuse outcome fields else .plain fields' s).Leaves CallsServed := by
  split
  · trivial
  · exact hs

theorem lookMastership : KeepingRow CallsServed .lookMastership :=
  row execLookMastership (fun _ => rfl) (fun _ => rfl) fun _ _ _ hs => hs

theorem lookPrecedenceMap : KeepingRow CallsServed .lookPrecedenceMap :=
  row execLookPrecedenceMap (fun _ => rfl) (fun _ => rfl) fun _ _ _ hs => hs

theorem lookAdmissionTimes : KeepingRow CallsServed .lookAdmissionTimes :=
  row execLookAdmissionTimes (fun _ => rfl) (fun _ => rfl) fun _ _ _ hs => hs

theorem lookNetwork : KeepingRow CallsServed .lookNetwork :=
  row execLookNetwork (fun _ => rfl) (fun _ => rfl) fun _ _ _ hs => hs

theorem lookPort : KeepingRow CallsServed .lookPort :=
  row execLookPort (fun _ => rfl) (fun _ => rfl) fun _ _ _ hs => look_guarded hs _ _ _

theorem lookStation : KeepingRow CallsServed .lookStation :=
  row execLookStation (fun _ => rfl) (fun _ => rfl) fun _ _ _ hs => look_guarded hs _ _ _

theorem lookEndpoint : KeepingRow CallsServed .lookEndpoint :=
  row execLookEndpoint (fun _ => rfl) (fun _ => rfl) fun _ _ _ hs => look_guarded hs _ _ _

theorem lookTrunk : KeepingRow CallsServed .lookTrunk :=
  row execLookTrunk (fun _ => rfl) (fun _ => rfl) fun _ _ _ hs => look_guarded hs _ _ _

theorem lookGroup : KeepingRow CallsServed .lookGroup :=
  row execLookGroup (fun _ => rfl) (fun _ => rfl) fun _ _ _ hs => look_guarded hs _ _ _

theorem lookKey : KeepingRow CallsServed .lookKey :=
  row execLookKey (fun _ => rfl) (fun _ => rfl) fun _ _ _ hs => look_guarded hs _ _ _

theorem lookEntry : KeepingRow CallsServed .lookEntry :=
  row execLookEntry (fun _ => rfl) (fun _ => rfl) fun _ _ _ hs => by
    split
    · trivial
    · split
      · exact hs
      · trivial

theorem lookNextEntry : KeepingRow CallsServed .lookNextEntry :=
  row execLookNextEntry (fun _ => rfl) (fun _ => rfl) fun _ _ _ hs => by
    split
    · trivial
    · split
      · exact hs
      · trivial

theorem lookConnection : KeepingRow CallsServed .lookConnection :=
  row execLookConnection (fun _ => rfl) (fun _ => rfl) fun _ _ _ hs => by
    split
    · trivial
    · split
      · exact hs
      · trivial

theorem lookNextConnection : KeepingRow CallsServed .lookNextConnection :=
  row execLookNextConnection (fun _ => rfl) (fun _ => rfl) fun _ _ _ hs => by
    split
    · trivial
    · split
      · exact hs
      · trivial

theorem lookLeg : KeepingRow CallsServed .lookLeg :=
  row execLookLeg (fun _ => rfl) (fun _ => rfl) fun _ _ _ hs => by
    unfold lookLegId
    split
    · trivial
    · split
      · trivial
      · split
        · trivial
        · exact hs.of_eq rfl rfl rfl rfl

theorem lookWatch : KeepingRow CallsServed .lookWatch :=
  row execLookWatch (fun _ => rfl) (fun _ => rfl) fun _ _ _ hs => by
    unfold lookWatchOf
    split
    · trivial
    · exact hs.of_eq rfl rfl rfl rfl

/-! ### The issuing port, and transfers (R2 to R5, R8, R13) -/

theorem unknownOrder : KeepingRow CallsServed .unknownOrder :=
  row execUnknownOrder (fun _ => rfl) (fun _ => rfl) fun _ _ _ _ => trivial

theorem readCauses : KeepingRow CallsServed .readCauses :=
  row execReadCauses (fun _ => rfl) (fun _ => rfl) fun _ _ _ hs => hs.setPort _ _

theorem setPortMode : KeepingRow CallsServed .setPortMode :=
  row execSetPortMode (fun _ => rfl) (fun _ => rfl) fun _ _ _ hs => hs.setPort _ _

/-- A command that changes the ports alone. -/
theorem row_of_onlyPorts {i : Instr} (h : ∀ s t, exec i s = .next t → OnlyPorts s t) :
    KeepingRow CallsServed i := fun s t hs ht => hs.stand (h s t ht).sameHoldings

theorem orderTransfer (p : Port) (part : TransferPart) (record : List Byte) :
    KeepingRow CallsServed (.orderTransfer p part record) := row_of_onlyPorts fun s t h => by
  cases part <;> obtain rfl := Host.Outcome.next.inj h
  · exact s.setPort_onlyPorts p _
  · exact s.completing_onlyPorts p _

theorem fetchTransfer (p : Port) (part : TransferPart) :
    KeepingRow CallsServed (.fetchTransfer p part) := row_of_onlyPorts fun s t h => by
  cases part <;> obtain rfl := Host.Outcome.next.inj h
  · exact s.setPort_onlyPorts p _
  · exact s.completing_onlyPorts p _

theorem statusTransfer (p : Port) (part : TransferPart) :
    KeepingRow CallsServed (.statusTransfer p part) := row_of_onlyPorts fun s t h => by
  cases part <;> obtain rfl := Host.Outcome.next.inj h
  · exact s.setPort_onlyPorts p _
  · exact s.completing_onlyPorts p _

theorem unknownTransferKind (p : Port) (kind : Option Byte) :
    KeepingRow CallsServed (.unknownTransferKind p kind) := row_of_onlyPorts fun s t h => by
  obtain rfl := Host.Outcome.next.inj h
  exact s.completing_onlyPorts p _

/-! ### Deadlines, channels and the frame clock (R17, R57, R63, R69, R86, R102) -/

theorem finish {w : Work} (h : CallsServed w.state) : CallsServed w.finish :=
  CallsServedBut.finish h

theorem lapseTimerExpiry : KeepingRow CallsServed .lapseTimerExpiry := by
  intro s t hs h
  change execLapseTimerExpiry s = _ at h
  unfold execLapseTimerExpiry at h
  split at h <;> obtain rfl := Host.Outcome.next.inj h
  · refine finish ?_
    exact hs.of_eq rfl rfl rfl rfl
  · exact hs

theorem reach {s : State} (h : CallsServed s) (instant : Nat) : CallsServed (s.reach instant) :=
  h.of_eq rfl rfl rfl rfl

theorem answerDeadlineExpiry (n : Fin 96) : KeepingRow CallsServed (.answerDeadlineExpiry n) := by
  intro s t hs h
  change execAnswerDeadlineExpiry n s = _ at h
  unfold execAnswerDeadlineExpiry at h
  split at h <;> obtain rfl := Host.Outcome.next.inj h
  · rename_i identity _ _ deadline hn
    refine finish (CallsServedBut.countFailure (w := Work.start (s.reach deadline))
      (hs.reach deadline) identity _ ?_)
    change (s.station n).state.admittedIdentity = none
    rw [hn]
    rfl
  all_goals exact hs

theorem holdOffExpiry (n : Fin 96) : KeepingRow CallsServed (.holdOffExpiry n) := by
  intro s t hs h
  change execHoldOffExpiry n s = _ at h
  unfold execHoldOffExpiry at h
  split at h <;> obtain rfl := Host.Outcome.next.inj h
  · rename_i deadline hn
    refine CallsServedBut.setStation (hs.reach deadline) _ ?_
    change none = (s.station n).state.admittedIdentity
    rw [hn]
    rfl
  all_goals exact hs

theorem signal (n : Fin 96) (bytes : List Byte) : KeepingRow CallsServed (.signal n bytes) := by
  intro s t hs h
  change execSignal n bytes s = _ at h
  unfold execSignal at h
  split at h
  · split at h <;> obtain rfl := Host.Outcome.next.inj h
    case h_1 => exact finish hs
    all_goals exact hs
  · obtain rfl := Host.Outcome.next.inj h
    exact hs

theorem unfitStationMessage (n : Fin 48) (message : List Byte) :
    KeepingRow CallsServed (.unfitStationMessage n message) := by
  intro s t hs h
  obtain rfl := Host.Outcome.next.inj h
  exact hs

/-- The message that a channel takes leaves the state of its station (R57). -/
theorem sendFrom {s : State} (h : CallsServed s) (n : Nat) (second : Bool) :
    CallsServed (s.sendFrom n second) := by
  unfold State.sendFrom
  dsimp only
  split
  · rename_i rest hnext
    refine CallsServedBut.setLine (CallsServedBut.setStation h _ (congrArg _ ?_)) n _
    unfold Station.nextMessage at hnext
    split at hnext
    · obtain rfl := (Prod.mk.inj (Option.some.inj hnext)).2
      rfl
    · split at hnext
      · obtain rfl := (Prod.mk.inj (Option.some.inj hnext)).2
        rfl
      · cases hnext
  · exact h

theorem beginSend (n : Fin 48) : KeepingRow CallsServed (.beginSend n) := by
  intro s t hs h
  change execBeginSend n s = _ at h
  unfold execBeginSend at h
  split at h
  · split at h <;> obtain rfl := Host.Outcome.next.inj h
    · exact hs.sendFrom _ _
    · exact hs
  · obtain rfl := Host.Outcome.next.inj h
    exact hs

theorem sendCompletion (n : Fin 48) : KeepingRow CallsServed (.sendCompletion n) := by
  intro s t hs h
  obtain rfl := Host.Outcome.next.inj h
  exact CallsServedBut.setLine hs _ _

theorem sampleArrival (samples : List Byte) : KeepingRow CallsServed (.sampleArrival samples) := by
  intro s t hs h
  obtain rfl := Host.Outcome.next.inj h
  exact hs.of_eq rfl rfl rfl rfl

theorem resetPinRelease : KeepingRow CallsServed .resetPinRelease := by
  intro s t hs h
  change execResetPinRelease s = _ at h
  unfold execResetPinRelease at h
  split at h <;> obtain rfl := Host.Outcome.next.inj h
  · exact hs.of_eq rfl rfl rfl rfl
  · exact hs

end CallsServed

end Sys2Proof.Machine
end

section
/-! SUPPORT. The rows by which stations leave with their records, the frame start, and the rows that write
slots, entries or the table of calls (R33, R37, R38, R61, R94, R97, R102, R111). -/

namespace Sys2Proof.Machine

namespace CallsServed

/-! ### Stations leave, and records through the release procedure -/

theorem suspend : KeepingRow CallsServed .suspend :=
  row execSuspend (fun _ => rfl) (fun _ => rfl) fun _ _ s hs =>
    onEntry_leaves fun _ _ => by
      split
      · exact hs
      · refine CallsServedBut.retireIdentity ?_ _ _
        exact hs.mapEntry _ (fun _ => rfl) fun _ => ⟨rfl, rfl⟩

theorem setPortRow : KeepingRow CallsServed .setPort :=
  row execSetPort (fun _ => rfl) (fun _ => rfl) fun _ params s hs => by
    refine setPortSettings_leaves params s ?_
    rintro w rfl
    refine CallsServedBut.clearPositions ?_ _ _
    exact CallsServedBut.setLine hs _ _

theorem withdrawRow : KeepingRow CallsServed .withdraw :=
  row execWithdraw (fun _ => rfl) (fun _ => rfl) fun _ _ s hs => by
    unfold withdrawPosition
    split
    · trivial
    · split
      · trivial
      · exact CallsServedBut.withdraw (w := Work.start s) hs _ _

theorem releaseById : KeepingRow CallsServed .releaseById :=
  row execReleaseById (fun _ => rfl) (fun _ => rfl) fun _ _ s hs => by
    unfold releaseId
    split
    · trivial
    · split
      · trivial
      · rename_i c hc
        split
        · trivial
        · exact CallsServedBut.release (w := Work.start s) hs none (List.mem_of_find?_eq_some hc)

theorem releaseByTag : KeepingRow CallsServed .releaseByTag :=
  row execReleaseByTag (fun _ => rfl) (fun _ => rfl) fun _ _ s hs => by
    unfold releaseTag
    split
    · trivial
    · exact CallsServedBut.releaseWhere (w := Work.start s) hs _ _

theorem restartKeep : KeepingRow CallsServed .restartKeep :=
  row execRestartKeep (fun _ => rfl) (fun _ => rfl) fun _ _ _ hs => CallsServedBut.startKeep hs _

theorem register (n : Fin 96) (identity : Word16) :
    KeepingRow CallsServed (.register n identity) := by
  intro s t hs h
  change execRegister n identity s = _ at h
  unfold execRegister at h
  split at h <;> obtain rfl := Host.Outcome.next.inj h
  · exact finish (CallsServedBut.takeRegister (w := Work.start s) hs _ _)
  · exact hs

theorem answer (n : Fin 96) (response : Word16) : KeepingRow CallsServed (.answer n response) := by
  intro s t hs h
  change execAnswer n response s = _ at h
  unfold execAnswer at h
  split at h <;> obtain rfl := Host.Outcome.next.inj h
  · exact finish (CallsServedBut.takeAnswer (w := Work.start s) hs _ _)
  · exact hs

theorem leave (n : Fin 96) : KeepingRow CallsServed (.leave n) := by
  intro s t hs h
  change execLeave n s = _ at h
  unfold execLeave at h
  split at h <;> obtain rfl := Host.Outcome.next.inj h
  · exact finish (CallsServedBut.takeLeave (w := Work.start s) hs _)
  · exact hs

theorem babble (n : Fin 48) : KeepingRow CallsServed (.babble n) := by
  intro s t hs h
  change execBabble n s = _ at h
  unfold execBabble at h
  dsimp only at h
  split at h
  · obtain rfl := Host.Outcome.next.inj h
    exact hs
  · split at h <;> obtain rfl := Host.Outcome.next.inj h
    · refine finish (CallsServedBut.disableForBabble ?_ _)
      exact CallsServedBut.setLine hs _ _
    · exact CallsServedBut.setLine hs _ _

theorem linkUp (n : Fin 48) : KeepingRow CallsServed (.linkUp n) := by
  intro s t hs h
  change execLinkUp n s = _ at h
  unfold execLinkUp at h
  split at h <;> obtain rfl := Host.Outcome.next.inj h
  · exact hs
  · exact finish (CallsServedBut.reportLink (w := Work.start s) hs _ _)

theorem linkDown (n : Fin 48) : KeepingRow CallsServed (.linkDown n) := by
  intro s t hs h
  change execLinkDown n s = _ at h
  unfold execLinkDown at h
  split at h <;> obtain rfl := Host.Outcome.next.inj h
  · exact hs
  · exact finish (CallsServedBut.reportLink (w := Work.start s) hs _ _)

theorem restartComplete (links : List Bool) : KeepingRow CallsServed (.restartComplete links) := by
  intro s t hs h
  change execRestartComplete links s = _ at h
  unfold execRestartComplete at h
  split at h
  · split at h <;> obtain rfl := Host.Outcome.next.inj h
    · exact hs
    · exact finish (CallsServedBut.rereadLinks (w := Work.start _)
        (CallsServedBut.endRestart hs _) links)
  · obtain rfl := Host.Outcome.next.inj h
    exact hs

theorem reset : CallsServed State.reset :=
  ⟨TableLaw.reset, nofun, nofun⟩

/-- A cold restart empties the tables (R173). -/
theorem startCold (s : State) (cause : RestartCause) : CallsServed (s.startCold cause) :=
  reset.of_eq rfl rfl rfl rfl

theorem restartCold : KeepingRow CallsServed .restartCold :=
  row execRestartCold (fun _ => rfl) (fun _ => rfl) fun _ _ s _ => startCold s _

theorem powerOn : KeepingRow CallsServed .powerOn := by
  intro s t _ h
  obtain rfl := Host.Outcome.next.inj h
  exact startCold s _

theorem resetPin : KeepingRow CallsServed .resetPin := by
  intro s t hs h
  change execResetPin s = _ at h
  unfold execResetPin at h
  split at h <;> obtain rfl := Host.Outcome.next.inj h
  · exact hs
  · exact (startCold s .pin).of_eq rfl rfl rfl rfl

/-! ### The frame start (R102, R103, R162) -/

/-- A change of a record that leaves its ends and its privacy part. -/
theorem mapConnection {s : State} (h : CallsServed s) (id : Nat) {f : Connection → Connection}
    (hf : ∀ c, (f c).ends = c.ends ∧ (f c).privacy = c.privacy) :
    CallsServed (s.mapConnection id f) := by
  refine h.stand (.of_map (f := fun c => if c.id == id then f c else c) rfl (fun c => ?_) rfl rfl rfl)
  split
  · exact hf c
  · exact ⟨rfl, rfl⟩

/-- Work on legs, watches and outgoing samples that leaves the records (R103, R135). -/
theorem of_onlyFrames {s t : State} (h : CallsServed s) (hframes : OnlyFrames s t)
    (hconnections : t.connections = s.connections) : CallsServed t := by
  unfold OnlyFrames at hframes
  rw [hframes]
  exact h.of_eq hconnections rfl rfl rfl

theorem examine {w : Work} (h : CallsServed w.state) (c : Connection) (n : Nat) :
    CallsServed (w.examine c n).state := by
  unfold Work.examine
  split
  · split
    · dsimp only
      split
      · refine mapConnection (h.setWatch _ _) _ ?_
        exact fun _ => ⟨rfl, rfl⟩
      · exact h.setWatch _ _
    · exact h
  · exact h
  · exact h

/-- A promotion writes the record's mark and its leg, and the watches (R102). -/
theorem promote {w : Work} (h : CallsServed w.state) (c : Connection) :
    CallsServed (w.promote c).state := by
  have hexamined : ∀ (ns : List Nat) (w : Work), CallsServed w.state →
      CallsServed (ns.foldl (fun w n => w.examine c n) w).state := fun ns => by
    induction ns with
    | nil => exact fun _ h => h
    | cons n ns ih => exact fun _ h => ih _ (h.examine c n)
  unfold Work.promote
  refine hexamined _ _ ?_
  have hlive := h.mapConnection c.id (f := fun d => { d with live := true }) fun _ => ⟨rfl, rfl⟩
  exact hlive.of_onlyFrames (State.startLeg_onlyFrames _ c) (State.startLeg_connections _ c)

theorem foldl_promote {w : Work} (h : CallsServed w.state) (cs : List Connection) :
    CallsServed (cs.foldl Work.promote w).state := by
  induction cs generalizing w with
  | nil => exact h
  | cons c cs ih => exact ih (h.promote c)

theorem foldl_carry {w : Work} (h : CallsServed w.state) (cs : List Connection) :
    CallsServed (cs.foldl Work.carry w).state := by
  induction cs generalizing w with
  | nil => exact h
  | cons c cs ih =>
    exact ih (h.of_onlyFrames (w.carry_onlyFrames c) (w.carry_connections c))

theorem frameStart : KeepingRow CallsServed .frameStart := by
  intro s t hs h
  obtain rfl := Host.Outcome.next.inj h
  have hopened : CallsServed (Work.start s.openFrame).state := hs.of_eq rfl rfl rfl rfl
  exact finish ((hopened.foldl_promote _).foldl_carry _)

/-! ### A slot that is not busy (R111) -/

theorem setTrunk : KeepingRow CallsServed .setTrunk :=
  row execSetTrunk (fun _ => rfl) (fun _ => rfl) fun _ params s hs => by
    unfold setTrunkSlot
    dsimp only
    split
    · trivial
    · split
      · trivial
      · rename_i hfree
        refine CallsServedBut.of_leaving hs (fun _ hi => hi) (hs.table.of_shrinks (.of_eq rfl))
          (fun c hc => ⟨c, hc, rfl, rfl, rfl⟩) (fun n hn => ?_) (fun _ e _ he => ⟨e, he, rfl, rfl⟩)
          (fun _ _ hi => hi) fun _ _ hi => .inl hi
        obtain ⟨c, hc, hnames⟩ := hn
        refine State.slot_setSlot_ne _ ?_ _
        rintro rfl
        exact hfree (List.any_eq_true.2 ⟨c, hc, hnames⟩)

/-! ### The entry of one identity changes (R33, R37, R38) -/

/-- An entry has changed or gone: the calls of the other identities stand. -/
theorem but {s d : State} (h : CallsServed s) (identity : Nat)
    (hentry : ∀ i, i ≠ identity → d.entry i = s.entry i) (hconnections : d.connections = s.connections)
    (hslots : d.slots = s.slots) (hstations : d.stations = s.stations) :
    CallsServedBut (· = identity) d := by
  have hstation : ∀ n, d.station n = s.station n := fun n => by unfold State.station; rw [hstations]
  exact CallsServedBut.of_leaving h (fun _ hi => hi.elim) (h.table.of_shrinks (.of_eq hconnections))
    (fun c hc => ⟨c, hconnections ▸ hc, rfl, rfl, rfl⟩)
    (fun n _ => by unfold State.slot; rw [hslots])
    (fun i e hi he => ⟨e, (hentry i hi).trans he, rfl, rfl⟩) (fun n i hi => hstation n ▸ hi)
    fun n i hi => .inl (by rw [hstation]; exact hi)

/-- The calls of the identity left out conform too. -/
theorem of_but {s : State} {identity : Nat} (h : CallsServedBut (· = identity) s)
    (hconforms : ∀ c ∈ s.connections, ∀ station trunk,
      ((c.source = station ∧ c.destination = trunk) ∨ (c.source = trunk ∧ c.destination = station)) →
      station < 96 → 96 ≤ trunk → trunk < 160 → (s.station station).state = .admitted identity →
      ∃ e, s.entry identity = some e ∧ Conforms s e trunk c.privacy.isSome) : CallsServed s where
  table := h.table
  stations := h.stations
  service := fun c hc n m hends hn hlow hhigh i hi _ => by
    by_cases hid : i = identity
    · subst hid
      exact hconforms c hc n m hends hn hlow hhigh hi
    · exact h.service c hc n m hends hn hlow hhigh i hi hid

end CallsServed

/-- The law of admission is one of the directory, the line ports and the stations. -/
theorem AdmissionLaw.ofTables : OfTables AdmissionLaw := fun s t hsame hs =>
  hs.of_states (fun n _ _ => by rw [hsame.station]) fun n i _ hhome =>
    hhome.of_eq hsame.directory (by rw [hsame.line]; exact ⟨rfl, rfl⟩)

namespace CallsServed

/-- The station of an identity that is removed leaves with its records (R33). -/
theorem remove {s t : State} (hadmission : AdmissionLaw s) (hs : CallsServed s)
    (h : exec .remove s = .next t) : CallsServed t :=
  row_of_take AdmissionLaw.ofTables execRemove (fun _ => rfl) (fun _ => rfl)
    (fun _ params u hadmission hu => onEntry_leaves fun _ _ => by
      generalize param2 params 0 = identity
      have hunique : ∀ n m, (u.station n).state = .admitted identity →
          (u.station m).state = .admitted identity → n = m := fun n m => hadmission.2 n m identity
      have hgone := (Work.start (u.dropEntry identity)).retireIdentity_identity .removed hunique
      have hdropped : CallsServedBut (· = identity) (Work.start (u.dropEntry identity)).state :=
        hu.but identity (fun i hi => u.dropEntry_entry hi) rfl rfl rfl
      refine of_but (hdropped.retireIdentity .removed identity) ?_
      intro c _ n _ _ _ _ _ hn
      exact absurd (congrArg StationState.identity hn) (hgone n))
    hadmission hs h

/-! ### AMEND (R37, R38, R156) -/

/-- The class-change judgement leaves the calls of the amended identity that conform to its entry
(R38, R156). -/
theorem judgeClass {w : Work} {e : DirectoryEntry} (h : CallsServedBut (· = e.identity) w.state)
    (hentry : w.state.entry e.identity = some e)
    (hunique : ∀ n m, (w.state.station n).state = .admitted e.identity →
      (w.state.station m).state = .admitted e.identity → n = m) :
    CallsServed (w.judgeClass e).state := by
  unfold Work.judgeClass
  split
  · rename_i position hposition
    refine of_but (h.releaseWhere _ _) fun c hc n m hends hn hlow hhigh hadmitted => ?_
    have hcalls := w.releaseWhere_onlyCalls (some .classChange)
      (classChangeSelects w.state e position)
    have hstations := congrArg State.stations hcalls
    have hdirectory := congrArg State.directory hcalls
    have hslots := congrArg State.slots hcalls
    have hbefore : (w.state.station n).state = .admitted e.identity := by
      unfold State.station at hadmitted ⊢
      rwa [hstations] at hadmitted
    have hat := State.admittedAt_of_admitted hbefore fun m hm => hunique m n hm hbefore
    obtain rfl := Option.some.inj (hposition.symm.trans hat)
    rw [Work.releaseWhere_connections _ _ _ h.table.1, List.mem_filter, Bool.not_eq_true'] at hc
    obtain ⟨-, hstays⟩ := hc
    refine ⟨e, ?_, ?_⟩
    · unfold State.entry at hentry ⊢
      rw [hdirectory]
      exact hentry
    have htrunk : isTrunk m = true := (isTrunk_iff m).2 ⟨hlow, hhigh⟩
    have hjudged : failsMask w.state e m = false ∧ failsPrivacy w.state e m c.privacy.isSome = false := by
      unfold classChangeSelects at hstays
      rcases hends with ⟨rfl, rfl⟩ | ⟨rfl, rfl⟩ <;> simp_all
    obtain ⟨hmask, hprivacy⟩ := hjudged
    rw [← Bool.not_eq_true, failsPrivacy_iff _ _ hlow hhigh, not_not] at hprivacy
    have hslot : (w.releaseWhere (some .classChange)
        (classChangeSelects w.state e position)).state.slot (m - 96) = w.state.slot (m - 96) := by
      unfold State.slot
      rw [hslots]
    unfold Conforms
    rw [hslot]
    exact ⟨by simpa [failsMask, inMask, slotOf] using hmask, hprivacy⟩
  · rename_i hnone
    refine of_but h fun c hc n m _ _ _ _ hadmitted => ?_
    have hat := State.admittedAt_of_admitted hadmitted fun m hm => hunique m n hm hadmitted
    rw [hnone] at hat
    cases hat


/-- An AMEND whose markers leave mask and privacy class alone (R37). -/
theorem amendedEntry_stands {params : List Byte} (h4 : flagSet (paramByte params 4) = false)
    (h6 : flagSet (paramByte params 6) = false) (e : DirectoryEntry) :
    (amendedEntry params e).mask = e.mask ∧ (amendedEntry params e).privacy = e.privacy := by
  simp [amendedEntry, h4, h6]

end CallsServed

/-- An AMEND after its first two requests (R38). -/
def amendHomes (params : List Byte) (s : State) (e : DirectoryEntry) : Work :=
  if flagSet (paramByte params 8) = true then (Work.start s).applyHomePorts e else Work.start s

theorem amendHomes_recedes (params : List Byte) (s : State) (e : DirectoryEntry) :
    Recedes s (amendHomes params s e).state := by
  unfold amendHomes
  split
  · exact (Work.start s).applyHomePorts_recedes e
  · exact .refl s

theorem CallsServedBut.amendHomes {skip : Nat → Prop} {s : State} (h : CallsServedBut skip s)
    (params : List Byte) (e : DirectoryEntry) :
    CallsServedBut skip (amendHomes params s e).state := by
  unfold Machine.amendHomes
  split
  · exact CallsServedBut.applyHomePorts (w := Work.start s) h e
  · exact h

namespace CallsServed

/-- An AMEND that changes the mask or the privacy class judges the calls of the identity; another leaves
what R94 reads of the entry (R37, R38). -/
theorem amend {s t : State} (hadmission : AdmissionLaw s) (hs : CallsServed s)
    (h : exec .amend s = .next t) : CallsServed t :=
  row_of_take AdmissionLaw.ofTables execAmend (fun _ => rfl) (fun _ => rfl)
    (fun _ params u hadmission hu => by
      unfold amendEntry
      dsimp only
      split
      · trivial
      split
      · trivial
      rename_i old hold
      have hidentity : (amendedEntry params old).identity = param2 params 0 :=
        (State.entry_eq_some hold).2
      have hentries := u.mapEntry_entry (param2 params 0) (f := amendedEntry params) fun _ => rfl
      simp only [Answer.Leaves]
      split
      · rename_i hjudges
        have hbut : CallsServedBut (· = (amendedEntry params old).identity)
            (u.mapEntry (param2 params 0) (amendedEntry params)) :=
          hu.but _ (fun i hi => by rw [hentries]; simp [hidentity ▸ hi]) rfl rfl rfl
        have hrecedes := amendHomes_recedes params
          (u.mapEntry (param2 params 0) (amendedEntry params)) (amendedEntry params old)
        refine judgeClass (w := amendHomes params _ _) (hbut.amendHomes params _) ?_ ?_
        · unfold State.entry
          rw [hrecedes.directory]
          change (u.mapEntry _ _).entry _ = _
          rw [hentries, hidentity, hold, Option.map_some, if_pos rfl]
        · have hbefore : ∀ k, ((amendHomes params (u.mapEntry (param2 params 0)
              (amendedEntry params)) (amendedEntry params old)).state.station k).state
                = .admitted (amendedEntry params old).identity →
              (u.station k).state = .admitted (amendedEntry params old).identity := fun k hk =>
            ((hrecedes.stations k).identity (congrArg StationState.identity hk)).symm.trans hk
          exact fun n m hn hm => hadmission.2 n m _ (hbefore n hn) (hbefore m hm)
      · rename_i hkept
        rw [Bool.or_eq_true, not_or, Bool.not_eq_true, Bool.not_eq_true] at hkept
        obtain ⟨h4, h6⟩ := hkept
        have hmapped : CallsServed (u.mapEntry (param2 params 0) (amendedEntry params)) :=
          hu.mapEntry _ (fun _ => rfl) (amendedEntry_stands h4 h6)
        exact CallsServedBut.amendHomes hmapped params (amendedEntry params old))
    hadmission hs h

/-! ### CONNECT (R93, R94, R97) -/

/-- A record comes into the table whose stations are ADMITTED and served. -/
theorem insert {s t : State} (h : CallsServed s) (ht : TableLaw t) {c : Connection}
    (hrecords : ∀ d ∈ t.connections, d = c ∨ d ∈ s.connections) (hslots : t.slots = s.slots)
    (hdirectory : t.directory = s.directory) (hstations : t.stations = s.stations)
    (hadmitted : ¬160 ≤ c.source → ∀ n, c.names n = true → n < 96 →
      ∃ i, (s.station n).state = .admitted i)
    (hserved : ∀ station trunk,
      ((c.source = station ∧ c.destination = trunk) ∨ (c.source = trunk ∧ c.destination = station)) →
      station < 96 → 96 ≤ trunk → trunk < 160 →
      ∀ i, (s.station station).state = .admitted i →
      ∃ e, s.entry i = some e ∧ Conforms s e trunk c.privacy.isSome) : CallsServed t := by
  rw [callsServed_iff] at h ⊢
  obtain ⟨-, hstation, hservice⟩ := h
  unfold StationLaw ServiceLaw Conforms State.entry State.station State.slot at *
  rw [hslots, hdirectory, hstations]
  refine ⟨ht, fun d hd => ?_, fun d hd => ?_⟩
  · rcases hrecords d hd with rfl | hd
    · exact hadmitted
    · exact hstation d hd
  · rcases hrecords d hd with rfl | hd
    · exact hserved
    · exact hservice d hd

/-- The records of a victim leave through the release procedure (R121). -/
theorem foldl_preempt {w : Work} (h : CallsServed w.state) (victims : List Nat) :
    CallsServed (victims.foldl Work.preempt w).state := by
  induction victims generalizing w with
  | nil => exact h
  | cons v vs ih => exact ih (CallsServedBut.releaseWhere h _ _)

/-- The record that a CONNECT makes has passed checks 4, 6 and 7. -/
theorem connectTake {s : State} (hadmission : AdmissionLaw s) (hs : CallsServed s)
    (r : ConnectRequest) : (connectTake r s).Leaves CallsServed := by
  unfold Machine.connectTake
  split
  · trivial
  rename_i hchecks
  split
  · trivial
  rename_i victims _
  obtain ⟨-, -, h4, -, h6, h7, -⟩ := (State.connectRefusal_eq_none_iff hadmission r).1 hchecks
  have hpreempted : CallsServed (victims.foldl Work.preempt (Work.start s)).state :=
    hs.foldl_preempt (w := Work.start s) victims
  have hcalls := Work.preempt_foldl_onlyCalls victims (Work.start s)
  have htable := hs.table.connect hchecks victims (s.recordedClass r)
  simp only [Answer.Leaves]
  generalize victims.foldl Work.preempt (Work.start s) = w at hpreempted hcalls htable
  have hmade := hcalls.trans
    (w.makeConnection_onlyCalls r (w.state.newConnection r (s.recordedClass r)))
  have hslots := congrArg State.slots hcalls
  have hdirectory := congrArg State.directory hcalls
  have hstations := congrArg State.stations hcalls
  have hslots' := congrArg State.slots hmade
  have hdirectory' := congrArg State.directory hmade
  have hstations' := congrArg State.stations hmade
  refine hpreempted.insert htable (c := w.state.newConnection r (s.recordedClass r))
    (fun d hd => ?_) (hslots'.trans hslots.symm) (hdirectory'.trans hdirectory.symm)
    (hstations'.trans hstations.symm) (fun hsource n hnames hn => ?_)
    fun n m hends hn hlow hhigh i hi => ?_
  · rw [Work.makeConnection_connections] at hd
    exact (mem_insertConnection _ _ _).1 hd
  · unfold State.station
    rw [hstations]
    refine h4 (Nat.lt_of_not_le hsource) n ?_ hn
    simp only [Connection.names, Bool.or_eq_true, beq_iff_eq] at hnames
    exact hnames.imp Eq.symm Eq.symm
  · unfold State.station at hi
    rw [hstations] at hi
    obtain ⟨⟨e, he, -⟩, -⟩ := hadmission.1 n i (.inl hi)
    have hjoins : s.Joins r.source r.destination n m e := ⟨hends, hn, hlow, hhigh, i, hi, he⟩
    have hscrambled : (w.state.newConnection r (s.recordedClass r)).privacy.isSome = r.key.isSome := by
      simp [State.newConnection, State.privacyPartFor]
    obtain ⟨hpublic, hrequired⟩ := h7 n m e hjoins
    unfold Conforms State.entry State.slot
    rw [hslots, hdirectory, hscrambled]
    exact ⟨e, he, h6 n m e hjoins, hpublic, fun hr ht =>
      Option.isSome_iff_ne_none.2 (hrequired hr ht)⟩

theorem connect {s t : State} (hadmission : AdmissionLaw s) (hs : CallsServed s)
    (h : exec .connect s = .next t) : CallsServed t :=
  row_of_take AdmissionLaw.ofTables execConnect (fun _ => rfl) (fun _ => rfl)
    (fun _ params _ hadmission hu => hu.connectTake hadmission (connectRequest params))
    hadmission hs h

/-! ### Every command -/

/-- Every command keeps the laws, where the law of admission holds before it. -/
theorem exec {i : Instr} {s t : State} (hadmission : AdmissionLaw s) (hs : CallsServed s)
    (h : Machine.exec i s = .next t) : CallsServed t := by
  cases i
  case connect => exact connect hadmission hs h
  case remove => exact remove hadmission hs h
  case amend => exact amend hadmission hs h
  case orderTransfer p part record => exact orderTransfer p part record s t hs h
  case fetchTransfer p part => exact fetchTransfer p part s t hs h
  case statusTransfer p part => exact statusTransfer p part s t hs h
  case unknownTransferKind p kind => exact unknownTransferKind p kind s t hs h
  case unknownOrder => exact unknownOrder s t hs h
  case claim => exact claim s t hs h
  case pulse => exact pulse s t hs h
  case yield => exact yield s t hs h
  case assign => exact assign s t hs h
  case setLapse => exact setLapse s t hs h
  case lookMastership => exact lookMastership s t hs h
  case enter => exact enter s t hs h
  case setSecret => exact setSecret s t hs h
  case suspend => exact suspend s t hs h
  case resume => exact resume s t hs h
  case lookEntry => exact lookEntry s t hs h
  case lookNextEntry => exact lookNextEntry s t hs h
  case setPrecedenceMap => exact setPrecedenceMap s t hs h
  case lookPrecedenceMap => exact lookPrecedenceMap s t hs h
  case setPort => exact setPortRow s t hs h
  case lookPort => exact lookPort s t hs h
  case withdraw => exact withdrawRow s t hs h
  case deliver => exact deliver s t hs h
  case releaseLockout => exact releaseLockout s t hs h
  case lookStation => exact lookStation s t hs h
  case setAdmissionTimes => exact setAdmissionTimes s t hs h
  case lookAdmissionTimes => exact lookAdmissionTimes s t hs h
  case seedChallenge => exact seedChallenge s t hs h
  case releaseById => exact releaseById s t hs h
  case releaseByTag => exact releaseByTag s t hs h
  case setMuteCode => exact setMuteCode s t hs h
  case lookConnection => exact lookConnection s t hs h
  case lookNextConnection => exact lookNextConnection s t hs h
  case lookEndpoint => exact lookEndpoint s t hs h
  case lookNetwork => exact lookNetwork s t hs h
  case lookTrunk => exact lookTrunk s t hs h
  case lookGroup => exact lookGroup s t hs h
  case lookKey => exact lookKey s t hs h
  case lookLeg => exact lookLeg s t hs h
  case lookWatch => exact lookWatch s t hs h
  case restartKeep => exact restartKeep s t hs h
  case readCauses => exact readCauses s t hs h
  case setPortMode => exact setPortMode s t hs h
  case lapseTimerExpiry => exact lapseTimerExpiry s t hs h
  case resetPinRelease => exact resetPinRelease s t hs h
  case answerDeadlineExpiry n => exact answerDeadlineExpiry n s t hs h
  case holdOffExpiry n => exact holdOffExpiry n s t hs h
  case register n identity => exact register n identity s t hs h
  case answer n response => exact answer n response s t hs h
  case leave n => exact leave n s t hs h
  case signal n bytes => exact signal n bytes s t hs h
  case babble n => exact babble n s t hs h
  case linkUp n => exact linkUp n s t hs h
  case linkDown n => exact linkDown n s t hs h
  case beginSend n => exact beginSend n s t hs h
  case sendCompletion n => exact sendCompletion n s t hs h
  case sampleArrival samples => exact sampleArrival samples s t hs h
  case restartComplete links => exact restartComplete links s t hs h
  case unfitStationMessage n message => exact unfitStationMessage n message s t hs h
  case setTrunk => exact setTrunk s t hs h
  case setGroup => exact setGroup s t hs h
  case loadKey => exact loadKey s t hs h
  case eraseKey => exact eraseKey s t hs h
  case resync => exact resync s t hs h
  case armWatch => exact armWatch s t hs h
  case disarmWatch => exact disarmWatch s t hs h
  case clearTrace => exact clearTrace s t hs h
  case releaseHold => exact releaseHold s t hs h
  case restartCold => exact restartCold s t hs h
  case frameStart => exact frameStart s t hs h
  case powerOn => exact powerOn s t hs h
  case resetPin => exact resetPin s t hs h

/-- A command is taken out of the queue, and run; or the time base moves on. -/
theorem step {s t : State} (hadmission : AdmissionLaw s) (hs : CallsServed s)
    (h : Machine.step s = .next t) : CallsServed t := by
  unfold Machine.step at h
  split at h
  · rename_i rest _
    have hs' : CallsServed { s with pending := rest } := hs.of_eq rfl rfl rfl rfl
    have hadmission' : AdmissionLaw { s with pending := rest } := hadmission
    exact exec hadmission' hs' h
  · obtain rfl := Host.Outcome.next.inj h
    unfold State.idle
    split
    · exact hs
    · exact hs.of_eq rfl rfl rfl rfl

end CallsServed

/-- Settles O58: `CallsServed.step`, a lemma a row. -/
theorem everyStepKeepsCallsConformingToTheDirectory :
    Obligations.EveryStepKeepsCallsConformingToTheDirectory := by
  unfold Obligations.EveryStepKeepsCallsConformingToTheDirectory
  rintro s t ⟨htable, hadmission, hstation, hservice⟩ h
  obtain ⟨-, hstation', hservice'⟩ := (callsServed_iff t).1
    (((callsServed_iff s).2 ⟨htable, hstation, hservice⟩).step hadmission h)
  exact ⟨hstation', hservice'⟩

end Sys2Proof.Machine
end

section
/-! SUPPORT. The class of a CONNECT and check 11: what the model judges of a newly busy slot is what the
tests of the manual say, and O32 (R90, R96, R117 to R121). -/

namespace Sys2Proof.Machine

/-! ### The request and its class (R90, R92) -/

theorem connectRequest_eq (src dst hi lo cls marker index start preempt : Byte) :
    connectRequest (connectParams src dst hi lo cls marker index start preempt) =
      { source := src.toNat, destination := dst.toNat, callTag := hi ++ lo, cls := cls.toNat
        key := keyNamed marker index, start := start, preempt := preempt == 1 } := by
  have hflag : ∀ b : Byte, flagSet b = (b == 1) := fun b => by revert b; decide +kernel
  have hkey : (if flagSet marker then some index.toNat else none) = keyNamed marker index := by
    rw [hflag]
    simp [keyNamed]
  rw [← hflag, ← hkey]
  rfl

/-- The effective class of an ADMITTED station (R42). -/
theorem State.effectiveClass_of_admitted {s : State} {n identity : Nat} (hn : n < 96)
    (h : (s.station n).state = .admitted identity) : s.effectiveClass n = s.stationClass n := by
  have hidentity : s.identityAt n = some identity := (s.identityAt_eq_some n identity).2 ⟨hn, h⟩
  unfold State.effectiveClass State.stationClass State.classOf
  rw [hidentity, h]
  simp [State.entry, linePortOf]

theorem State.stationClass_of_identityAt {s : State} {n : Nat} (hn : n < 96) :
    (if (s.identityAt n).isSome then s.effectiveClass n else 0) = s.stationClass n := by
  cases h : s.identityAt n with
  | some identity =>
    exact State.effectiveClass_of_admitted hn ((s.identityAt_eq_some n identity).1 h).2
  | none =>
    rw [Option.isSome_none, if_neg Bool.false_ne_true]
    unfold State.stationClass
    cases hstate : (s.station n).state with
    | admitted identity =>
      rw [(s.identityAt_eq_some n identity).2 ⟨hn, hstate⟩] at h
      cases h
    | _ => rfl

/-- The class that a CONNECT records (R90). -/
theorem State.recordedClass_eq {s : State} {r : ConnectRequest}
    (h4 : s.Check4 r.source r.destination) :
    s.recordedClass r = s.classFor r.source r.destination r.cls := by
  have hstation : ∀ e, (e = r.source ∨ e = r.destination) → ¬160 ≤ r.source → e < 96 →
      s.effectiveClass e = s.stationClass e := fun e he hsource hlt => by
    obtain ⟨identity, h⟩ := h4 (Nat.lt_of_not_le hsource) e he hlt
    exact State.effectiveClass_of_admitted hlt h
  unfold State.recordedClass State.classFor
  simp only [Bool.and_eq_true, isService_iff, isStation_iff]
  by_cases hservice : 160 ≤ r.source
  · have hsource : ¬r.source < 96 := by omega
    have hboth : ¬(r.source < 96 ∧ r.destination < 96) := fun h => hsource h.1
    rw [if_pos hservice, if_neg hboth, if_neg hsource]
    by_cases hdestination : r.destination < 96
    · rw [if_pos hdestination, if_pos hdestination]
      exact State.stationClass_of_identityAt hdestination
    · rw [if_neg hdestination, if_neg hdestination]
  · rw [if_neg hservice]
    split
    · rename_i hboth
      rw [hstation _ (.inl rfl) hservice hboth.1, hstation _ (.inr rfl) hservice hboth.2]
    · split
      · exact hstation _ (.inl rfl) hservice ‹_›
      · split
        · exact hstation _ (.inr rfl) hservice ‹_›
        · rfl

/-! ### The holding class (R117) -/

theorem State.holdingClass_eq_some (s : State) (v n : Nat) :
    s.holdingClass (96 + v) = some n ↔ s.Holds v n := by
  unfold State.holdingClass State.Holds
  rw [List.max?_eq_some_iff]
  simp only [List.mem_map, List.mem_filter, forall_exists_index, and_imp, and_assoc]
  exact and_congr_right fun _ => ⟨fun h c hc hn => h _ c hc hn rfl, fun h _ c hc hn he => he ▸ h c hc hn⟩

/-- A busy slot has a holding class. -/
theorem State.holdingClass_of_named {s : State} {v : Nat} {c : Connection}
    (hc : c ∈ s.connections) (hn : c.names (96 + v) = true) :
    ∃ n, s.holdingClass (96 + v) = some n := by
  rw [← Option.isSome_iff_exists, State.holdingClass, List.isSome_max?_iff]
  exact List.ne_nil_of_mem (List.mem_map_of_mem (List.mem_filter.2 ⟨hc, hn⟩))

/-- What ranks a candidate: its holding class. -/
def State.rank (s : State) (v : Nat) : Nat := (s.holdingClass (endpointOfSlot v)).getD 0

theorem State.Holds.rank_eq {s : State} {v n : Nat} (h : s.Holds v n) : s.rank v = n := by
  unfold State.rank endpointOfSlot
  rw [(s.holdingClass_eq_some v n).2 h]
  rfl

/-- Every record that names a busy slot is of lower class exactly when the holding class is lower. -/
theorem State.rank_lt_iff {s : State} {v k : Nat}
    (hnamed : ∃ c ∈ s.connections, c.names (96 + v) = true) :
    s.rank v < k ↔ ∀ c ∈ s.connections, c.names (96 + v) = true → c.cls < k := by
  obtain ⟨c, hc, hn⟩ := hnamed
  obtain ⟨n, hholding⟩ := State.holdingClass_of_named hc hn
  have hholds := (s.holdingClass_eq_some v n).1 hholding
  rw [hholds.rank_eq]
  obtain ⟨⟨d, hd, hdn, rfl⟩, hmax⟩ := hholds
  exact ⟨fun h c hc hn => (hmax c hc hn).trans_lt h, fun h => h d hd hdn⟩

/-! ### Candidates and the victim (R120, R121) -/

theorem State.mem_candidates (s : State) (r : ConnectRequest) (k group : Nat) (excluded : List Nat)
    (v : Nat) : v ∈ s.candidates r k group excluded ↔
      s.Candidate r.source r.destination k group v ∧ excluded.contains v = false := by
  have hnamed : s.named (96 + v) = true ↔ ∃ c ∈ s.connections, c.names (96 + v) = true := by
    rw [State.named, List.any_eq_true]
  have hshares : s.sharesTrunk r (96 + v) = false ↔
      ∀ c ∈ s.connections, c.names (96 + v) = true →
        ∀ e, (e = r.source ∨ e = r.destination) → 96 ≤ e → e < 160 → c.names e = false := by
    simp only [State.sharesTrunk, List.any_eq_false, Bool.and_eq_true, Bool.or_eq_true,
      isTrunk_iff, not_and, not_or, Bool.not_eq_true]
    refine forall₂_congr fun c _ => forall_congr' fun _ => ⟨?_, fun h => ?_⟩
    · rintro ⟨hs, hd⟩ e (rfl | rfl) hlow hhigh
      exacts [hs ⟨hlow, hhigh⟩, hd ⟨hlow, hhigh⟩]
    · exact ⟨fun he => h _ (.inl rfl) he.1 he.2, fun he => h _ (.inr rfl) he.1 he.2⟩
  have hheld : s.traceHeldAt (96 + v) = false ↔
      ∀ c ∈ s.connections, c.names (96 + v) = true → c.traceHeld = false := by
    simp only [State.traceHeldAt, List.any_eq_false, Bool.and_eq_true, not_and, Bool.not_eq_true]
  have hrank : (s.holdingClass (96 + v)).getD 0 < k ↔ s.rank v < k := Iff.rfl
  unfold State.candidates State.Candidate
  rw [List.mem_filter, List.mem_range]
  simp only [Bool.and_eq_true, Bool.not_eq_true', beq_iff_eq, decide_eq_true_eq, endpointOfSlot,
    hrank, hnamed, hheld, hshares]
  constructor
  · rintro ⟨hlt, ⟨⟨⟨⟨hgroup, hbusy⟩, htrace⟩, hlower⟩, hapart⟩, hbarred⟩
    have hcls := (State.rank_lt_iff hbusy).1 hlower
    exact ⟨⟨hlt, hgroup, hbusy, fun c hc hn => ⟨htrace c hc hn, hcls c hc hn, hapart c hc hn⟩⟩,
      hbarred⟩
  · rintro ⟨⟨hlt, hgroup, hbusy, hall⟩, hbarred⟩
    exact ⟨hlt, ⟨⟨⟨⟨hgroup, hbusy⟩, fun c hc hn => (hall c hc hn).1⟩,
      (State.rank_lt_iff hbusy).2 fun c hc hn => (hall c hc hn).2.1⟩,
      fun c hc hn => (hall c hc hn).2.2⟩, hbarred⟩

/-- v comes before w: it has the lower rank, or the lower number where they share it. -/
def State.Before (s : State) (v w : Nat) : Prop := s.rank v < s.rank w ∨ (s.rank v = s.rank w ∧ v ≤ w)

/-- The choice among slots in ascending number, from a first one (R121). -/
theorem State.foldl_betterVictim (s : State) (ns : List Nat) (m : Nat)
    (hsorted : (m :: ns).Pairwise (· < ·)) :
    ∃ v ∈ m :: ns, ns.foldl s.betterVictim (some m) = some v ∧ ∀ w ∈ m :: ns, s.Before v w := by
  induction ns generalizing m with
  | nil => exact ⟨m, by simp, rfl, fun w hw => .inr (by simp_all)⟩
  | cons n ns ih =>
    obtain ⟨hm, hns⟩ := List.pairwise_cons.1 hsorted
    obtain ⟨hn, htail⟩ := List.pairwise_cons.1 hns
    rw [List.foldl_cons]
    by_cases hlower : s.rank n < s.rank m
    · have hstep : s.betterVictim (some m) n = some n := if_pos hlower
      obtain ⟨v, hv, hfold, hbefore⟩ := ih n hns
      refine ⟨v, List.mem_cons_of_mem m hv, by rw [hstep, hfold], fun w hw => ?_⟩
      rcases List.mem_cons.1 hw with rfl | hw
      · rcases hbefore n (by simp) with h | ⟨h, -⟩
        · exact .inl (h.trans hlower)
        · exact .inl (h ▸ hlower)
      · exact hbefore w hw
    · have hstep : s.betterVictim (some m) n = some m := if_neg hlower
      obtain ⟨v, hv, hfold, hbefore⟩ := ih m (List.pairwise_cons.2
        ⟨fun k hk => hm k (List.mem_cons_of_mem n hk), htail⟩)
      have hvm := hbefore m (by simp)
      refine ⟨v, ?_, by rw [hstep, hfold], fun w hw => ?_⟩
      · rcases List.mem_cons.1 hv with rfl | hv
        · simp
        · exact List.mem_cons_of_mem m (List.mem_cons_of_mem n hv)
      · rcases List.mem_cons.1 hw with rfl | hw
        · exact hvm
        rcases List.mem_cons.1 hw with rfl | hw
        · have hmn := hm w (by simp)
          unfold State.Before at hvm ⊢
          omega
        · exact hbefore w (List.mem_cons_of_mem m hw)

theorem State.candidates_sorted (s : State) (r : ConnectRequest) (k group : Nat)
    (excluded : List Nat) : (s.candidates r k group excluded).Pairwise (· < ·) :=
  List.pairwise_lt_range.filter _

/-- The victim is of the candidates, and comes before each. -/
theorem State.victim_eq_some (s : State) (r : ConnectRequest) (k group : Nat) (excluded : List Nat)
    (v : Nat) : s.victim r k group excluded = some v ↔
      v ∈ s.candidates r k group excluded ∧ ∀ w ∈ s.candidates r k group excluded, s.Before v w := by
  unfold State.victim
  have hsorted := s.candidates_sorted r k group excluded
  generalize s.candidates r k group excluded = ns at hsorted
  cases ns with
  | nil => simp
  | cons m ns =>
    obtain ⟨u, hu, hfold, hbefore⟩ := s.foldl_betterVictim ns m hsorted
    have hfirst : (m :: ns).foldl s.betterVictim none = some u := hfold
    rw [hfirst, Option.some.injEq]
    refine ⟨?_, fun ⟨hv, hall⟩ => ?_⟩
    · rintro rfl
      exact ⟨hu, hbefore⟩
    · have huv := hbefore v hv
      have hvu := hall u hu
      unfold State.Before at huv hvu
      omega

theorem State.victim_eq_none (s : State) (r : ConnectRequest) (k group : Nat)
    (excluded : List Nat) :
    s.victim r k group excluded = none ↔ s.candidates r k group excluded = [] := by
  unfold State.victim
  have hsorted := s.candidates_sorted r k group excluded
  generalize s.candidates r k group excluded = ns at hsorted
  cases ns with
  | nil => simp
  | cons m ns =>
    obtain ⟨u, -, hfold, -⟩ := s.foldl_betterVictim ns m hsorted
    have hfirst : (m :: ns).foldl s.betterVictim none = some u := hfold
    simp [hfirst]

/-- A candidate has a holding class, its rank. -/
theorem State.Candidate.holds {s : State} {a b k group v : Nat} (h : s.Candidate a b k group v) :
    s.Holds v (s.rank v) := by
  obtain ⟨-, -, ⟨c, hc, hn⟩, -⟩ := h
  obtain ⟨n, hholding⟩ := State.holdingClass_of_named hc hn
  have hholds := (s.holdingClass_eq_some v n).1 hholding
  rwa [hholds.rank_eq]

/-- The slots that are excluded are those that are barred, of the slots there are. -/
def Bars (excluded : List Nat) (barred : Nat → Bool) : Prop :=
  ∀ n, n < 64 → excluded.contains n = barred n

/-- A victim as R121 has it is the one that the model finds. -/
theorem State.Victim.eq_victim {s : State} {r : ConnectRequest} {k group v : Nat}
    {excluded : List Nat} {barred : Nat → Bool} (hbars : Bars excluded barred)
    (h : s.Victim r.source r.destination k group barred v) :
    s.victim r k group excluded = some v := by
  obtain ⟨hcandidate, hfree, hfirst⟩ := h
  refine (s.victim_eq_some r k group excluded v).2
    ⟨(s.mem_candidates r k group excluded v).2 ⟨hcandidate, ?_⟩, fun w hw => ?_⟩
  · rw [hbars v hcandidate.1, hfree]
  · obtain ⟨hw, hwfree⟩ := (s.mem_candidates r k group excluded w).1 hw
    exact hfirst w _ _ hw (by rw [← hbars w hw.1, hwfree]) hcandidate.holds hw.holds

theorem State.victim_none_of_barred {s : State} {r : ConnectRequest} {k group : Nat}
    {excluded : List Nat} {barred : Nat → Bool} (hbars : Bars excluded barred)
    (h : ∀ n, s.Candidate r.source r.destination k group n → barred n = true) :
    s.victim r k group excluded = none := by
  refine (s.victim_eq_none r k group excluded).2 (List.eq_nil_iff_forall_not_mem.2 fun w hw => ?_)
  obtain ⟨hw, hwfree⟩ := (s.mem_candidates r k group excluded w).1 hw
  rw [hbars w hw.1, h w hw] at hwfree
  cases hwfree

/-! ### The judgement of a slot (R118) -/

section judgement

variable {s : State} {r : ConnectRequest} {k e c : Nat} {excluded : List Nat}
  {barred : Nat → Bool}

theorem State.judgeSlot_of_passes (hbars : Bars excluded barred) {v : Option Nat}
    (h : s.SlotPasses r.source r.destination k r.preempt (s.groupAt e) c barred v) :
    s.judgeSlot r k e c excluded = .passes v := by
  unfold State.SlotPasses at h
  unfold State.judgeSlot
  change (if (s.group (s.groupAt e)).quota ≤ c then _ else _) = _
  split at h
  · rename_i hquota
    obtain ⟨hpreempt, n, rfl, hvictim⟩ := h
    have hfound : s.victim r k (s.slot (slotOf e)).group excluded = some n :=
      hvictim.eq_victim hbars
    rw [if_pos hquota, if_pos hpreempt, hfound]
  · rename_i hquota
    obtain ⟨rfl, -, hreserve, hcongested⟩ := h
    rw [if_neg hquota, if_neg, if_neg]
    · change ¬((s.group (s.groupAt e)).congested && k == 0) = true
      rw [Bool.and_eq_true, beq_iff_eq]
      rintro ⟨hc, rfl⟩
      rcases hcongested with hclear | hk
      · rw [hclear] at hc
        cases hc
      · omega
    · change ¬(decide ((s.group (s.groupAt e)).quota - (s.group (s.groupAt e)).reserve ≤ c)
        && decide (k < (s.group (s.groupAt e)).reserveClass)) = true
      rw [Bool.and_eq_true, decide_eq_true_eq, decide_eq_true_eq]
      omega

theorem State.judgeSlot_of_fails (hbars : Bars excluded barred) {outcome : OutcomeCode}
    (h : s.SlotFails r.source r.destination k r.preempt (s.groupAt e) c barred outcome) :
    s.judgeSlot r k e c excluded = .fails outcome := by
  unfold State.SlotFails at h
  unfold State.judgeSlot
  change (if (s.group (s.groupAt e)).quota ≤ c then _ else if
    (decide ((s.group (s.groupAt e)).quota - (s.group (s.groupAt e)).reserve ≤ c)
        && decide (k < (s.group (s.groupAt e)).reserveClass)) = true then _ else if
    ((s.group (s.groupAt e)).congested && k == 0) = true then _ else _) = _
  simp only [Bool.and_eq_true, decide_eq_true_eq, beq_iff_eq]
  dsimp only at h
  split at h
  · rename_i hquota
    obtain ⟨rfl, hpreempt⟩ := h
    rw [if_pos hquota]
    split
    · rename_i hset
      rcases hpreempt with hnot | hall
      · rw [hnot] at hset
        cases hset
      · have hnone : s.victim r k (s.slot (slotOf e)).group excluded = none :=
          State.victim_none_of_barred hbars hall
        rw [hnone]
    · rfl
  · rename_i hquota
    rw [if_neg hquota]
    split at h
    · rename_i hreserve
      rw [if_pos hreserve, h]
    · rename_i hreserve
      obtain ⟨rfl, hcongested⟩ := h
      rw [if_neg hreserve, if_pos hcongested]

end judgement

/-! ### Both slots (R119) -/

theorem bars_nil : Bars [] fun _ => false := fun _ _ => rfl

/-- The slots that the first victim frees, as the model lists them. -/
theorem State.bars_freedBy (s : State) (v : Option Nat) :
    Bars ((v.map s.freedWith).getD []) (s.freedBy v) := by
  intro n hn
  cases v with
  | none => rfl
  | some m =>
    rw [Bool.eq_iff_iff]
    simp [State.freedWith, State.freedBy, hn, endpointOfSlot]

theorem State.secondCount_eq (s : State) (r : ConnectRequest) (v : Option Nat) :
    s.secondCount r ((v.map s.freedWith).getD []) = s.countForSecond r.source r.destination v := by
  have hfreed : ((v.map s.freedWith).getD []).countP
        (fun n => (s.slot n).group == s.groupAt r.destination)
      = (List.range 64).countP
        fun n => s.freedBy v n && (s.slot n).group == s.groupAt r.destination := by
    cases v with
    | none => simp [State.freedBy]
    | some m =>
      simp only [Option.map_some, Option.getD_some, State.freedWith, List.countP_filter]
      refine List.countP_congr fun n _ => ?_
      simp [State.freedBy, endpointOfSlot, and_comm]
  have hnewly : (s.newlyBusy r.source && (s.slot (slotOf r.source)).group == s.groupAt r.destination)
        = true ↔ 96 ≤ r.source ∧ r.source < 160 ∧ s.named r.source = false
          ∧ s.groupAt r.source = s.groupAt r.destination := by
    simp only [State.newlyBusy, Bool.and_eq_true, isTrunk_iff, Bool.not_eq_true', beq_iff_eq,
      and_assoc]
    rfl
  unfold State.secondCount State.countForSecond
  change _ + (if (s.newlyBusy r.source
    && (s.slot (slotOf r.source)).group == s.groupAt r.destination) = true then 1 else 0)
    - ((v.map s.freedWith).getD []).countP _ = _
  rw [if_congr hnewly rfl rfl]
  exact congrArg _ hfreed

/-- The judgement of the source's slot, where it passes. -/
theorem State.judgeFirst_of_passes {s : State} {r : ConnectRequest} {k : Nat} {v : Option Nat}
    (h : s.FirstPasses r.source r.destination k r.preempt v) :
    (if s.newlyBusy r.source then
      s.judgeSlot r k r.source (s.group (s.slot (slotOf r.source)).group).busy []
    else .passes none) = .passes v := by
  obtain ⟨hidle, hbusy⟩ := h
  split
  · rename_i hn
    exact State.judgeSlot_of_passes bars_nil (hbusy ((s.newlyBusy_iff _).1 hn))
  · rename_i hn
    rw [hidle fun h => hn ((s.newlyBusy_iff _).2 h)]

/-- Check 11 passes, with the victims noted (R119). -/
theorem State.judgeTake_of_passes {s : State} {r : ConnectRequest} {k : Nat} {v w : Option Nat}
    (hfirst : s.FirstPasses r.source r.destination k r.preempt v)
    (hsecond : s.SecondPasses r.source r.destination k r.preempt v w) :
    s.judgeTake r k = .ok (v.toList ++ w.toList) := by
  obtain ⟨hidle, hbusy⟩ := hsecond
  unfold State.judgeTake
  dsimp only
  rw [State.judgeFirst_of_passes hfirst]
  dsimp only
  rw [State.secondCount_eq]
  split
  · rename_i outcome heq
    split at heq
    · rename_i hn
      rw [State.judgeSlot_of_passes (s.bars_freedBy v) (hbusy ((s.newlyBusy_iff _).1 hn))] at heq
      cases heq
    · cases heq
  · rename_i u heq
    split at heq
    · rename_i hn
      rw [State.judgeSlot_of_passes (s.bars_freedBy v) (hbusy ((s.newlyBusy_iff _).1 hn))] at heq
      obtain rfl := Judgement.passes.inj heq
      rfl
    · rename_i hn
      obtain rfl := Judgement.passes.inj heq
      rw [hidle fun h => hn ((s.newlyBusy_iff _).2 h)]

/-- Check 11 fails on the source's slot (R118). -/
theorem State.judgeTake_of_first_fails {s : State} {r : ConnectRequest} {k : Nat}
    {outcome : OutcomeCode} (hn : s.NewlyBusy r.source)
    (h : s.SlotFails r.source r.destination k r.preempt (s.groupAt r.source)
      (s.group (s.groupAt r.source)).busy (fun _ => false) outcome) :
    s.judgeTake r k = .error outcome := by
  have hjudged := State.judgeSlot_of_fails bars_nil h
  unfold State.judgeTake
  rw [if_pos ((s.newlyBusy_iff _).2 hn)]
  change (match s.judgeSlot r k r.source (s.group (s.groupAt r.source)).busy [] with
    | .fails outcome => Except.error outcome
    | .passes v => _) = _
  rw [hjudged]

/-- Check 11 fails on the destination's slot, by the table at the take (R119, log entry 26). -/
theorem State.judgeTake_of_second_fails {s : State} {r : ConnectRequest} {k : Nat}
    {outcome : OutcomeCode} {v : Option Nat}
    (hfirst : s.FirstPasses r.source r.destination k r.preempt v) (hn : s.NewlyBusy r.destination)
    (h : s.SlotFails r.source r.destination k r.preempt (s.groupAt r.destination)
      (s.countForSecond r.source r.destination v) (s.freedBy v) outcome) :
    s.judgeTake r k = .error outcome := by
  have hjudged := State.judgeSlot_of_fails (s.bars_freedBy v) h
  unfold State.judgeTake
  dsimp only
  rw [State.judgeFirst_of_passes hfirst]
  dsimp only
  rw [State.secondCount_eq, if_pos ((s.newlyBusy_iff _).2 hn), hjudged]

/-! ### The take of a CONNECT -/

/-- The CONNECT that is taken next, as the model reads its parameters. -/
theorem exec_connect_of_answer {s t : State} {p : Port}
    {tag src dst hi lo cls marker index start preempt : Byte} (hholder : s.HolderAt p)
    (hmarker : marker.toNat ≤ 1) (hpreempt : preempt.toNat ≤ 1)
    (htakes : s.Takes p
      (queuedOrder 0x30 tag (connectParams src dst hi lo cls marker index start preempt)))
    {r : ConnectRequest}
    (hr : connectRequest (connectParams src dst hi lo cls marker index start preempt) = r)
    (hanswer : (s.taken p).replied p
      (queuedOrder 0x30 tag (connectParams src dst hi lo cls marker index start preempt))
      (connectTake r (s.taken p)) = t) : exec .connect s = .next t := by
  subst hr
  refine exec_of_answer execConnect (fun _ => rfl) (fun _ => rfl) htakes rfl rfl ?_
    (authorityCheck_holder hholder) hanswer
  rw [Bool.and_eq_true, isFlag_iff, isFlag_iff]
  exact ⟨hmarker, hpreempt⟩

theorem State.taken_connectRefusal (s : State) (p : Port) (r : ConnectRequest) :
    (s.taken p).connectRefusal r = s.connectRefusal r := by cases p <;> rfl

theorem State.taken_judgeTake (s : State) (p : Port) (r : ConnectRequest) (k : Nat) :
    (s.taken p).judgeTake r k = s.judgeTake r k := by cases p <;> rfl

theorem State.taken_recordedClass (s : State) (p : Port) (r : ConnectRequest) :
    (s.taken p).recordedClass r = s.recordedClass r := by cases p <;> rfl

/-- A CONNECT that checks 2 to 10 refuse. -/
theorem connectTake_taken_of_refusal {s : State} {r : ConnectRequest} {outcome : OutcomeCode}
    (h : s.connectRefusal r = some outcome) (p : Port) :
    connectTake r (s.taken p) = .refuse outcome [] := by
  unfold connectTake
  rw [State.taken_connectRefusal, h]

/-- A CONNECT that check 11 refuses. -/
theorem connectTake_taken_of_error {s : State} {r : ConnectRequest} {k : Nat}
    {outcome : OutcomeCode} (hchecks : s.connectRefusal r = none) (hk : s.recordedClass r = k)
    (h : s.judgeTake r k = .error outcome) (p : Port) :
    connectTake r (s.taken p) = .refuse outcome [] := by
  unfold connectTake
  rw [State.taken_connectRefusal, hchecks, State.taken_recordedClass, hk, State.taken_judgeTake, h]

/-- Settles O32: checks 2 to 10 by `State.connectRefusal_first`, check 11 by the judgement of the slots. -/
theorem connectIsRefusedByTheFirstFailingCheck :
    Obligations.ConnectIsRefusedByTheFirstFailingCheck := by
  unfold Obligations.ConnectIsRefusedByTheFirstFailingCheck
  intro s p tag src dst hi lo cls marker index start preempt key k a b refused hadmission hholder
    hmarker hpreempt htakes
  have hr := connectRequest_eq src dst hi lo cls marker index start preempt
  have hrefused : ∀ {outcome}, s.connectRefusal _ = some outcome → refused outcome := fun h =>
    exec_connect_of_answer hholder hmarker hpreempt htakes hr
      (by rw [connectTake_taken_of_refusal h]; rfl)
  obtain ⟨h2, hto3⟩ := State.connectRefusal_first hadmission
    { source := a, destination := b, callTag := hi ++ lo, cls := cls.toNat, key := key
      start := start, preempt := preempt == 1 }
  refine ⟨fun h => hrefused (h2 h), fun h => ?_, fun hpasses => ?_⟩
  · obtain ⟨h3, hto4⟩ := hto3 h
    refine ⟨fun h => hrefused (h3 h), fun h => ?_⟩
    obtain ⟨h4, hto5⟩ := hto4 h
    refine ⟨fun h => hrefused (h4 h), fun h => ?_⟩
    obtain ⟨h5, hto6⟩ := hto5 h
    refine ⟨fun h => hrefused (h5 h), fun h => ?_⟩
    obtain ⟨h6, hto7⟩ := hto6 h
    refine ⟨fun h => hrefused (h6 h), fun h => ?_⟩
    obtain ⟨h7, hto8⟩ := hto7 h
    refine ⟨fun h => hrefused (h7 h), fun h => ?_⟩
    obtain ⟨h8, hto9⟩ := hto8 h
    refine ⟨fun h => hrefused (h8 h), fun h => ?_⟩
    obtain ⟨h9, hto10⟩ := hto9 h
    refine ⟨fun h => hrefused (h9 h), fun h => ?_⟩
    obtain ⟨h10, -⟩ := hto10 h
    exact fun h => hrefused (h10 h)
  · obtain ⟨-, -, h4, -⟩ := id hpasses
    have hchecks := (State.connectRefusal_eq_none_iff hadmission
      { source := a, destination := b, callTag := hi ++ lo, cls := cls.toNat, key := key
        start := start, preempt := preempt == 1 }).2 hpasses
    have hjudged : ∀ {outcome}, State.judgeTake s _ k = .error outcome → refused outcome := fun h =>
      exec_connect_of_answer hholder hmarker hpreempt htakes hr
        (by rw [connectTake_taken_of_error hchecks (State.recordedClass_eq h4) h]; rfl)
    exact ⟨fun outcome hn hfails => hjudged (State.judgeTake_of_first_fails hn hfails),
      fun v outcome hfirst hn hfails =>
        hjudged (State.judgeTake_of_second_fails hfirst hn hfails)⟩

end Sys2Proof.Machine
end

section
/-! SUPPORT. The making of a record: groups whose busy count rises, and what a CONNECT that is taken does
to the table, the legs, the key contexts and the groups (R90, R91, R96, R97, R116, R122, R134). -/

namespace Sys2Proof.Machine

/-! ### Groups whose busy count rises (R116, R122) -/

theorem Group.Settled.risenBy_zero {g : Group} (h : g.Settled) : g.risenBy 0 = g := by
  obtain ⟨quota, reserve, reserveClass, onset, abatement, busy, congested⟩ := g
  obtain ⟨-, hc⟩ := h
  cases congested
  · simpa [Group.risenBy] using hc
  · rfl

theorem Group.risenBy_risenBy (g : Group) (m n : Nat) :
    (g.risenBy m).risenBy n = g.risenBy (m + n) := by
  have hmono : (decide (g.onset ≤ g.busy + m) || decide (g.onset ≤ g.busy + (m + n)))
      = decide (g.onset ≤ g.busy + (m + n)) := by
    rw [Bool.or_eq_right_iff_imp]
    simp only [decide_eq_true_eq]
    omega
  simp only [Group.risenBy, Nat.add_assoc]
  rw [Bool.or_assoc, hmono]

theorem Group.Settled.risenBy {g : Group} (h : g.Settled) (n : Nat) : (g.risenBy n).Settled := by
  obtain ⟨ha, hc⟩ := h
  refine ⟨ha, ?_⟩
  cases hg : g.congested <;> simp only [hg, if_true, Bool.false_eq_true, if_false] at hc
  · simp only [Group.risenBy, hg, Bool.false_or, decide_eq_true_eq]
    split <;> omega
  · simp only [Group.risenBy, hg, Bool.true_or, if_true]
    omega

/-- A re-evaluation after the busy count has risen by one (R122). -/
theorem Group.Settled.congestionAfter_succ {g : Group} (h : g.Settled) :
    congestionAfter { g with busy := g.busy + 1 } = (g.risenBy 1).congested := by
  obtain ⟨-, hc⟩ := h
  cases hg : g.congested <;> simp only [hg, if_true, Bool.false_eq_true, if_false] at hc
  · simp [congestionAfter, Group.risenBy, hg]
  · simp only [congestionAfter, Group.risenBy, hg, Bool.true_or, if_true, decide_eq_true_eq]
    omega

/-- The event of a rise by one: at the change to CONGESTED the busy count stands at the onset
(R123). -/
theorem Group.Settled.congestionReport_succ {g : Group} (h : g.Settled) (k : Nat) :
    congestionReport k g (g.risenBy 1) =
      if (g.risenBy 1).congested = g.congested then []
      else [.congestion k (g.risenBy 1).congested (g.busy + 1)] := by
  obtain ⟨-, hc⟩ := h
  cases hg : g.congested <;> simp only [hg, if_true, Bool.false_eq_true, if_false] at hc
  · by_cases hb : g.onset ≤ g.busy + 1
    · have : g.busy + 1 = g.onset := by omega
      simp [congestionReport, Group.risenBy, hg, this]
    · simp [congestionReport, Group.risenBy, hg, hb]
  · simp [congestionReport, Group.risenBy, hg]

/-- The CONGESTION events of two rises, one after the other, are those of the whole rise. -/
theorem congestionReport_risenBy (k : Nat) (g : Group) (m n : Nat) :
    congestionReport k g (g.risenBy m)
        ++ congestionReport k (g.risenBy m) ((g.risenBy m).risenBy n)
      = congestionReport k g ((g.risenBy m).risenBy n) := by
  unfold congestionReport Group.risenBy
  cases g.congested <;> cases decide (g.onset ≤ g.busy + m) <;>
    cases decide (g.onset ≤ g.busy + m + n) <;> simp

/-! ### Slots enter their groups (R97, R116) -/

/-- The number of the endpoints whose slots are of a group. -/
def State.slotsIn (s : State) (es : List Nat) (g : Nat) : Nat :=
  es.countP fun e => s.groupAt e == g

/-- A slot is counted into its group: what becomes of every group, and the events. -/
theorem Work.enterSlot_group {w : Work} (h : SettledGroups w.state) (e g : Nat) :
    (w.enterSlot e).state.group g
        = (w.state.group g).risenBy (if w.state.groupAt e == g then 1 else 0)
      ∧ congestionsOf g (w.enterSlot e).events = congestionsOf g w.events
          ++ congestionReport g (w.state.group g) ((w.enterSlot e).state.group g) := by
  have hk : w.state.groupAt e < 8 := Nat.lt_succ_of_le (h.1 (e - 96))
  have hsucc := (h.2 (w.state.groupAt e)).congestionAfter_succ
  have hgroup : (w.enterSlot e).state.group g = if g = w.state.groupAt e then
      (w.state.group (w.state.groupAt e)).risenBy 1 else w.state.group g := by
    change (w.recount (w.state.groupAt e) (· + 1)).state.group g = _
    rw [Work.recount_state w _ _ hk, State.group_setGroup, hsucc]
    simp only [hk, and_true]
    rfl
  have hevents : (w.enterSlot e).events = w.events ++ congestionReport (w.state.groupAt e)
      (w.state.group (w.state.groupAt e)) ((w.state.group (w.state.groupAt e)).risenBy 1) := by
    rw [(h.2 (w.state.groupAt e)).congestionReport_succ]
    change (w.recount (w.state.groupAt e) (· + 1)).events = _
    unfold Work.recount
    rw [Work.reevaluate_events]
    simp only [Work.update_state, Work.update_events, State.group_setGroup_same _ hk, hsucc]
  rw [hgroup, hevents, congestionsOf_append, congestionsOf_congestionReport]
  by_cases hg : w.state.groupAt e = g
  · subst hg
    simp
  · simp [hg, Ne.symm hg, (h.2 g).risenBy_zero, congestionReport]

theorem Work.enterSlot_besideCongestion (w : Work) (e : Nat) :
    besideCongestion (w.enterSlot e).events = besideCongestion w.events := by
  unfold Work.enterSlot Work.recount
  rw [Work.reevaluate_events, besideCongestion_append]
  split <;> simp [besideCongestion]

theorem Work.enterSlot_groupAt (w : Work) (e e' : Nat) :
    (w.enterSlot e).state.groupAt e' = w.state.groupAt e' := by
  unfold State.groupAt
  rw [(w.enterSlot_onlyCalls e).slot]

theorem Work.enterSlot_settledGroups {w : Work} (h : SettledGroups w.state) (e : Nat) :
    SettledGroups (w.enterSlot e).state := by
  refine ⟨fun n => ?_, fun g => ?_⟩
  · rw [(w.enterSlot_onlyCalls e).slot]
    exact h.1 n
  · rw [(Work.enterSlot_group h e g).1]
    exact (h.2 g).risenBy _

/-- Slots are counted into their groups, one after another. -/
theorem Work.enterSlots_group (es : List Nat) {w : Work} (h : SettledGroups w.state) (g : Nat) :
    (es.foldl Work.enterSlot w).state.group g
        = (w.state.group g).risenBy (w.state.slotsIn es g)
      ∧ congestionsOf g (es.foldl Work.enterSlot w).events = congestionsOf g w.events
          ++ congestionReport g (w.state.group g) ((es.foldl Work.enterSlot w).state.group g) := by
  induction es generalizing w with
  | nil => simp [State.slotsIn, (h.2 g).risenBy_zero, congestionReport]
  | cons e es ih =>
    obtain ⟨hgroup, hevents⟩ := Work.enterSlot_group h e g
    obtain ⟨hgroup', hevents'⟩ := ih (Work.enterSlot_settledGroups h e)
    have hrest : (w.enterSlot e).state.slotsIn es g = w.state.slotsIn es g := by
      unfold State.slotsIn
      simp only [Work.enterSlot_groupAt]
    have hall : w.state.slotsIn (e :: es) g
        = (if w.state.groupAt e == g then 1 else 0) + w.state.slotsIn es g := by
      rw [State.slotsIn, List.countP_cons, Nat.add_comm]
      rfl
    rw [List.foldl_cons]
    refine ⟨?_, ?_⟩
    · rw [hgroup', hgroup, Group.risenBy_risenBy, hrest, hall]
    · rw [hevents', hevents, List.append_assoc, hgroup', hgroup, congestionReport_risenBy]

theorem Work.enterSlots_besideCongestion (es : List Nat) (w : Work) :
    besideCongestion (es.foldl Work.enterSlot w).events = besideCongestion w.events := by
  induction es generalizing w with
  | nil => rfl
  | cons e es ih => rw [List.foldl_cons, ih, Work.enterSlot_besideCongestion]

/-! ### The record that a CONNECT makes (R91, R97, R134) -/

/-- The newly busy endpoints of a request, in their order. -/
def State.newlyBusyOf (s : State) (r : ConnectRequest) : List Nat :=
  [r.source, r.destination].filter s.newlyBusy

/-- The making of a record counts its newly busy slots into their groups (R116). -/
theorem Work.makeConnection_group {w : Work} (h : SettledGroups w.state) {r : ConnectRequest}
    {c : Connection} (hends : c.source = r.source ∧ c.destination = r.destination) (g : Nat) :
    (w.makeConnection r c).state.group g
        = (w.state.group g).risenBy (w.state.slotsIn (w.state.newlyBusyOf r) g)
      ∧ congestionsOf g (w.makeConnection r c).events = congestionsOf g w.events
          ++ congestionReport g (w.state.group g) ((w.makeConnection r c).state.group g) := by
  have hlegged : ∀ s : State, (∀ n, ((c.privacy.map (s.allocateLeg r.start)).getD s).slot n = s.slot n)
      ∧ ∀ n, ((c.privacy.map (s.allocateLeg r.start)).getD s).group n = s.group n := fun s => by
    cases c.privacy <;> exact ⟨fun _ => rfl, fun _ => rfl⟩
  have hmade := fun v (hv : SettledGroups (Work.state v)) =>
    Work.enterSlots_group (w.state.newlyBusyOf r) hv g
  obtain ⟨hslot, hgroup⟩ :=
    hlegged { w.state with connections := insertConnection c w.state.connections }
  have hsettled : SettledGroups ((w.update fun s =>
      { s with connections := insertConnection c s.connections }).update fun s =>
        (c.privacy.map (s.allocateLeg r.start)).getD s).state :=
    ⟨fun n => by rw [Work.update_state, Work.update_state, hslot]; exact h.1 n,
      fun n => by rw [Work.update_state, Work.update_state, hgroup]; exact h.2 n⟩
  have hentered := hmade _ hsettled
  have hin : ((w.update fun s =>
      { s with connections := insertConnection c s.connections }).update fun s =>
        (c.privacy.map (s.allocateLeg r.start)).getD s).state.slotsIn (w.state.newlyBusyOf r) g
      = w.state.slotsIn (w.state.newlyBusyOf r) g := by
    unfold State.slotsIn State.groupAt
    simp only [Work.update_state, hslot]
    rfl
  rw [hin, Work.update_state, Work.update_state, hgroup] at hentered
  unfold Work.makeConnection
  rw [hends.1, hends.2]
  exact hentered

theorem Work.makeConnection_besideCongestion (w : Work) (r : ConnectRequest) (c : Connection) :
    besideCongestion (w.makeConnection r c).events = besideCongestion w.events :=
  Work.enterSlots_besideCongestion _ _

/-- The record that is made, where an id is free and a leg if the request names a key. -/
theorem State.newConnection_makes {s : State} {r : ConnectRequest} (h9 : s.Check9)
    (h10 : s.Check10 r.key) (k : Nat) :
    s.Makes r.source r.destination r.callTag k r.key (s.newConnection r k) := by
  obtain ⟨id, hid⟩ := State.exists_lowestFreeId h9
  obtain ⟨-, hfree, hheld⟩ := State.lowestFreeId_eq_some hid
  have hnew : (s.newConnection r k).id = id := by simp [State.newConnection, hid]
  refine ⟨rfl, rfl, rfl, rfl, rfl, rfl, fun d hd => ?_, fun n hn => ?_, fun hkey => ?_,
    fun key hkey => ?_⟩
  · rw [hnew]
    exact hfree d hd
  · exact hheld n (hnew ▸ hn)
  · simp [State.newConnection, State.privacyPartFor, hkey]
  · rw [Option.mem_def] at hkey
    cases hleg : s.lowestFreeLeg with
    | none =>
      obtain ⟨n, hn, hnone⟩ := h10 (by rw [hkey]; nofun)
      exact absurd hnone (State.lowestFreeLeg_eq_none.1 hleg n hn)
    | some leg =>
      obtain ⟨-, hlegfree, hlower⟩ := State.lowestFreeLeg_eq_some hleg
      have hpart : (s.newConnection r k).privacy = some ⟨s.directionOf r, key, leg⟩ := by
        simp [State.newConnection, State.privacyPartFor, hkey, hleg]
      refine ⟨leg, hlegfree, hlower, fun htie => ?_, fun htie => ?_⟩
      · rw [hpart, State.directionOf, if_pos ((s.isTie_iff _).2 htie)]
      · rw [hpart, State.directionOf, if_neg (mt (s.isTie_iff _).1 htie)]

/-- The leg and the key context of the record that is made (R134). -/
theorem Work.makeConnection_legTaken {w : Work} {r : ConnectRequest} {k : Nat}
    (h10 : w.state.Check10 r.key) (hkey : ∀ i ∈ r.key, i ≤ 31) :
    LegTaken w.state (w.makeConnection r (w.state.newConnection r k)).state r.start
      (w.state.newConnection r k) := by
  have hpart : ∀ part, (w.state.newConnection r k).privacy = some part →
      part.leg < 64 ∧ part.key < 32 := fun part hpart => by
    cases hr : r.key with
    | none => simp [State.newConnection, State.privacyPartFor, hr] at hpart
    | some key =>
      cases hleg : w.state.lowestFreeLeg with
      | none =>
        obtain ⟨n, hn, hnone⟩ := h10 (by rw [hr]; nofun)
        exact absurd hnone (State.lowestFreeLeg_eq_none.1 hleg n hn)
      | some leg =>
        have hlt := (State.lowestFreeLeg_eq_some hleg).1
        have hle := hkey key hr
        simp only [State.newConnection, State.privacyPartFor, hr, hleg, Option.map_some,
          Option.getD_some, Option.some.injEq] at hpart
        subst hpart
        exact ⟨hlt, Nat.lt_succ_of_le hle⟩
  refine ⟨fun n => ?_, fun n => ?_⟩
  · rw [Work.makeConnection_leg]
    cases hp : (w.state.newConnection r k).privacy with
    | none => rfl
    | some part =>
      obtain ⟨hlt, -⟩ := hpart part hp
      by_cases hn : part.leg = n
      · subst hn
        cases hdir : part.direction <;> simp [hlt, hdir]
      · simp [hn, Ne.symm hn]
  · rw [Work.makeConnection_key]
    cases hp : (w.state.newConnection r k).privacy with
    | none => rfl
    | some part =>
      obtain ⟨-, hlt⟩ := hpart part hp
      by_cases hn : part.key = n
      · subst hn
        simp [hlt]
      · simp [hn, Ne.symm hn]

theorem connectFields_eq (c : Connection) (preempted : Nat) :
    connectFields c preempted = connectReply c preempted := by
  unfold connectFields connectReply
  cases c.privacy with
  | none => rfl
  | some part =>
    obtain ⟨direction, key, leg⟩ := part
    cases direction <;> rfl

end Sys2Proof.Machine
end

section
/-! SUPPORT. CONNECT where it is taken, without a victim and with victims: O30 and O31 (R90, R91, R96, R97,
R116 to R123, R134, R157). -/

namespace Sys2Proof.Machine

/-! ### What reads the tables of calls alone -/

theorem SameCalls.symm {s t : State} (h : SameCalls s t) : SameCalls t s where
  connections := h.connections.symm
  slots := h.slots.symm
  groups := h.groups.symm
  keys := h.keys.symm
  legs := h.legs.symm
  watches := h.watches.symm

theorem SameCalls.slot {s t : State} (h : SameCalls s t) (n : Nat) : t.slot n = s.slot n := by
  unfold State.slot
  rw [h.slots]

theorem SameCalls.group {s t : State} (h : SameCalls s t) (g : Nat) : t.group g = s.group g := by
  unfold State.group
  rw [h.groups]

theorem SameCalls.leg {s t : State} (h : SameCalls s t) (n : Nat) : t.leg n = s.leg n := by
  unfold State.leg
  rw [h.legs]

theorem SameCalls.key {s t : State} (h : SameCalls s t) (n : Nat) : t.key n = s.key n := by
  unfold State.key
  rw [h.keys]

theorem SameCalls.newlyBusy {s t : State} (h : SameCalls s t) (e : Nat) :
    t.newlyBusy e = s.newlyBusy e := by
  unfold State.newlyBusy State.named
  rw [h.connections]

theorem TableLaw.of_sameCalls {s t : State} (h : SameCalls s t) (hs : TableLaw s) : TableLaw t := by
  unfold TableLaw
  rw [h.connections]
  exact hs

theorem GroupLaw.of_sameCalls {s t : State} (h : SameCalls s t) (hs : GroupLaw s) : GroupLaw t := by
  unfold GroupLaw
  simp only [h.slot, h.group]
  exact hs

theorem CongestionLaw.of_sameCalls {s t : State} (h : SameCalls s t) (hs : CongestionLaw s) :
    CongestionLaw t := by
  unfold CongestionLaw
  simp only [h.group]
  exact hs

theorem State.Check9.of_sameCalls {s t : State} (h : SameCalls s t) (hs : s.Check9) : t.Check9 := by
  unfold State.Check9
  rw [h.connections]
  exact hs

theorem State.Check10.of_sameCalls {s t : State} (h : SameCalls s t) {key : Option Nat}
    (hs : s.Check10 key) : t.Check10 key := by
  unfold State.Check10
  simp only [h.leg]
  exact hs

theorem State.Makes.of_sameCalls {s t : State} (h : SameCalls s t) {a b k : Nat} {tag : Word16}
    {key : Option Nat} {c : Connection} (hs : s.Makes a b tag k key c) :
    t.Makes a b tag k key c := by
  unfold State.Makes State.TieAt
  simp only [h.connections, h.leg, h.slot]
  exact hs

theorem LegTaken.of_sameCalls {s s' t t' : State} (h : SameCalls s s') (h' : SameCalls t t')
    {start : Byte} {c : Connection} (hs : LegTaken s t start c) : LegTaken s' t' start c := by
  unfold LegTaken
  simp only [h.leg, h.key, h'.leg, h'.key]
  exact hs

/-- What releases are, is read in the tables of calls. -/
theorem Releases.of_sameCalls {s s' t t' : State} (h : SameCalls s s') (h' : SameCalls t t')
    {gone : Connection → Bool} (hs : Releases s t gone) : Releases s' t' gone := by
  obtain ⟨hconn, hleg, hkey, hwatch, hgroup⟩ := hs
  have hfreed : ∀ g, s'.slotsFreed gone g = s.slotsFreed gone g := fun g => by
    unfold State.slotsFreed State.named
    simp only [h.slot, h.connections]
  refine ⟨?_, fun n => ?_, fun k => ?_, ?_, fun hg hc g => ?_⟩
  · rw [h'.connections, h.connections, hconn]
  · rw [h'.leg, h.leg, h.connections, hleg]
  · rw [h'.key, h.key, h.connections, hkey]
  · rw [h'.watches, h.watches, h.connections, hwatch]
  · rw [h'.group, h.group, hfreed]
    exact hgroup (hg.of_sameCalls h.symm) (hc.of_sameCalls h.symm) g

/-! ### The reply and the events of work on the tables of calls (R8) -/

theorem OnlyCalls.append {s t : State} (h : OnlyCalls s t) (p : Port) (e : Entry) :
    OnlyCalls (s.append p e) (t.append p e) := by
  unfold OnlyCalls at h
  rw [h]
  cases p <;> rfl

/-- Work on the tables of calls, replied to and reported. -/
theorem OnlyCalls.posted {s t : State} (h : OnlyCalls s t) (p : Port) (e : Entry)
    (es : List Event) :
    OnlyCallTables (s.append p e) ((t.append p e).postAll es)
      ∧ ∀ q, ((t.append p e).postAll es).port q = ((s.append p e).postAll es).port q := by
  have happended := h.append p e
  refine ⟨happended.releases es, fun q => State.postAll_port_congr ?_ (fun q => ?_) es q⟩
  · rw [happended]
  · rw [happended]
    rfl

theorem State.posted_sameCalls (s : State) (p : Port) (e : Entry) (es : List Event) :
    SameCalls s ((s.append p e).postAll es) :=
  ((s.append_onlyPorts p e).trans (State.postAll_onlyPorts _ es)).sameCalls

/-! ### The take -/

/-- The work of the preemptions, from the take of the order. -/
def State.preempted (s : State) (p : Port) (victims : List Nat) : Work :=
  victims.foldl Work.preempt (Work.start (s.taken p))

/-- A CONNECT that passes every check (R97). -/
theorem exec_connect_of_ok {s : State} {p : Port}
    {tag src dst hi lo cls marker index start preempt : Byte} {victims : List Nat} {k : Nat}
    {r : ConnectRequest} {made : Work} {c : Connection} (hadmission : AdmissionLaw s)
    (hholder : s.HolderAt p) (hmarker : marker.toNat ≤ 1) (hpreempt : preempt.toNat ≤ 1)
    (htakes : s.Takes p
      (queuedOrder 0x30 tag (connectParams src dst hi lo cls marker index start preempt)))
    (hr : connectRequest (connectParams src dst hi lo cls marker index start preempt) = r)
    (hk : s.classFor r.source r.destination r.cls = k)
    (hpasses : s.PassesTo10 r.source r.destination r.cls r.key)
    (hjudged : s.judgeTake r k = .ok victims)
    (hc : (s.preempted p victims).state.newConnection r k = c)
    (hmade : (s.preempted p victims).makeConnection r c = made) :
    exec .connect s = .next ((made.state.append p (.reply 0x30 tag .done
      (connectReply c (releasedBetween s (s.preempted p victims).state)))).postAll made.events) := by
  have hchecks := (State.connectRefusal_eq_none_iff hadmission r).2 hpasses
  obtain ⟨-, -, h4, -⟩ := hpasses
  have hclass : s.recordedClass r = k := (State.recordedClass_eq h4).trans hk
  have hbetween : ∀ w : State, releasedBetween (s.taken p) w = releasedBetween s w := fun w => by
    unfold releasedBetween
    rw [State.taken_recordCount]
  refine exec_connect_of_answer hholder hmarker hpreempt htakes hr ?_
  subst hc hmade
  unfold connectTake
  rw [State.taken_connectRefusal, hchecks, State.taken_recordedClass, hclass, State.taken_judgeTake,
    hjudged]
  dsimp only
  rw [connectFields_eq, hbetween]
  rfl

/-! ### No slot to be preempted (R96, R118) -/

/-- Check 11 without preemption: both slots pass without a victim. -/
theorem State.Check11.passes {s : State} {a b k : Nat} (h : s.Check11 a b k) (preempt : Bool) :
    s.FirstPasses a b k preempt none ∧ s.SecondPasses a b k preempt none none := by
  obtain ⟨hfirst, hsecond⟩ := h
  have hroom : ∀ {g c barred}, (s.group g).roomFor k c →
      s.SlotPasses a b k preempt g c barred none := fun {g c barred} h => by
    unfold State.SlotPasses
    rw [if_neg (Nat.not_le_of_lt h.1)]
    exact ⟨rfl, h⟩
  refine ⟨⟨fun _ => rfl, fun hn => hroom (hfirst hn)⟩, fun _ => rfl, fun hn => hroom ?_⟩
  have hnewly : (96 ≤ a ∧ a < 160 ∧ s.named a = false ∧ s.groupAt a = s.groupAt b)
      ↔ s.NewlyBusy a ∧ s.groupAt a = s.groupAt b := by
    rw [← s.newlyBusy_iff, State.newlyBusy, Bool.and_eq_true, isTrunk_iff, Bool.not_eq_true',
      and_assoc, and_assoc]
  have hfreed : (List.range 64).countP
      (fun n => s.freedBy none n && (s.slot n).group == s.groupAt b) = 0 := by
    simp [State.freedBy]
  refine hsecond hn _ (fun h => ?_) fun h => ?_
  · unfold State.countForSecond
    dsimp only
    rw [hfreed, if_pos (hnewly.2 h)]
    rfl
  · unfold State.countForSecond
    dsimp only
    rw [hfreed, if_neg (mt hnewly.1 h)]
    rfl

/-- The newly busy slots of a group, counted as the statements count them. -/
theorem State.NewlyCount.eq_slotsIn {s : State} {r : ConnectRequest} {g n : Nat}
    (h : s.NewlyCount r.source r.destination g n) : s.slotsIn (s.newlyBusyOf r) g = n := by
  obtain ⟨a, b, rfl, ha, ha', hb, hb'⟩ := h
  have hone : ∀ {e m : Nat}, (s.NewlyBusy e ∧ s.groupAt e = g → m = 1) →
      (¬(s.NewlyBusy e ∧ s.groupAt e = g) → m = 0) →
      (if (s.groupAt e == g && s.newlyBusy e) = true then 1 else 0) = m := fun {e m} h h' => by
    have hiff : (s.groupAt e == g && s.newlyBusy e) = true ↔ s.NewlyBusy e ∧ s.groupAt e = g := by
      rw [Bool.and_eq_true, beq_iff_eq, s.newlyBusy_iff, and_comm]
    split
    · rename_i hin
      exact (h (hiff.1 hin)).symm
    · rename_i hout
      exact (h' (mt hiff.2 hout)).symm
  unfold State.slotsIn State.newlyBusyOf
  rw [List.countP_filter, List.countP_cons, List.countP_cons, List.countP_nil, hone ha ha',
    hone hb hb']
  omega

/-- What a CONNECT that is taken makes of the tables, from those that its preemptions left. -/
theorem Work.makeConnection_tables {w : Work} (ht : TableLaw w.state) {r : ConnectRequest} {k : Nat}
    (h9 : w.state.Check9) (h10 : w.state.Check10 r.key) (hkey : ∀ i ∈ r.key, i ≤ 31)
    {c : Connection} (hc : w.state.newConnection r k = c) :
    w.state.Makes r.source r.destination r.callTag k r.key c
      ∧ (w.makeConnection r c).state.connections = tableWith c w.state.connections
      ∧ LegTaken w.state (w.makeConnection r c).state r.start c
      ∧ (w.makeConnection r c).state.watches = w.state.watches := by
  subst hc
  have hmakes := State.newConnection_makes h9 h10 k
  obtain ⟨-, -, -, -, -, -, hfree, -⟩ := id hmakes
  refine ⟨hmakes, ?_, Work.makeConnection_legTaken h10 hkey, Work.makeConnection_watches _ _ _⟩
  rw [Work.makeConnection_connections]
  exact insertConnection_eq _ _ ht.1 hfree

/-- Settles O30: check 11 notes no victim, and the record is made of the tables as they stand. -/
theorem connectMakesOnePendingRecord : Obligations.ConnectMakesOnePendingRecord := by
  unfold Obligations.ConnectMakesOnePendingRecord
  intro s p tag src dst hi lo cls marker index start preempt key k htable hgroup hcongestion
    hadmission hholder hmarker hpreempt htakes hpasses hcheck
  have hr := connectRequest_eq src dst hi lo cls marker index start preempt
  generalize hrequest : ConnectRequest.mk src.toNat dst.toNat (hi ++ lo) cls.toNat
    (keyNamed marker index) start (preempt == 1) = r at hr
  obtain ⟨h2, -, -, -, -, -, -, h9, h10⟩ := id hpasses
  obtain ⟨-, -, -, -, hkeys⟩ := h2
  obtain ⟨hfirst, hsecond⟩ := hcheck.passes (preempt == 1)
  have htaken := s.taken_sameCalls p
  generalize hc : (s.taken p).newConnection r k = c
  generalize hmade : (Work.start (s.taken p)).makeConnection r c = made
  have hjudged : s.judgeTake r k = .ok [] := by
    subst hrequest
    exact State.judgeTake_of_passes (r := ⟨_, _, _, _, _, _, _⟩) hfirst hsecond
  have hexec := exec_connect_of_ok hadmission hholder hmarker hpreempt htakes hr
    (by subst hrequest; rfl) (by subst hrequest; exact hpasses) hjudged hc hmade
  have hnone : releasedBetween s (s.preempted p []).state = 0 := by
    unfold releasedBetween State.recordCount
    rw [show (s.preempted p []).state.connections = s.connections from htaken.connections]
    exact Nat.sub_self _
  rw [hnone] at hexec
  have htables := Work.makeConnection_tables (w := Work.start (s.taken p)) (r := r)
    (htable.of_sameCalls htaken) (h9.of_sameCalls htaken)
    (by subst hrequest; exact h10.of_sameCalls htaken) (by subst hrequest; exact hkeys) hc
  rw [hmade] at htables
  obtain ⟨hmakes, hconnections, hleg, hwatches⟩ := htables
  have honly := (Work.start (s.taken p)).makeConnection_onlyCalls r c
  rw [hmade] at honly
  obtain ⟨honlyTables, hports⟩ :=
    honly.posted p (.reply 0x30 tag .done (connectReply c 0)) made.events
  have hposted := made.state.posted_sameCalls p (.reply 0x30 tag .done (connectReply c 0)) made.events
  have hsettled : SettledGroups (Work.start (s.taken p)).state :=
    (hgroup.of_sameCalls htaken).settledGroups (hcongestion.of_sameCalls htaken)
  have hends : c.source = r.source ∧ c.destination = r.destination := by subst hc; exact ⟨rfl, rfl⟩
  have hgroups := fun g => Work.makeConnection_group hsettled hends g
  simp only [hmade] at hgroups
  have hbeside := (Work.start (s.taken p)).makeConnection_besideCongestion r c
  rw [hmade] at hbeside
  refine ⟨_, c, made.events, hexec, ?_, honlyTables, hports, hbeside, fun g => ?_, ?_,
    ?_, ?_, fun g n _ hn => ?_⟩
  · subst hrequest
    exact hmakes.of_sameCalls htaken.symm
  · rw [(hgroups g).2, hposted.group, Work.start_state, htaken.group]
    rfl
  · rw [hposted.connections, hconnections, Work.start_state, htaken.connections]
  · subst hrequest
    exact hleg.of_sameCalls htaken.symm hposted
  · rw [hposted.watches, hwatches, Work.start_state, htaken.watches]
  · have hcount : (s.taken p).slotsIn ((s.taken p).newlyBusyOf r) g = n := by
      subst hrequest
      have hcounted := State.NewlyCount.eq_slotsIn
        (r := ⟨_, _, hi ++ lo, cls.toNat, keyNamed marker index, start, preempt == 1⟩) hn
      rw [← hcounted]
      cases p <;> rfl
    rw [hposted.group, (hgroups g).1, Work.start_state, htaken.group, hcount]

/-! ### Victims (R120, R121) -/

/-- The record names the victim slot, if there is a victim. -/
def Connection.fallsTo (v : Option Nat) (c : Connection) : Bool := v.any fun n => c.names (96 + n)

/-- The preemption of a slot, or of none (R121). -/
theorem Work.preempt_continues {w : Work} (ht : TableLaw w.state) (v : Option Nat) :
    w.Continues (v.toList.foldl Work.preempt w) (Connection.fallsTo v)
      (releasedReport w.state.connections (Connection.fallsTo v) .preempted) := by
  cases v with
  | none => exact (Work.Continues.refl w).congr (fun _ => rfl) (by simp [releasedReport, Connection.fallsTo])
  | some n => exact Work.releaseWhere_continues ht .preempted fun c => c.names (96 + n)

/-- The preemption of the source's victim, and then of the destination's (R119, R121). -/
theorem Work.preemptBoth_continues {w : Work} (ht : TableLaw w.state) (v u : Option Nat) :
    w.Continues ((v.toList ++ u.toList).foldl Work.preempt w)
      (fun c => c.fallsTo v || c.fallsTo u)
      (releasedReport w.state.connections (Connection.fallsTo v) .preempted
        ++ releasedReport w.state.connections (fun c => c.fallsTo u && !c.fallsTo v)
          .preempted) := by
  have hfirst := Work.preempt_continues ht v
  have hsecond := Work.preempt_continues (hfirst.releases.tableLaw ht) u
  rw [List.foldl_append]
  refine (hfirst.trans hsecond).congr (fun _ => rfl) (congrArg _ ?_)
  obtain ⟨hconnections, -⟩ := hfirst.releases
  rw [releasedReport, releasedReport, hconnections, List.filter_filter]

/-- A victim that a slot's judgement notes is a candidate (R118, R120). -/
theorem State.SlotPasses.candidate {s : State} {a b k g c n : Nat} {preempt : Bool}
    {barred : Nat → Bool} (h : s.SlotPasses a b k preempt g c barred (some n)) :
    s.Candidate a b k g n := by
  unfold State.SlotPasses at h
  split at h
  · obtain ⟨-, m, hm, hvictim⟩ := h
    obtain rfl := Option.some.inj hm
    exact hvictim.1
  · cases h.1

theorem State.FirstPasses.candidate {s : State} {a b k n : Nat} {preempt : Bool}
    (h : s.FirstPasses a b k preempt (some n)) : ∃ g, s.Candidate a b k g n := by
  obtain ⟨hidle, hbusy⟩ := h
  by_cases hn : s.NewlyBusy a
  · exact ⟨_, (hbusy hn).candidate⟩
  · cases hidle hn

theorem State.SecondPasses.candidate {s : State} {a b k n : Nat} {preempt : Bool} {v : Option Nat}
    (h : s.SecondPasses a b k preempt v (some n)) : ∃ g, s.Candidate a b k g n := by
  obtain ⟨hidle, hbusy⟩ := h
  by_cases hn : s.NewlyBusy b
  · exact ⟨_, (hbusy hn).candidate⟩
  · cases hidle hn

/-- The records of a victim name no trunk slot of the order (R120). -/
theorem State.names_of_fallsTo {s : State} {a b k e : Nat} {v : Option Nat}
    (hv : ∀ n, v = some n → ∃ g, s.Candidate a b k g n) (he : e = a ∨ e = b)
    (htrunk : isTrunk e = true) {c : Connection} (hc : c ∈ s.connections)
    (hfalls : c.fallsTo v = true) : c.names e = false := by
  obtain ⟨n, hn, hnames⟩ := (Option.any_eq_true _ _).1 hfalls
  obtain ⟨g, -, -, -, hall⟩ := hv n hn
  obtain ⟨-, -, hapart⟩ := hall c hc hnames
  obtain ⟨hlow, hhigh⟩ := (isTrunk_iff e).1 htrunk
  exact hapart e he hlow hhigh

/-- Releases of records that do not name a trunk slot leave it as busy as it was. -/
theorem Releases.newlyBusy {s t : State} {gone : Connection → Bool} (h : Releases s t gone) {e : Nat}
    (hgone : isTrunk e = true → ∀ c ∈ s.connections, gone c = true → c.names e = false) :
    t.newlyBusy e = s.newlyBusy e := by
  obtain ⟨hconnections, -⟩ := h
  unfold State.newlyBusy
  cases htrunk : isTrunk e with
  | false => rfl
  | true =>
    have hnamed : t.named e = s.named e := by
      unfold State.named
      rw [hconnections, List.any_filter, Bool.eq_iff_iff, List.any_eq_true, List.any_eq_true]
      refine exists_congr fun c => and_congr_right fun hc => ?_
      rw [Bool.and_eq_true, Bool.not_eq_true']
      refine ⟨fun h => h.2, fun hn => ⟨?_, hn⟩⟩
      by_contra hleaves
      rw [hgone htrunk c hc (by simpa using hleaves)] at hn
      cases hn
    rw [hnamed]

/-- Releases leave room in the table, and free legs free (R149, R150). -/
theorem Releases.checks {s t : State} {gone : Connection → Bool} (h : Releases s t gone)
    {key : Option Nat} (h9 : s.Check9) (h10 : s.Check10 key) : t.Check9 ∧ t.Check10 key := by
  obtain ⟨hconnections, hleg, -⟩ := h
  refine ⟨?_, fun hkey => ?_⟩
  · unfold State.Check9
    rw [hconnections]
    exact (List.length_filter_le _ _).trans_lt h9
  · obtain ⟨n, hn, hfree⟩ := h10 hkey
    exact ⟨n, hn, by rw [hleg, hfree, ite_self]⟩

/-- Two states with the same slots, of which the same slots of a request are newly busy. -/
theorem State.slotsIn_newlyBusyOf {s t : State} {r : ConnectRequest}
    (hslot : ∀ n, t.slot n = s.slot n)
    (hbusy : ∀ e, (e = r.source ∨ e = r.destination) → t.newlyBusy e = s.newlyBusy e) (g : Nat) :
    t.slotsIn (t.newlyBusyOf r) g = s.slotsIn (s.newlyBusyOf r) g := by
  have hnewly : t.newlyBusyOf r = s.newlyBusyOf r :=
    List.filter_congr fun e he => hbusy e (by simpa using he)
  unfold State.slotsIn State.groupAt
  rw [hnewly]
  simp only [hslot]

/-- The preemptions leave the slots of the order as busy as they were (R120). -/
theorem Releases.slotsIn_of_victims {s t : State} {r : ConnectRequest} {k : Nat} {v w : Option Nat}
    (h : Releases s t fun c => c.fallsTo v || c.fallsTo w) (hslot : ∀ n, t.slot n = s.slot n)
    (hv : ∀ n, v = some n → ∃ g, s.Candidate r.source r.destination k g n)
    (hw : ∀ n, w = some n → ∃ g, s.Candidate r.source r.destination k g n) (g : Nat) :
    t.slotsIn (t.newlyBusyOf r) g = s.slotsIn (s.newlyBusyOf r) g := by
  refine State.slotsIn_newlyBusyOf hslot (fun e he => h.newlyBusy fun htrunk c hc hgone => ?_) g
  rw [Bool.or_eq_true] at hgone
  rcases hgone with hfalls | hfalls
  · exact State.names_of_fallsTo hv he htrunk hc hfalls
  · exact State.names_of_fallsTo hw he htrunk hc hfalls

/-! ### The tables of calls put into a state -/

/-- s with the tables of calls of v. -/
def State.withCalls (s v : State) : State :=
  { s with
    connections := v.connections, legs := v.legs, keys := v.keys, groups := v.groups
    watches := v.watches }

theorem State.withCalls_sameCalls {s v : State} (h : v.slots = s.slots) :
    SameCalls v (s.withCalls v) := ⟨rfl, h.symm, rfl, rfl, rfl, rfl⟩

theorem State.withCalls_onlyCallTables (s v : State) : OnlyCallTables s (s.withCalls v) :=
  ⟨fun p => by cases p <;> rfl, rfl⟩

/-- Settles O31: the victims' records are released one selection after the other, and the record is made
of the tables that they leave. -/
theorem connectPreemptsTheLowestHoldingSlot : Obligations.ConnectPreemptsTheLowestHoldingSlot := by
  unfold Obligations.ConnectPreemptsTheLowestHoldingSlot
  intro s p tag src dst hi lo cls marker index start v w a b key k first second gone answered htable _
    hadmission hholder hmarker htakes hpasses hfirst hsecond
  have hr := connectRequest_eq src dst hi lo cls marker index start 1
  generalize hrequest : ConnectRequest.mk src.toNat dst.toNat (hi ++ lo) cls.toNat
    (keyNamed marker index) start ((1 : Byte) == 1) = r at hr
  obtain ⟨h2, -, -, -, -, -, -, h9, h10⟩ := id hpasses
  obtain ⟨-, -, -, -, hkeys⟩ := h2
  have hjudged : s.judgeTake r k = .ok (v.toList ++ w.toList) := by
    subst hrequest
    exact State.judgeTake_of_passes (r := ⟨_, _, _, _, _, _, _⟩) hfirst hsecond
  have htaken := s.taken_sameCalls p
  have hcontinues := Work.preemptBoth_continues (w := Work.start (s.taken p))
    (htable.of_sameCalls htaken) v w
  have honly : OnlyCalls (s.taken p) (s.preempted p (v.toList ++ w.toList)).state :=
    Work.preempt_foldl_onlyCalls _ (Work.start (s.taken p))
  have hexec := fun c made => exec_connect_of_ok (c := c) (made := made) hadmission hholder hmarker
    (by decide) htakes hr (by subst hrequest; rfl) (by subst hrequest; exact hpasses) hjudged
  change (Work.start (s.taken p)).Continues (s.preempted p (v.toList ++ w.toList)) _ _ at hcontinues
  generalize s.preempted p (v.toList ++ w.toList) = left at hcontinues honly hexec
  have hslots : left.state.slots = s.slots := (congrArg State.slots honly).trans htaken.slots
  have hleft := State.withCalls_sameCalls hslots
  have hreleases : Releases s (s.withCalls left.state) gone :=
    hcontinues.releases.of_sameCalls htaken.symm hleft
  have hreported : releasedBetween s left.state = s.connections.countP gone :=
    hreleases.releasedBetween_eq
  obtain ⟨h9', h10'⟩ := hcontinues.releases.checks (h9.of_sameCalls htaken) (h10.of_sameCalls htaken)
  generalize hc : left.state.newConnection r k = c
  generalize hmade : left.makeConnection r c = made
  have hexec := hexec c made hc hmade
  rw [hreported] at hexec
  have htables := Work.makeConnection_tables (r := r)
    (hcontinues.releases.tableLaw (htable.of_sameCalls htaken)) h9'
    (by subst hrequest; exact h10') (by subst hrequest; exact hkeys) hc
  have hmadeOnly := left.makeConnection_onlyCalls r c
  have hbeside := left.makeConnection_besideCongestion r c
  rw [hmade] at htables hmadeOnly hbeside
  obtain ⟨hmakes, hconnections, hleg, hwatches⟩ := htables
  obtain ⟨honlyTables, hports⟩ := (honly.trans hmadeOnly).posted p
    (.reply 0x30 tag .done (connectReply c (s.connections.countP gone))) made.events
  have hposted := made.state.posted_sameCalls p
    (.reply 0x30 tag .done (connectReply c (s.connections.countP gone))) made.events
  refine ⟨_, s.withCalls left.state, c, made.events, hexec, s.withCalls_onlyCallTables _, hreleases,
    ?_, ?_, ?_, ?_, honlyTables, hports, ?_, fun hgroup hcongestion g => ?_⟩
  · subst hrequest
    exact hmakes.of_sameCalls hleft
  · rw [hposted.connections, hconnections, hleft.connections]
  · subst hrequest
    exact hleg.of_sameCalls hleft hposted
  · rw [hposted.watches, hwatches, hleft.watches]
  · rw [hbeside, hcontinues.beside, Work.start_state, htaken.connections]
    rfl
  have hgroup' := hgroup.of_sameCalls htaken
  have hcongestion' := hcongestion.of_sameCalls htaken
  obtain ⟨hgroupLeft, hcongestionLeft⟩ :=
    hcontinues.releases.groupLaws hcontinues.slot hgroup' hcongestion'
  have hends : c.source = r.source ∧ c.destination = r.destination := by subst hc; exact ⟨rfl, rfl⟩
  have hmadeGroup := Work.makeConnection_group (hgroupLeft.settledGroups hcongestionLeft) hends g
  rw [hmade] at hmadeGroup
  obtain ⟨hrisen, hcongested⟩ := hmadeGroup
  refine ⟨fun n _ hn => ?_, ?_⟩
  · have hcount : left.state.slotsIn (left.state.newlyBusyOf r) g = n := by
      have hcounted := hcontinues.releases.slotsIn_of_victims (r := r) (k := k) hcontinues.slot
        (fun n hn => by cases p <;> subst hrequest <;> exact (hn ▸ hfirst).candidate)
        (fun n hn => by cases p <;> subst hrequest <;> exact (hn ▸ hsecond).candidate) g
      rw [hcounted]
      subst hrequest
      have hnewly := State.NewlyCount.eq_slotsIn
        (r := ⟨_, _, hi ++ lo, cls.toNat, keyNamed marker index, start, (1 : Byte) == 1⟩) hn
      rw [← hnewly]
      cases p <;> rfl
    rw [hposted.group, hleft.group, hrisen, hcount]
  · rw [hcongested, hcontinues.congestions hgroup' hcongestion', Work.start_state, htaken.group,
      hposted.group, hleft.group]
    rfl

end Sys2Proof.Machine
end

section
/-! SUPPORT. RELEASE in both modes, the looks at the network and at trunks, and the end of a frame: O33,
O34 and O44 (R86, R99 to R101, R107, R108, R112, R124, R148 to R152). -/

namespace Sys2Proof.Machine

/-! ### The end of a frame (R86) -/

/-- Settles O44: the received sample of each endpoint is read off the vector that is made. -/
theorem endOfFrameReplacesReceivedSamples : Obligations.EndOfFrameReplacesReceivedSamples := by
  unfold Obligations.EndOfFrameReplacesReceivedSamples
  intro s samples hlength
  refine ⟨_, rfl, rfl, fun e he => ?_⟩
  have habsent : s.sampleAbsent e = true ↔ e < 96 ∧ (s.line (e / 2)).linkUp = false := by
    simp [State.sampleAbsent, isStation_iff, linePortOf]
  have hsample : samples.getD e s.muteCode = samples.getD e 0 := by
    rw [List.getD_eq_getElem _ _ (hlength ▸ he), List.getD_eq_getElem _ _ (hlength ▸ he)]
  simp only [State.receivedSample, Vector.getElem?_ofFn, he, dite_true, Option.getD_some, habsent,
    hsample]

/-! ### The orders of release (R99, R100) -/

theorem word16OfBytes_eq (hi lo : Byte) : word16OfBytes hi lo = hi ++ lo := rfl

theorem bytesOfWord16_append (hi lo : Byte) : bytesOfWord16 (hi ++ lo : Word16) = [hi, lo] :=
  congrArg₂ (fun high low => [high, low]) BitVec.extractLsb'_append_eq_left
    BitVec.extractLsb'_append_eq_right

/-- The slot of an endpoint that leaves its group when a record has gone (R151). -/
theorem Work.dropped_leaves_iff (w : Work) (c : Connection) (e g : Nat) :
    (w.dropped c).state.leaves e g = true ↔ w.state.OnlyBy c e ∧ w.state.groupAt e = g := by
  unfold State.leaves State.OnlyBy State.groupAt
  rw [Bool.and_eq_true, Bool.and_eq_true, isTrunk_iff, Bool.not_eq_true', beq_iff_eq,
    Work.dropped_slot, ← and_assoc]
  refine and_congr_left fun _ => and_congr_right fun _ => ?_
  rw [State.named, List.any_eq_false, Work.dropped_connections]
  simp only [List.mem_filter, bne_iff_ne, ne_eq, and_imp, Bool.not_eq_true]

/-- The slots that a release frees in a group, counted as the statements count them. -/
theorem State.FreedCount.eq_leaves {w : Work} {c : Connection} {g n : Nat}
    (h : w.state.FreedCount c g n) :
    (if (w.dropped c).state.leaves c.source g then 1 else 0)
      + (if (w.dropped c).state.leaves c.destination g then 1 else 0) = n := by
  obtain ⟨a, b, rfl, ha, ha', hb, hb'⟩ := h
  have hone : ∀ {e m : Nat}, (w.state.OnlyBy c e ∧ w.state.groupAt e = g → m = 1) →
      (¬(w.state.OnlyBy c e ∧ w.state.groupAt e = g) → m = 0) →
      (if (w.dropped c).state.leaves e g then 1 else 0) = m := fun {e m} h h' => by
    split
    · rename_i hin
      exact (h ((w.dropped_leaves_iff c e g).1 hin)).symm
    · rename_i hout
      exact (h' (mt (w.dropped_leaves_iff c e g).2 hout)).symm
  rw [hone ha ha', hone hb hb']

/-- The leg and the key context of a released record (R150). -/
theorem Work.release_legFreed (w : Work) (reason : Option ReleaseReason) (c : Connection) :
    LegFreed w.state (w.release reason c).state c := by
  refine ⟨fun n => ?_, fun n => ?_⟩
  · rw [Work.release_leg]
    cases c.privacy with
    | none => rfl
    | some part => simp
  · rw [Work.release_key]
    cases c.privacy with
    | none => rfl
    | some part =>
      by_cases hn : part.key = n
      · simp [hn]
      · simp [hn]

theorem LegFreed.of_sameCalls {s s' t t' : State} (h : SameCalls s s') (h' : SameCalls t t')
    {c : Connection} (hs : LegFreed s t c) : LegFreed s' t' c := by
  unfold LegFreed
  simp only [h.leg, h.key, h'.leg, h'.key]
  exact hs

theorem State.FreedCount.of_sameCalls {s t : State} (h : SameCalls s t) {c : Connection} {g n : Nat}
    (hs : s.FreedCount c g n) : t.FreedCount c g n := by
  unfold State.FreedCount State.OnlyBy State.groupAt
  simp only [h.connections, h.slot]
  exact hs

theorem connectionReleased_eq (id : Nat) : Watch.connectionReleased id = Watch.afterRelease id := by
  funext w
  cases w <;> rfl

theorem exec_releaseById_of_answer {s t : State} {p : Port} {tag hi lo : Byte}
    (hholder : s.HolderAt p) (htakes : s.Takes p (queuedOrder 0x31 tag [0, hi, lo]))
    (hanswer : (s.taken p).replied p (queuedOrder 0x31 tag [0, hi, lo])
      (releaseId (hi ++ lo : Word16).toNat (s.taken p)) = t) : exec .releaseById s = .next t :=
  exec_of_answer execReleaseById (fun _ => rfl) (fun _ => rfl) htakes rfl rfl rfl
    (authorityCheck_holder hholder) hanswer

theorem exec_releaseByTag_of_answer {s t : State} {p : Port} {tag hi lo : Byte}
    (hholder : s.HolderAt p) (htakes : s.Takes p (queuedOrder 0x31 tag [1, hi, lo]))
    (hanswer : (s.taken p).replied p (queuedOrder 0x31 tag [1, hi, lo])
      (releaseTag (hi ++ lo : Word16) (s.taken p)) = t) : exec .releaseByTag s = .next t :=
  exec_of_answer execReleaseByTag (fun _ => rfl) (fun _ => rfl) htakes rfl rfl rfl
    (authorityCheck_holder hholder) hanswer

/-- The record of an id, in a table that is in order. -/
theorem TableLaw.connection_eq {s : State} (ht : TableLaw s) {c : Connection}
    (hc : c ∈ s.connections) : s.connection c.id = some c := by
  obtain ⟨hids, -, -⟩ := ht
  unfold State.connection
  cases hfound : s.connections.find? fun d => d.id == c.id with
  | none => exact absurd (List.find?_eq_none.1 hfound c hc) (by simp)
  | some d =>
    have hid : d.id = c.id := by simpa using List.find?_some hfound
    rw [eq_of_id_eq hids (List.mem_of_find?_eq_some hfound) hc hid]

/-- RELEASE BY_ID of a record that stands and is not trace-held (R99, R148). -/
theorem releaseById_releases {s : State} {p : Port} {tag hi lo : Byte} (hholder : s.HolderAt p)
    (htakes : s.Takes p (queuedOrder 0x31 tag [0, hi, lo])) {c : Connection}
    (hc : c ∈ s.connections) (hid : c.id = (hi ++ lo : Word16).toNat) (htable : TableLaw s)
    (hheld : c.traceHeld = false) (hgroup : GroupLaw s) (hcongestion : CongestionLaw s) :
    ∃ (t : State) (es : List Event),
      let answered := s.done p 0x31 tag
        (byteOf c.id :: bytesOfWord16 c.callTag ++ [if c.live = true then 1 else 0]) fun t => t
      exec .releaseById s = .next t
        ∧ OnlyCallTables answered t
        ∧ (∀ q, t.port q = (answered.postAll es).port q)
        ∧ besideCongestion es = []
        ∧ (∀ g, congestionsOf g es = congestionReport g (s.group g) (t.group g))
        ∧ t.connections = s.connections.filter (fun d => d.id != c.id)
        ∧ LegFreed s t c
        ∧ t.watches = s.watches.map (Watch.afterRelease c.id)
        ∧ ∀ g n, g < 8 → s.FreedCount c g n → t.group g = (s.group g).fallenBy n := by
  have htaken := s.taken_sameCalls p
  have hrange : ¬159 < (hi ++ lo : Word16).toNat := by
    obtain ⟨-, -, hrecords⟩ := id htable
    have := (hrecords c hc).1
    omega
  have hfound := htable.connection_eq hc
  have hexec := exec_releaseById_of_answer hholder htakes rfl
  unfold releaseId at hexec
  rw [← hid] at hexec hrange
  rw [if_neg (by simpa using hrange), State.taken_connection, hfound] at hexec
  simp only [hheld, Bool.false_eq_true, if_false] at hexec
  rw [State.replied_done] at hexec
  have hsettled : SettledGroups (Work.start (s.taken p)).state :=
    (hgroup.of_sameCalls htaken).settledGroups (hcongestion.of_sameCalls htaken)
  have hcalls := (Work.start (s.taken p)).release_onlyCalls none c
  have hposted := fun e => ((Work.start (s.taken p)).release none c).state.posted_sameCalls p e
    ((Work.start (s.taken p)).release none c).events
  have hgroups := fun g => Work.release_group none hsettled c g
  refine ⟨_, _, hexec, (hcalls.posted p _ _).1, (hcalls.posted p _ _).2, ?_, fun g => ?_, ?_, ?_, ?_,
    fun g n _ hn => ?_⟩
  · rw [Work.release_besideCongestion]
    rfl
  · rw [(hposted _).group, (hgroups g).2, Work.start_state, htaken.group]
    rfl
  · rw [(hposted _).connections, Work.release_connections, Work.start_state, htaken.connections]
  · exact (Work.release_legFreed _ none c).of_sameCalls htaken.symm (hposted _)
  · rw [(hposted _).watches, Work.release_watches, connectionReleased_eq, Work.start_state,
      htaken.watches]
  · have hcounted := State.FreedCount.eq_leaves (w := Work.start (s.taken p)) (hn.of_sameCalls htaken)
    rw [(hposted _).group, (hgroups g).1, hcounted, Work.start_state, htaken.group]

/-- RELEASE BY_TAG where some record has the tag (R100). -/
theorem releaseByTag_releases {s : State} {p : Port} {tag hi lo : Byte} (hholder : s.HolderAt p)
    (htakes : s.Takes p (queuedOrder 0x31 tag [1, hi, lo])) {mine : Connection → Bool}
    (hmine : mine = fun c => c.callTag == (hi ++ lo : Word16))
    (hsome : ∃ c ∈ s.connections, mine c = true) (htable : TableLaw s) :
    ∃ (t : State) (es : List Event),
      let answered := s.done p 0x31 tag
        [hi, lo, byteOf (s.connections.countP fun c => mine c && !c.traceHeld),
          byteOf (s.connections.countP fun c => mine c && c.traceHeld)] fun t => t
      exec .releaseByTag s = .next t
        ∧ OnlyCallTables answered t
        ∧ (∀ q, t.port q = (answered.postAll es).port q)
        ∧ besideCongestion es = []
        ∧ (GroupLaw s → CongestionLaw s →
            ∀ g, congestionsOf g es = congestionReport g (s.group g) (t.group g))
        ∧ Releases s t (fun c => mine c && !c.traceHeld) := by
  subst hmine
  have htaken := s.taken_sameCalls p
  have hsome' : ¬(s.taken p).connections.countP (fun c => c.callTag == (hi ++ lo : Word16)) = 0 := by
    obtain ⟨c, hc, htag⟩ := hsome
    rw [htaken.connections, List.countP_eq_zero]
    exact fun h => h c hc htag
  have hexec := exec_releaseByTag_of_answer hholder htakes rfl
  unfold releaseTag at hexec
  rw [if_neg hsome', State.replied_done, bytesOfWord16_append, htaken.connections] at hexec
  have hcalls := (Work.start (s.taken p)).releaseWhere_onlyCalls none
    fun c => c.callTag == (hi ++ lo : Word16) && !c.traceHeld
  have hbeside := (Work.start (s.taken p)).releaseWhere_besideCongestion none
    fun c => c.callTag == (hi ++ lo : Word16) && !c.traceHeld
  have hreleases := Work.releaseWhere_releases (w := Work.start (s.taken p)) none
    (fun c => c.callTag == (hi ++ lo : Word16) && !c.traceHeld) (htable.of_sameCalls htaken)
  have hcongestions := Work.releaseWhere_congestionsOf (w := Work.start (s.taken p)) none
    (fun c => c.callTag == (hi ++ lo : Word16) && !c.traceHeld) (htable.of_sameCalls htaken)
  generalize (Work.start (s.taken p)).releaseWhere none
    (fun c => c.callTag == (hi ++ lo : Word16) && !c.traceHeld) = w
      at hexec hcalls hbeside hreleases hcongestions
  have hposted := fun e => w.state.posted_sameCalls p e w.events
  refine ⟨_, w.events, hexec, (hcalls.posted p _ w.events).1, (hcalls.posted p _ w.events).2, ?_,
    fun hgroup hcongestion g => ?_, hreleases.of_sameCalls htaken.symm (hposted _)⟩
  · rw [hbeside]
    simp [releaseReport, besideCongestion]
  · rw [hcongestions (hgroup.of_sameCalls htaken) (hcongestion.of_sameCalls htaken), (hposted _).group,
      Work.start_state, htaken.group]
    rfl

/-- Settles O33: the refusals of each mode, and the release of one record or of one selection. -/
theorem releaseOrdersRunTheReleaseProcedure : Obligations.ReleaseOrdersRunTheReleaseProcedure := by
  unfold Obligations.ReleaseOrdersRunTheReleaseProcedure
  intro s p tag hi lo hholder
  refine ⟨fun htakes => ⟨fun hrange => ?_, fun hrange hnone => ?_, fun c hc hid htable =>
    ⟨fun hheld => ?_, fun hheld hgroup hcongestion => ?_⟩⟩,
    fun htakes => ⟨fun hnone => ?_, releaseByTag_releases hholder htakes rfl⟩⟩
  · refine exec_releaseById_of_answer hholder htakes ?_
    rw [releaseId, if_pos (by simpa using hrange)]
    rfl
  · have habsent : s.connection (hi ++ lo : Word16).toNat = none :=
      List.find?_eq_none.2 fun c hc => by simpa using hnone c hc
    refine exec_releaseById_of_answer hholder htakes ?_
    rw [releaseId, if_neg (by simpa using hrange), State.taken_connection, habsent]
    rfl
  · have hrange : ¬159 < (hi ++ lo : Word16).toNat := by
      obtain ⟨-, -, hrecords⟩ := id htable
      have := (hrecords c hc).1
      omega
    refine exec_releaseById_of_answer hholder htakes ?_
    rw [releaseId, if_neg (by simpa using hrange), State.taken_connection, ← hid,
      htable.connection_eq hc]
    simp only [hheld, if_true]
    rfl
  · have hreleased :=
      releaseById_releases hholder htakes hc hid htable hheld hgroup hcongestion
    rw [hid] at hreleased
    exact hreleased
  · have hzero : (s.taken p).connections.countP (fun c => c.callTag == (hi ++ lo : Word16)) = 0 := by
      rw [State.taken_connections, List.countP_eq_zero]
      exact fun c hc => by simpa using hnone c hc
    refine exec_releaseByTag_of_answer hholder htakes ?_
    rw [releaseTag, if_pos hzero]
    rfl

end Sys2Proof.Machine
end

section
/-! SUPPORT. The looks at records, endpoints, the network, trunks and groups: O34 (R107, R108, R112,
R124). Each report is read off the table once, for any state. -/

namespace Sys2Proof.Machine

/-- A look replies with its fields and changes nothing (R8). -/
theorem State.replied_look {s : State} {p : Port} {o : OrderRecord} {fields fields' : List Byte}
    (h : fields = fields') :
    (s.taken p).replied p o (.plain fields (s.taken p)) = s.done p o.code o.tag fields' fun t => t :=
  h ▸ rfl

/-- A look at one record of the table: its report, or NO_ENTRY (R107). -/
theorem State.replied_found {s : State} {p : Port} {o : OrderRecord} {found found' : Option Connection}
    {report report' : Connection → List Byte} {absent absent' : List Byte} :
    found = found' → (∀ c, report c = report' c) → absent = absent' →
    (s.taken p).replied p o (match found with
      | some c => .plain (report c) (s.taken p)
      | none => .refuse .noEntry absent)
      = match found' with
        | some c => s.done p o.code o.tag (report' c) fun t => t
        | none => s.refusal p o.code o.tag .noEntry absent' := by
  rintro rfl hreport rfl
  cases found with
  | none => rfl
  | some c => exact State.replied_look (hreport c)

theorem yesNo_eq {b : Bool} {P : Prop} [Decidable P] (h : b = true ↔ P) :
    yesNo b = if P then 1 else 0 :=
  if_congr h rfl rfl

/-! ### Records (R107) -/

theorem connectionFields_eq (c : Connection) : connectionFields c = connectionReport c := by
  unfold connectionFields connectionReport
  cases c.privacy with
  | none => rfl
  | some part =>
    obtain ⟨direction, key, leg⟩ := part
    cases direction <;> rfl

theorem recordCountFields_taken (s : State) (p : Port) :
    recordCountFields (s.taken p) = s.tableCounts := by
  unfold recordCountFields State.recordCount State.pendingCount State.privacyCount State.tableCounts
  simp only [State.taken_connections, beq_false]

/-- The record that LOOK NEXT CONNECTION finds: a marker of 0 names no tag (R107). -/
theorem State.nextConnection_eq (s : State) (n : Nat) (marker hi lo : Byte) (hmarker : marker.toNat ≤ 1) :
    s.nextConnection n (if flagSet marker then some (word16OfBytes hi lo) else none)
      = s.connections.find? fun c =>
          decide (n ≤ c.id) && (marker == 0 || c.callTag == (hi ++ lo : Word16)) := by
  have hflag : marker = 0 ∨ marker = 1 := by
    rcases Nat.le_one_iff_eq_zero_or_eq_one.1 hmarker with h | h
    · exact .inl (BitVec.eq_of_toNat_eq h)
    · exact .inr (BitVec.eq_of_toNat_eq h)
  unfold State.nextConnection
  rcases hflag with rfl | rfl <;> rfl

theorem lookConnection_of_takes {s : State} {p : Port} {tag n : Byte}
    (ht : s.Takes p (queuedOrder 0x33 tag [n])) :
    exec .lookConnection s = .next (
      if 159 < n.toNat then s.refusal p 0x33 tag .range []
      else match s.connections.find? fun c => c.id == n.toNat with
        | some c => s.done p 0x33 tag (connectionReport c) fun t => t
        | none => s.refusal p 0x33 tag .noEntry []) := by
  refine exec_of_answer execLookConnection (fun _ => rfl) (fun _ => rfl) ht rfl rfl rfl rfl ?_
  refine State.replied_ite decide_eq_true_iff rfl fun _ => ?_
  exact State.replied_found (s.taken_connection p n.toNat) connectionFields_eq rfl

theorem lookNextConnection_of_takes {s : State} {p : Port} {tag n marker hi lo : Byte}
    (ht : s.Takes p (queuedOrder 0x34 tag [n, marker, hi, lo])) (hmarker : marker.toNat ≤ 1) :
    exec .lookNextConnection s = .next (
      if 159 < n.toNat then s.refusal p 0x34 tag .range []
      else match s.connections.find? fun c =>
          decide (n.toNat ≤ c.id) && (marker == 0 || c.callTag == (hi ++ lo : Word16)) with
        | some c => s.done p 0x34 tag (connectionReport c ++ s.tableCounts) fun t => t
        | none => s.refusal p 0x34 tag .noEntry s.tableCounts) := by
  refine exec_of_answer execLookNextConnection (fun _ => rfl) (fun _ => rfl) ht rfl rfl
    ((isFlag_iff [n, marker, hi, lo] 1).2 hmarker) rfl ?_
  refine State.replied_ite decide_eq_true_iff rfl fun _ => ?_
  have hnext := (s.taken p).nextConnection_eq n.toNat marker hi lo hmarker
  rw [State.taken_connections] at hnext
  have hreport : ∀ c, connectionFields c ++ recordCountFields (s.taken p)
      = connectionReport c ++ s.tableCounts := fun c => by
    rw [connectionFields_eq, recordCountFields_taken]
  exact State.replied_found hnext hreport (recordCountFields_taken s p)

/-! ### Endpoints and the network (R108) -/

/-- The kind of an endpoint and its slot number (R108, R176). -/
theorem endpointKind_slot_eq (e : Nat) :
    [endpointKind e, optionalByte (if isTrunk e then some (slotOf e) else none)]
      = if e < 96 then [0, 0xFF] else if e < 160 then [1, byteOf (e - 96)] else [2, 0xFF] := by
  unfold endpointKind
  by_cases hstation : e < 96
  · simp [isStation_iff, isTrunk_iff, hstation, Nat.not_le.2 hstation, optionalByte]
  · by_cases htrunk : e < 160
    · simp [isStation_iff, isTrunk_iff, hstation, Nat.not_lt.1 hstation, htrunk, optionalByte, slotOf]
    · simp [isStation_iff, isTrunk_iff, hstation, htrunk, optionalByte]

theorem endpointFields_taken (s : State) (p : Port) (e : Nat) :
    endpointFields (s.taken p) e
      = (if e < 96 then [0, 0xFF] else if e < 160 then [1, byteOf (e - 96)] else [2, 0xFF])
        ++ [((s.connections.find? fun c => c.destination == e).map fun c => byteOf c.id).getD 0xFF,
            byteOf (s.connections.countP fun c => c.source == e),
            ((s.connections.find? fun c => c.source == e).map fun c => byteOf c.id).getD 0xFF] := by
  unfold endpointFields State.feeder
  rw [← endpointKind_slot_eq, optionalByte_eq, optionalByte_eq ((List.find? _ _).map _),
    optionalByte_eq ((List.find? _ _).map _), State.taken_connections, Option.map_map, Option.map_map]
  rfl

theorem lookEndpoint_of_takes {s : State} {p : Port} {tag n : Byte}
    (ht : s.Takes p (queuedOrder 0x35 tag [n])) :
    exec .lookEndpoint s = .next (
      if 175 < n.toNat then s.refusal p 0x35 tag .range []
      else s.done p 0x35 tag
        ((if n.toNat < 96 then [0, 0xFF]
            else if n.toNat < 160 then [1, byteOf (n.toNat - 96)] else [2, 0xFF])
          ++ [((s.connections.find? fun c => c.destination == n.toNat).map
                fun c => byteOf c.id).getD 0xFF,
              byteOf (s.connections.countP fun c => c.source == n.toNat),
              ((s.connections.find? fun c => c.source == n.toNat).map
                fun c => byteOf c.id).getD 0xFF]) fun t => t) := by
  refine exec_of_answer execLookEndpoint (fun _ => rfl) (fun _ => rfl) ht rfl rfl rfl rfl ?_
  exact State.replied_ite decide_eq_true_iff rfl fun _ =>
    State.replied_look (endpointFields_taken s p n.toNat)

theorem lookNetwork_of_takes {s : State} {p : Port} {tag : Byte}
    (ht : s.Takes p (queuedOrder 0x36 tag [])) :
    exec .lookNetwork s = .next (s.done p 0x36 tag
      (bytes4 s.frameCounter ++ s.muteCode :: s.tableCounts
        ++ [byteOf (160 - s.connections.length)]) fun t => t) := by
  refine exec_of_answer execLookNetwork (fun _ => rfl) (fun _ => rfl) ht rfl rfl rfl rfl ?_
  refine State.replied_look ?_
  rw [recordCountFields_taken, State.recordCount, State.taken_connections, State.taken_frameCounter,
    State.taken_muteCode]
  rfl

/-! ### Slots and groups (R112, R124) -/

theorem State.traceHeldAt_iff (s : State) (e : Nat) :
    s.traceHeldAt e = true ↔ ∃ c ∈ s.connections, c.names e = true ∧ c.traceHeld = true := by
  simp only [State.traceHeldAt, List.any_eq_true, Bool.and_eq_true]

theorem State.holdingClass_eq {s : State} {v : Nat} {holding : Option Nat}
    (h : ∀ k, holding = some k ↔ s.Holds v k) : s.holdingClass (96 + v) = holding :=
  Option.ext fun k => (s.holdingClass_eq_some v k).trans (h k).symm

theorem trunkFields_eq {s : State} {n : Nat} {holding : Option Nat}
    (h : ∀ k, holding = some k ↔ s.Holds n k) :
    trunkFields s n
      = [byteOf n, byteOf (96 + n), trunkModeCode (s.slot n).mode, byteOf (s.slot n).group,
          if ∃ c ∈ s.connections, c.names (96 + n) = true then 1 else 0,
          byteOf (s.connections.countP fun c => c.names (96 + n)),
          (holding.map byteOf).getD 0xFF,
          if ∃ c ∈ s.connections, c.names (96 + n) = true ∧ c.traceHeld = true then 1 else 0] := by
  unfold trunkFields endpointOfSlot
  rw [yesNo_eq (s.named_iff _), yesNo_eq (s.traceHeldAt_iff _), optionalByte_eq, State.holdingClass_eq h]

/-- The slots in the order of their numbers. -/
theorem State.slots_toList (s : State) : s.slots.toList = (List.range 64).map s.slot := by
  refine List.ext_getElem (by simp) fun i hi _ => ?_
  have hlt : i < 64 := by simpa using hi
  simp [State.slot, hlt]

theorem State.memberCount_eq (s : State) (g : Nat) (mode : TrunkMode) :
    s.memberCount g mode
      = (List.range 64).countP fun m => (s.slot m).group == g && (s.slot m).mode == mode := by
  rw [State.memberCount, s.slots_toList, List.countP_map]
  rfl

/-- Slot m of group g is busy with holding class k and carries no trace-held record (R124). -/
def State.FreeHolding (s : State) (g m k : Nat) : Prop :=
  m < 64 ∧ (s.slot m).group = g ∧ s.Holds m k
    ∧ ∀ c ∈ s.connections, c.names (96 + m) = true → c.traceHeld = false

/-- The lowest holding class of a group is the least of those of its slots without a trace hold. -/
theorem State.lowestHolding_eq {s : State} {g : Nat} {lowest : Option Nat}
    (h : ∀ k, lowest = some k ↔ (∃ m, s.FreeHolding g m k) ∧ ∀ m j, s.FreeHolding g m j → k ≤ j) :
    s.lowestHolding g = lowest := by
  have hmem : ∀ k, k ∈ ((List.range 64).filterMap fun m =>
      if (s.slot m).group == g && !s.traceHeldAt (endpointOfSlot m) then
        s.holdingClass (endpointOfSlot m) else none) ↔ ∃ m, s.FreeHolding g m k := fun k => by
    simp only [List.mem_filterMap, List.mem_range, Option.ite_none_right_eq_some, Bool.and_eq_true,
      beq_iff_eq, Bool.not_eq_true', endpointOfSlot, State.holdingClass_eq_some]
    refine exists_congr fun m => and_congr_right fun _ => ?_
    have hheld : s.traceHeldAt (96 + m) = false
        ↔ ∀ c ∈ s.connections, c.names (96 + m) = true → c.traceHeld = false := by
      simp [← Bool.not_eq_true, s.traceHeldAt_iff]
    rw [hheld, and_assoc, and_comm (a := ∀ c ∈ _, _)]
  refine Option.ext fun k => ?_
  rw [State.lowestHolding, List.min?_eq_some_iff, h, hmem]
  exact and_congr_right fun _ =>
    ⟨fun hleast m j hj => hleast j ((hmem j).2 ⟨m, hj⟩), fun hleast j hj =>
      let ⟨m, hm⟩ := (hmem j).1 hj
      hleast m j hm⟩

theorem lookTrunk_of_takes {s : State} {p : Port} {tag n : Byte} {holding : Option Nat}
    (h : ∀ k, holding = some k ↔ s.Holds n.toNat k) (ht : s.Takes p (queuedOrder 0x42 tag [n])) :
    exec .lookTrunk s = .next (
      if 63 < n.toNat then s.refusal p 0x42 tag .range []
      else s.done p 0x42 tag
        [n, byteOf (96 + n.toNat), trunkModeCode (s.slot n.toNat).mode, byteOf (s.slot n.toNat).group,
          if ∃ c ∈ s.connections, c.names (96 + n.toNat) = true then 1 else 0,
          byteOf (s.connections.countP fun c => c.names (96 + n.toNat)),
          (holding.map byteOf).getD 0xFF,
          if ∃ c ∈ s.connections, c.names (96 + n.toNat) = true ∧ c.traceHeld = true then 1
            else 0] fun t => t) := by
  refine exec_of_answer execLookTrunk (fun _ => rfl) (fun _ => rfl) ht rfl rfl rfl rfl ?_
  refine State.replied_ite decide_eq_true_iff rfl fun _ => State.replied_look ?_
  have htaken : trunkFields (s.taken p) n.toNat = trunkFields s n.toNat := by cases p <;> rfl
  have hfields := htaken.trans (trunkFields_eq h)
  rw [byteOf_toNat] at hfields
  exact hfields

theorem lookGroup_of_takes {s : State} {p : Port} {tag n : Byte} {lowest : Option Nat}
    (h : ∀ k, lowest = some k ↔ (∃ m, s.FreeHolding n.toNat m k)
      ∧ ∀ m j, s.FreeHolding n.toNat m j → k ≤ j)
    (ht : s.Takes p (queuedOrder 0x43 tag [n])) :
    let members : TrunkMode → Nat := fun mode =>
      (List.range 64).countP fun m => (s.slot m).group == n.toNat && (s.slot m).mode == mode
    let g := s.group n.toNat
    exec .lookGroup s = .next (
      if 7 < n.toNat then s.refusal p 0x43 tag .range []
      else s.done p 0x43 tag
        [n, byteOf g.quota, byteOf g.reserve, byteOf g.reserveClass, byteOf g.onset,
          byteOf g.abatement, byteOf g.busy, if g.congested = true then 1 else 0,
          byteOf (members .outOfService), byteOf (members .publicTrunk), byteOf (members .tie),
          (lowest.map byteOf).getD 0xFF] fun t => t) := by
  intro members g
  refine exec_of_answer execLookGroup (fun _ => rfl) (fun _ => rfl) ht rfl rfl rfl rfl ?_
  refine State.replied_ite decide_eq_true_iff rfl fun _ => State.replied_look ?_
  have hcount : ∀ mode, (s.taken p).memberCount n.toNat mode = members mode := fun mode =>
    Eq.trans (by cases p <;> rfl) (s.memberCount_eq n.toNat mode)
  have hlowest : (s.taken p).lowestHolding n.toNat = lowest :=
    Eq.trans (by cases p <;> rfl) (State.lowestHolding_eq h)
  show groupFields n.toNat ((s.taken p).group n.toNat)
    ++ [byteOf ((s.taken p).memberCount n.toNat .outOfService),
        byteOf ((s.taken p).memberCount n.toNat .publicTrunk),
        byteOf ((s.taken p).memberCount n.toNat .tie),
        optionalByte ((s.taken p).lowestHolding n.toNat)] = _
  rw [hcount, hcount, hcount, hlowest, State.taken_group, optionalByte_eq, groupFields, byteOf_toNat]
  rfl

/-- Settles O34: one lemma for each of the six looks. -/
theorem networkAndTrunkLooksReportAndChangeNothing :
    Obligations.NetworkAndTrunkLooksReportAndChangeNothing := by
  unfold Obligations.NetworkAndTrunkLooksReportAndChangeNothing
  exact fun s p tag n marker hi lo => ⟨lookConnection_of_takes, lookNextConnection_of_takes,
    lookEndpoint_of_takes, lookNetwork_of_takes, fun _ h => lookTrunk_of_takes h,
    fun _ h => lookGroup_of_takes h⟩

end Sys2Proof.Machine
end

section
/-! SUPPORT. The trips of a frame start (R102, R162, R163, R167): what the promotion of a list of records,
one after another, makes of the watches, of the records and of the events. For O45. -/

namespace Sys2Proof.Machine

/-! ### One watch along a list of promoted records -/

/-- The first record of a list on which a watch trips, and the end that it watches (R162). -/
def State.tripIn (s : State) (v : Watch) (cs : List Connection) : Option (Connection × TraceRole) :=
  match v with
  | .armed identity _ => cs.findSome? fun c => (s.watchedAt identity c).map fun role => (c, role)
  | .idle | .tripped .. => none

/-- A watch once it has examined a list of records (R162). -/
def State.watchPast (s : State) (v : Watch) (cs : List Connection) : Watch :=
  match v with
  | .armed identity request =>
    match s.tripIn v cs with
    | some (c, role) => .tripped identity request request (s.tracedBy c role s.frameCounter)
    | none => v
  | .idle | .tripped .. => v

/-- A watch trips on the record of an id, among a list of records, and holds it (R163). -/
def State.holdsIn (s : State) (v : Watch) (cs : List Connection) (id : Nat) : Bool :=
  match v with
  | .armed _ true => (s.tripIn v cs).any fun t => t.1.id == id
  | .armed _ false | .idle | .tripped .. => false

/-- The report of a watch that trips on a record, among a list of records (R167). -/
def State.tripEvent (s : State) (v : Watch) (n : Nat) (cs : List Connection) (c : Connection) :
    Option Event :=
  match v with
  | .armed identity request =>
    match s.tripIn v cs with
    | some (d, role) =>
      if d.id = c.id then
        some (.traceTripped n identity request (s.tracedBy d role s.frameCounter))
      else none
    | none => none
  | .idle | .tripped .. => none

section watch

variable (s : State) (v : Watch)

@[simp] theorem State.tripIn_nil : s.tripIn v [] = none := by cases v <;> rfl

@[simp] theorem State.watchPast_nil : s.watchPast v [] = v := by cases v <;> rfl

@[simp] theorem State.holdsIn_nil (id : Nat) : s.holdsIn v [] id = false := by
  cases v with
  | armed identity request => cases request <;> rfl
  | idle | tripped => rfl

/-- A watch that trips on the first record stands TRIPPED; one that does not goes on with the others. -/
theorem State.tripIn_cons (c : Connection) (cs : List Connection) :
    s.tripIn v (c :: cs) = (s.tripIn v [c]).or (s.tripIn v cs) := by
  cases v with
  | armed identity request =>
    simp only [State.tripIn, List.findSome?_cons, List.findSome?_nil]
    cases s.watchedAt identity c <;> rfl
  | idle | tripped => rfl

variable {s v}

theorem State.tripIn_mem {cs : List Connection} {c : Connection} {role : TraceRole}
    (h : s.tripIn v cs = some (c, role)) : c ∈ cs := by
  cases v with
  | armed identity request =>
    obtain ⟨d, hd, hmap⟩ := List.exists_of_findSome?_eq_some h
    obtain ⟨_, -, heq⟩ := Option.map_eq_some_iff.1 hmap
    obtain ⟨rfl, -⟩ := Prod.mk.inj heq
    exact hd
  | idle | tripped => cases h

/-- A watch does not trip on a record of another id than those it examines. -/
theorem State.tripEvent_eq_none {n : Nat} {cs : List Connection} {c : Connection}
    (h : ∀ d ∈ cs, d.id ≠ c.id) : s.tripEvent v n cs c = none := by
  cases v with
  | armed identity request =>
    simp only [State.tripEvent]
    cases htrip : s.tripIn (.armed identity request) cs with
    | none => rfl
    | some t => exact if_neg (h t.1 (State.tripIn_mem htrip))
  | idle | tripped => rfl

/-- A watch holds only a record that it examines. -/
theorem State.exists_of_holdsIn {cs : List Connection} {id : Nat} (h : s.holdsIn v cs id = true) :
    ∃ c ∈ cs, c.id = id := by
  cases v with
  | armed identity request =>
    cases request with
    | true =>
      obtain ⟨⟨c, role⟩, htrip, hid⟩ := (Option.any_eq_true _ _).1 h
      exact ⟨c, State.tripIn_mem htrip, beq_iff_eq.1 hid⟩
    | false => cases h
  | idle | tripped => cases h

/-- Among the records after it, a watch that has examined the first record does what it would have
done, unless it tripped. -/
theorem State.watchPast_one_cases (s : State) (v : Watch) (c : Connection) :
    (s.tripIn v [c] = none ∧ s.watchPast v [c] = v)
      ∨ ∃ identity request role trace, v = .armed identity request
          ∧ s.tripIn v [c] = some (c, role)
          ∧ s.watchPast v [c] = .tripped identity request request trace := by
  cases v with
  | armed identity request =>
    cases htrip : s.tripIn (.armed identity request) [c] with
    | none => exact .inl ⟨rfl, by simp only [State.watchPast, htrip]⟩
    | some t =>
      obtain ⟨d, role⟩ := t
      obtain rfl : d = c := List.mem_singleton.1 (State.tripIn_mem htrip)
      exact .inr ⟨identity, request, role, _, rfl, rfl, by simp only [State.watchPast, htrip]; rfl⟩
  | idle | tripped => exact .inl ⟨rfl, rfl⟩

theorem State.watchPast_cons (c : Connection) (cs : List Connection) :
    s.watchPast v (c :: cs) = s.watchPast (s.watchPast v [c]) cs := by
  rcases s.watchPast_one_cases v c with ⟨hnone, hstill⟩ | ⟨identity, request, role, trace, rfl, hsome, htripped⟩
  · rw [hstill]
    cases v with
    | armed identity request => simp only [State.watchPast, s.tripIn_cons _ c cs, hnone, Option.none_or]
    | idle | tripped => rfl
  · rw [htripped]
    simp only [State.watchPast, s.tripIn_cons _ c cs, hsome, Option.some_or] at htripped ⊢
    exact htripped

theorem State.holdsIn_cons (c : Connection) (cs : List Connection) (id : Nat) :
    s.holdsIn v (c :: cs) id = (s.holdsIn v [c] id || s.holdsIn (s.watchPast v [c]) cs id) := by
  rcases s.watchPast_one_cases v c with ⟨hnone, hstill⟩ | ⟨identity, request, role, trace, rfl, hsome, htripped⟩
  · rw [hstill]
    cases v with
    | armed identity request =>
      cases request with
      | true => simp only [State.holdsIn, s.tripIn_cons _ c cs, hnone, Option.none_or, Option.any_none,
          Bool.false_or]
      | false => rfl
    | idle | tripped => rfl
  · rw [htripped]
    cases request with
    | true => simp only [State.holdsIn, s.tripIn_cons _ c cs, hsome, Option.some_or, Bool.or_false]
    | false => rfl

/-- The report on the first of a list of records, none of which has its id. -/
theorem State.tripEvent_cons_same {n : Nat} {c : Connection} {cs : List Connection}
    (h : ∀ d ∈ cs, d.id ≠ c.id) : s.tripEvent v n (c :: cs) c = s.tripEvent v n [c] c := by
  cases v with
  | armed identity request =>
    have hrest := State.tripEvent_eq_none (s := s) (v := .armed identity request) (n := n) h
    simp only [State.tripEvent, s.tripIn_cons _ c cs] at hrest ⊢
    cases s.tripIn (.armed identity request) [c] with
    | none => simpa only [Option.none_or] using hrest
    | some t => rfl
  | idle | tripped => rfl

/-- The report on a later record. -/
theorem State.tripEvent_cons_ne {n : Nat} {c d : Connection} {cs : List Connection}
    (h : c.id ≠ d.id) :
    s.tripEvent v n (c :: cs) d = s.tripEvent (s.watchPast v [c]) n cs d := by
  rcases s.watchPast_one_cases v c with ⟨hnone, hstill⟩ | ⟨identity, request, role, trace, rfl, hsome, htripped⟩
  · rw [hstill]
    cases v with
    | armed identity request => simp only [State.tripEvent, s.tripIn_cons _ c cs, hnone, Option.none_or]
    | idle | tripped => rfl
  · rw [htripped]
    simp only [State.tripEvent, s.tripIn_cons _ c cs, hsome, Option.some_or]
    exact if_neg h

end watch

/-! ### The model's examination of one record (R162) -/

/-- The end of a record that the model finds watched, in any state with the same stations. -/
theorem OnlyFrames.watchedEnd {s t : State} (h : OnlyFrames s t) (identity : Nat) (c : Connection) :
    t.watchedEnd identity c = s.watchedAt identity c := by
  have hend : ∀ e, (t.identityAt e == some identity) = true
      ↔ e < 96 ∧ (s.station e).state = .admitted identity := fun e => by
    have hstation : t.station e = s.station e := by
      rw [h]
      rfl
    rw [State.identityAt, hstation, beq_iff_eq]
    by_cases he : e < 96
    · rw [if_pos ((isStation_iff e).2 he)]
      cases (s.station e).state <;> simp [StationState.admittedIdentity, he]
    · rw [if_neg (mt (isStation_iff e).1 he)]
      simp [he]
  unfold State.watchedEnd State.watchedAt
  exact if_congr (hend _) rfl (if_congr (hend _) rfl rfl)

theorem OnlyFrames.traceOf {s t : State} (h : OnlyFrames s t) (role : TraceRole) (c : Connection) :
    t.traceOf role c = s.tracedBy c role s.frameCounter := by
  have hidentity : ∀ e, t.identityAt e
      = if e < 96 then (s.station e).state.admittedIdentity else none := fun e => by
    rw [h]
    exact if_congr (isStation_iff e) rfl rfl
  have hframe : t.frameCounter = s.frameCounter := by rw [h]
  unfold State.traceOf State.tracedBy
  rw [hframe]
  cases role <;> simp only [hidentity] <;> rfl

/-- The record of an id is marked trace-held when the flag is set (R163). -/
def Connection.heldWhen (id : Nat) (held : Bool) (c : Connection) : Connection :=
  { c with traceHeld := c.traceHeld || (held && c.id == id) }

/-- What examinations of record c by the watches ns leave, from w to w' (R162, R163, R167). -/
structure Examined (s : State) (c : Connection) (ns : List Nat) (w w' : Work) : Prop where
  watch : ∀ m, w'.state.watch m
    = if m ∈ ns then s.watchPast (w.state.watch m) [c] else w.state.watch m
  connections : w'.state.connections = w.state.connections.map
    (Connection.heldWhen c.id (ns.any fun n => s.holdsIn (w.state.watch n) [c] c.id))
  legs : w'.state.legs = w.state.legs
  events : w'.events = w.events ++ ns.filterMap fun n => s.tripEvent (w.state.watch n) n [c] c

theorem Connection.heldWhen_false (id : Nat) (c : Connection) : c.heldWhen id false = c := by
  simp [Connection.heldWhen]

theorem Connection.heldWhen_heldWhen (id : Nat) (a b : Bool) (c : Connection) :
    (c.heldWhen id a).heldWhen id b = c.heldWhen id (a || b) := by
  simp only [Connection.heldWhen, Bool.and_or_distrib_right, Bool.or_assoc]

theorem map_heldWhen_false (id : Nat) (cs : List Connection) :
    cs.map (Connection.heldWhen id false) = cs :=
  (List.map_congr_left fun c _ => c.heldWhen_false id).trans cs.map_id

theorem State.mapConnection_traceHeld (s : State) (id : Nat) :
    (s.mapConnection id fun d => { d with traceHeld := true }).connections
      = s.connections.map (Connection.heldWhen id true) := by
  refine List.map_congr_left fun c _ => ?_
  unfold Connection.heldWhen
  by_cases h : c.id = id
  · simp [h]
  · simp [beq_false_of_ne h]

/-- The watches of a state are those before a leg started (R135). -/
theorem State.startLeg_watches (s : State) (c : Connection) : (s.startLeg c).watches = s.watches := by
  unfold State.startLeg
  split
  · rfl
  · split <;> rfl

theorem any_congr_of_mem {α : Type} {l : List α} {p q : α → Bool} (h : ∀ a ∈ l, p a = q a) :
    l.any p = l.any q :=
  Bool.eq_iff_iff.2 <| by
    simp only [List.any_eq_true]
    exact exists_congr fun a => and_congr_right fun ha => by rw [h a ha]

theorem any_or_any {α : Type} (l : List α) (p q : α → Bool) :
    (l.any p || l.any q) = l.any fun a => p a || q a :=
  Bool.eq_iff_iff.2 <| by
    simp only [Bool.or_eq_true, List.any_eq_true, and_or_left, exists_or]

section examine

variable {s : State} {w : Work}

/-- One watch examines the record. -/
theorem Work.examine_examined (h : OnlyFrames s w.state) (c : Connection) {n : Nat} (hn : n < 4) :
    Examined s c [n] w (w.examine c n) := by
  have hstill : ∀ v, w.state.watch n = v → s.tripIn v [c] = none → Examined s c [n] w w :=
    fun v hv hnone => by
      have hpast : s.watchPast v [c] = v := by
        rcases s.watchPast_one_cases v c with ⟨-, h⟩ | ⟨_, _, _, _, -, h, -⟩
        · exact h
        · exact absurd (hnone.symm.trans h) (by simp)
      have hholds : s.holdsIn v [c] c.id = false := by
        cases v with
        | armed identity request => cases request <;> simp [State.holdsIn, hnone]
        | idle | tripped => rfl
      have hevent : s.tripEvent v n [c] c = none := by
        cases v with
        | armed identity request => simp [State.tripEvent, hnone]
        | idle | tripped => rfl
      refine ⟨fun m => ?_, ?_, rfl, ?_⟩
      · by_cases hm : m = n
        · rw [if_pos (List.mem_singleton.2 hm), hm, hv, hpast]
        · rw [if_neg (mt List.mem_singleton.1 hm)]
      · simp only [List.any_cons, List.any_nil, hv, hholds, Bool.or_false, map_heldWhen_false]
      · simp [hv, hevent]
  unfold Work.examine
  cases hv : w.state.watch n with
  | idle | tripped => exact hstill _ hv rfl
  | armed identity request =>
    dsimp only
    rw [h.watchedEnd]
    cases hend : s.watchedAt identity c with
    | none => exact hstill _ hv (by simp [State.tripIn, hend])
    | some role =>
      have htrip : s.tripIn (.armed identity request) [c] = some (c, role) := by
        simp [State.tripIn, hend]
      have hpast : s.watchPast (.armed identity request) [c]
          = .tripped identity request request (w.state.traceOf role c) := by
        rw [h.traceOf]
        simp only [State.watchPast, htrip]
      have hevent : s.tripEvent (.armed identity request) n [c] c
          = some (.traceTripped n identity request (w.state.traceOf role c)) := by
        rw [h.traceOf]
        simp only [State.tripEvent, htrip, if_true]
      have hholds : s.holdsIn (.armed identity request) [c] c.id = request := by
        cases request <;> simp [State.holdsIn, htrip]
      have hwatch : ∀ m, (w.state.setWatch n (s.watchPast (.armed identity request) [c])).watch m
          = if m ∈ [n] then s.watchPast (w.state.watch m) [c] else w.state.watch m := fun m => by
        by_cases hm : m = n
        · rw [if_pos (List.mem_singleton.2 hm), hm, State.watch_setWatch_same _ hn, hv]
        · rw [if_neg (mt List.mem_singleton.1 hm), State.watch_setWatch_ne _ hm]
      dsimp only
      rw [← hpast]
      refine ⟨fun m => ?_, ?_, ?_, ?_⟩
      · cases request <;> exact hwatch m
      · simp only [List.any_cons, List.any_nil, Bool.or_false, hv, hholds]
        cases request with
        | true => exact State.mapConnection_traceHeld _ c.id
        | false => exact (map_heldWhen_false _ _).symm
      · cases request <;> rfl
      · simp only [List.filterMap_cons, List.filterMap_nil, hv, hevent]
        cases request <;> rfl

/-- The watches of a list examine the record, one after another. -/
theorem Work.foldl_examine_examined (c : Connection) {ns : List Nat} (hns : ns.Nodup)
    (hlt : ∀ n ∈ ns, n < 4) {w : Work} (h : OnlyFrames s w.state) :
    Examined s c ns w (ns.foldl (fun w n => w.examine c n) w) := by
  induction ns generalizing w with
  | nil => exact ⟨fun _ => rfl, (map_heldWhen_false _ _).symm, rfl, (List.append_nil _).symm⟩
  | cons n ns ih =>
    obtain ⟨hnotMem, hnodup⟩ := List.nodup_cons.1 hns
    have hone := Work.examine_examined h c (hlt n (by simp))
    have hrest := ih hnodup (fun m hm => hlt m (by simp [hm])) (h.trans (w.examine_onlyFrames c n))
    have hbefore : ∀ m ∈ ns, (w.examine c n).state.watch m = w.state.watch m := fun m hm => by
      rw [hone.watch, if_neg]
      exact mt List.mem_singleton.1 fun heq => hnotMem (heq ▸ hm)
    refine ⟨fun m => ?_, ?_, hrest.legs.trans hone.legs, ?_⟩
    · rw [List.foldl_cons, hrest.watch]
      by_cases hm : m ∈ ns
      · rw [if_pos hm, hbefore m hm, if_pos (by simp [hm])]
      · rw [if_neg hm, hone.watch]
        simp only [List.mem_cons, List.not_mem_nil, hm, or_false]
    · have hany : (ns.any fun m => s.holdsIn ((w.examine c n).state.watch m) [c] c.id)
          = ns.any fun m => s.holdsIn (w.state.watch m) [c] c.id :=
        any_congr_of_mem fun m hm => by rw [hbefore m hm]
      rw [List.foldl_cons, hrest.connections, hany, hone.connections, List.map_map]
      refine List.map_congr_left fun d _ => ?_
      simp only [Function.comp_apply, Connection.heldWhen_heldWhen, List.any_cons, List.any_nil,
        Bool.or_false]
    · have hevents : (ns.filterMap fun m => s.tripEvent ((w.examine c n).state.watch m) m [c] c)
          = ns.filterMap fun m => s.tripEvent (w.state.watch m) m [c] c :=
        List.filterMap_congr fun m hm => by rw [hbefore m hm]
      rw [List.foldl_cons, hrest.events, hevents, hone.events, List.append_assoc,
        ← List.filterMap_append]
      rfl

end examine

/-! ### Promotions, one after another (R102) -/

/-- A record as promotions of the records cs leave it, by the watches as they stood before. -/
def State.promotedPast (s : State) (watch : Nat → Watch) (cs : List Connection) (d : Connection) :
    Connection :=
  { d with
    live := d.live || cs.any fun c => c.id == d.id
    traceHeld := d.traceHeld || (List.range 4).any fun n => s.holdsIn (watch n) cs d.id }

/-- What the promotions of the records cs leave, from w to w' (R102, R135, R162, R163, R167). -/
structure Promoted (s : State) (cs : List Connection) (w w' : Work) : Prop where
  watch : ∀ n, n < 4 → w'.state.watch n = s.watchPast (w.state.watch n) cs
  connections : w'.state.connections = w.state.connections.map (s.promotedPast w.state.watch cs)
  leg : ∀ n, w'.state.leg n = if ∃ c ∈ cs, (c.privacy.map (·.leg)) = some n then
    (w.state.leg n).map s.legStarted else w.state.leg n
  events : w'.events = w.events ++ cs.flatMap fun c =>
    (List.range 4).filterMap fun n => s.tripEvent (w.state.watch n) n cs c

theorem State.holdsIn_one_eq {s : State} {v : Watch} {c : Connection} {id : Nat} (h : c.id ≠ id) :
    s.holdsIn v [c] id = false := by
  refine Bool.eq_false_iff.2 fun hholds => ?_
  obtain ⟨d, hd, hid⟩ := State.exists_of_holdsIn hholds
  exact h (List.mem_singleton.1 hd ▸ hid)

theorem LegState.started_started (l : LegState) (a b : Word16) :
    (l.started a).started b = l.started a := by cases l <;> rfl

theorem State.legStarted_legStarted (s : State) (leg : Leg) :
    s.legStarted (s.legStarted leg) = s.legStarted leg := by
  simp only [State.legStarted, LegState.started_started]

theorem OnlyFrames.legStarted {s t : State} (h : OnlyFrames s t) (leg : Leg) :
    t.legStarted leg = s.legStarted leg := by
  rw [h]
  rfl

/-- One record is promoted (R102). -/
theorem Work.promote_promoted {s : State} {w : Work} (h : OnlyFrames s w.state) (c : Connection) :
    Promoted s [c] w (w.promote c) := by
  have hstarted : OnlyFrames s ((w.update (·.recordStarted c)).state) :=
    h.trans (OnlyFrames.trans (t := w.state.mapConnection c.id fun d => { d with live := true }) rfl
      (State.startLeg_onlyFrames _ c))
  have hwatch : ∀ n, (w.state.recordStarted c).watch n = w.state.watch n := fun n => by
    unfold State.watch State.recordStarted
    rw [State.startLeg_watches, State.mapConnection_watches]
  have hexamined : Examined s c (List.range 4) (w.update (·.recordStarted c)) (w.promote c) :=
    Work.foldl_examine_examined c List.nodup_range (fun _ => List.mem_range.1) hstarted
  obtain ⟨hwatches, hconnections, hlegs, hevents⟩ := hexamined
  simp only [Work.update_state, hwatch] at hwatches hconnections hevents
  refine ⟨fun n hn => ?_, ?_, fun n => ?_, ?_⟩
  · rw [hwatches, if_pos (List.mem_range.2 hn)]
  · rw [hconnections, State.recordStarted_connections, List.map_map]
    refine List.map_congr_left fun d _ => ?_
    unfold State.promotedPast
    simp only [Function.comp_apply, Connection.heldWhen, Connection.promotedBy, List.any_cons,
      List.any_nil, Bool.or_false]
    by_cases hid : d.id = c.id
    · simp [hid]
    · simp [beq_false_of_ne hid, beq_false_of_ne (Ne.symm hid), State.holdsIn_one_eq (Ne.symm hid)]
  · have hleg : (w.promote c).state.leg n = (w.state.recordStarted c).leg n := by
      unfold State.leg
      rw [hlegs]
      rfl
    rw [hleg, State.recordStarted_leg]
    simp only [List.mem_singleton, exists_eq_left]
    refine if_congr Iff.rfl (Option.map_congr fun leg _ => h.legStarted leg) rfl
  · rw [hevents]
    simp

/-- The promotions of a list of records of distinct ids. -/
theorem Work.foldl_promote_promoted {s : State} {cs : List Connection}
    (hids : cs.Pairwise fun c d => c.id ≠ d.id) {w : Work} (h : OnlyFrames s w.state) :
    Promoted s cs w (cs.foldl Work.promote w) := by
  induction cs generalizing w with
  | nil =>
    refine ⟨fun n _ => (s.watchPast_nil _).symm, ?_, fun n => by simp, by simp⟩
    refine (List.map_congr_left fun d _ => ?_).trans (List.map_id _) |>.symm
    have hnone : ((List.range 4).any fun n => s.holdsIn (w.state.watch n) [] d.id) = false :=
      List.any_eq_false.2 fun n _ => by simp
    simp only [State.promotedPast, hnone, List.any_nil, Bool.or_false]
    rfl
  | cons c cs ih =>
    obtain ⟨hfirst, hothers⟩ := List.pairwise_cons.1 hids
    have hone := Work.promote_promoted h c
    have hrest := ih hothers (h.trans (w.promote_onlyFrames c))
    refine ⟨fun n hn => ?_, ?_, fun n => ?_, ?_⟩
    · rw [List.foldl_cons, hrest.watch n hn, hone.watch n hn, ← State.watchPast_cons]
    · rw [List.foldl_cons, hrest.connections, hone.connections, List.map_map]
      refine List.map_congr_left fun d _ => ?_
      have hheld : ((List.range 4).any fun n => s.holdsIn (w.state.watch n) (c :: cs) d.id)
          = (((List.range 4).any fun n => s.holdsIn (w.state.watch n) [c] d.id)
            || (List.range 4).any fun n => s.holdsIn ((w.promote c).state.watch n) cs d.id) := by
        rw [any_or_any]
        refine any_congr_of_mem fun n hn => ?_
        rw [State.holdsIn_cons, hone.watch n (List.mem_range.1 hn)]
      simp only [Function.comp_apply, State.promotedPast, hheld, List.any_cons, List.any_nil,
        Bool.or_false, Bool.or_assoc]
    · rw [List.foldl_cons, hrest.leg, hone.leg]
      have hfor : ∀ (P : Connection → Prop), (∃ d ∈ [c], P d) ↔ P c := fun P => by simp
      have hcons : ∀ (P : Connection → Prop), (∃ d ∈ c :: cs, P d) ↔ P c ∨ ∃ d ∈ cs, P d :=
        fun P => by simp
      simp only [hfor, hcons]
      by_cases hmine : (c.privacy.map (·.leg)) = some n
      · simp only [hmine, if_true, true_or, Option.map_map]
        by_cases hsome : ∃ d ∈ cs, (d.privacy.map (·.leg)) = some n
        · rw [if_pos hsome]
          exact Option.map_congr fun leg _ => s.legStarted_legStarted leg
        · rw [if_neg hsome]
      · simp only [hmine, if_false, false_or]
    · rw [List.foldl_cons, hrest.events, hone.events, List.append_assoc, List.flatMap_cons,
        List.flatMap_cons, List.flatMap_nil, List.append_nil]
      have hsame : ((List.range 4).filterMap fun n => s.tripEvent (w.state.watch n) n (c :: cs) c)
          = (List.range 4).filterMap fun n => s.tripEvent (w.state.watch n) n [c] c :=
        List.filterMap_congr fun n _ => State.tripEvent_cons_same fun d hd => (hfirst d hd).symm
      have hlater : (cs.flatMap fun d => (List.range 4).filterMap fun n =>
            s.tripEvent ((w.promote c).state.watch n) n cs d)
          = cs.flatMap fun d => (List.range 4).filterMap fun n =>
            s.tripEvent (w.state.watch n) n (c :: cs) d :=
        List.flatMap_congr fun d hd => List.filterMap_congr fun n hn => by
          rw [State.tripEvent_cons_ne (hfirst d hd), hone.watch n (List.mem_range.1 hn)]
      rw [hsame, hlater]

end Sys2Proof.Machine
end

section
/-! SUPPORT. The frame start: what the legs do as the statements write it (R136 to R141), and what every
destination is handed (R103, R104). O45. -/

namespace Sys2Proof.Machine

/-! ### A leg's frame as the statements write it (R136 to R141) -/

theorem nextPosition_zero : nextPosition 0 = 1 := rfl

theorem nextPeriod_zero (q : Byte) : nextPeriod q 0 = q := if_neg (by decide)

theorem keystreamByte_eq (w : Word16) : BitVec.ofNat 8 (w.toNat / 256) = keystreamByte w := by
  rw [← keystreamByte_toNat, BitVec.ofNat_toNat, BitVec.setWidth_eq]

/-- R137: the count of matches of a hunt entry, after it has seen a sample. -/
theorem HuntEntry.seen_eq (e : HuntEntry) (y : Byte) :
    e.seen y = ⟨some y, if e.sample = some (y - 1) then e.matchCount + 1 else 0⟩ := by
  unfold HuntEntry.seen
  cases e.sample with
  | none => rfl
  | some x =>
    refine congrArg (HuntEntry.mk (some y)) (if_congr ?_ rfl rfl)
    rw [Option.some.injEq]
    exact ⟨fun h => by rw [h, BitVec.add_sub_cancel], fun h => by rw [h, BitVec.sub_add_cancel]⟩

section leg

variable (c : Connection) (part : PrivacyPart) (key : KeyContext) (mute y : Byte)

theorem legRule_running (q j : Byte) (w : Word16) :
    legRule c part key mute (.running q j w) y
      = ((scrambleFrame key.use q j w y).state, (scrambleFrame key.use q j w y).sample, []) := by
  simp only [legRule, keystreamByte_eq]
  rfl

theorem legRule_hunt (h : Byte) (table : List HuntEntry) :
    legRule c part key mute (.hunt h table) y
      = ((huntFrame key mute h table y).state, (huntFrame key mute h table y).sample,
          legEvents c part (huntFrame key mute h table y)) := by
  simp only [legRule, huntFrame, HuntEntry.seen_eq, nextPosition_zero, nextPeriod_zero]
  generalize (if (table.getD h.toNat ⟨none, 0⟩).sample = some (y - 1) then
    (table.getD h.toNat ⟨none, 0⟩).matchCount + 1 else 0) = count
  by_cases hlocked : count = key.confirmCount
  · simp only [hlocked, if_true]
    rfl
  · simp only [hlocked, if_false]
    rfl

theorem legRule_synced (q j : Byte) (w : Word16) (misses : Nat) (last : Byte) :
    legRule c part key mute (.synced q j w misses last) y
      = ((legFrame key mute (.synced q j w misses last) y).state,
          (legFrame key mute (.synced q j w misses last) y).sample,
          legEvents c part (legFrame key mute (.synced q j w misses last) y)) := by
  by_cases hj : j = 0
  · subst hj
    rw [legFrame_synced_zero]
    by_cases hy : y = q
    · simp only [legRule, syncFrame, hy, ne_eq, not_true_eq_false, false_and, if_true, if_false,
        nextPosition_zero, nextPeriod_zero]
      rfl
    · by_cases hlost : misses + 1 = key.lossLimit
      · simp only [legRule, syncFrame, hy, hlost, ne_eq, not_true_eq_false, not_false_eq_true, if_true,
          if_false, and_self]
        rfl
      · simp only [legRule, syncFrame, hy, hlost, ne_eq, not_true_eq_false, if_false, and_false,
          nextPosition_zero, nextPeriod_zero]
        rfl
  · rw [legFrame_synced_ne _ _ hj]
    simp only [legRule, hj, ne_eq, not_false_eq_true, if_true, keystreamByte_eq]
    rfl

/-- The statements' leg rule is the model's (R136 to R141, R144). -/
theorem legRule_eq (l : LegState) :
    legRule c part key mute l y
      = ((legFrame key mute l y).state, (legFrame key mute l y).sample,
          legEvents c part (legFrame key mute l y)) := by
  cases l with
  | waitingScramble | waitingDescramble => rfl
  | running q j w => exact legRule_running c part key mute y q j w
  | hunt h table => exact legRule_hunt c part key mute y h table
  | synced q j w misses last => exact legRule_synced c part key mute y q j w misses last

end leg

theorem startedLeg_live (key : KeyContext) (l : Leg) : startedLeg key true l = l.state := rfl

/-! ### What one record carries (R103) -/

/-- What the leg of a record does in a frame, none for a record without one. -/
def State.legCarries (u : State) (c : Connection) : Option (PrivacyPart × Leg × LegFrame) :=
  c.privacy.bind fun part => (u.leg part.leg).map fun leg =>
    (part, leg, legFrame (u.key leg.key) u.muteCode leg.state (u.receivedSample c.source))

/-- The sample that a record hands to its destination. -/
def State.sampleCarried (u : State) (c : Connection) : Byte :=
  if c.privacy = none then u.receivedSample c.source
  else ((u.legCarries c).map (·.2.2.sample)).getD u.muteCode

/-- The events that the leg of a record reports in a frame (R144). -/
def State.eventsCarried (u : State) (c : Connection) : List Event :=
  ((u.legCarries c).map fun f => legEvents c f.1 f.2.2).getD []

/-- The leg n after the frame of a record: its next state if it is the record's leg. -/
def State.legPast (u : State) (c : Connection) (n : Nat) : Option Leg :=
  match u.legCarries c with
  | some (part, leg, f) => if part.leg = n then some { leg with state := f.state } else u.leg n
  | none => u.leg n

theorem State.outgoingSample_setOutgoing (s : State) {e : Nat} (he : e < 160) (v : Byte) (d : Nat) :
    (s.setOutgoing e v).outgoingSample d = if d = e then v else s.outgoingSample d := by
  unfold State.outgoingSample State.setOutgoing
  by_cases h : d = e
  · subst h
    simp [he]
  · simp [Vector.getElem?_setIfInBounds_ne (Ne.symm h), h]

theorem State.leg_lt {s : State} {n : Nat} {leg : Leg} (h : s.leg n = some leg) : n < 64 := by
  by_contra hge
  simp [State.leg, hge] at h

/-- What carrying the sample of one record leaves, from w to w' (R103, R136 to R141, R144). -/
structure CarriedOne (c : Connection) (w w' : Work) : Prop where
  outgoing : ∀ e, w'.state.outgoingSample e
    = if e = c.destination then w.state.sampleCarried c else w.state.outgoingSample e
  leg : ∀ n, w'.state.leg n = w.state.legPast c n
  events : w'.events = w.events ++ w.state.eventsCarried c

theorem Work.carry_carriedOne (w : Work) {c : Connection} (hc : c.destination < 160) :
    CarriedOne c w (w.carry c) := by
  unfold Work.carry
  cases hprivacy : c.privacy with
  | none =>
    have hnone : w.state.legCarries c = none := by simp [State.legCarries, hprivacy]
    refine ⟨fun e => ?_, fun n => ?_, ?_⟩
    · simp only [State.sampleCarried, hprivacy, if_true]
      exact State.outgoingSample_setOutgoing _ hc _ e
    · simp only [State.legPast, hnone]
      rfl
    · simp only [State.eventsCarried, hnone]
      exact (List.append_nil _).symm
  | some part =>
    dsimp only
    cases hleg : w.state.leg part.leg with
    | none =>
      have hnone : w.state.legCarries c = none := by simp [State.legCarries, hprivacy, hleg]
      refine ⟨fun e => ?_, fun n => ?_, ?_⟩
      · simp only [State.sampleCarried, hprivacy, hnone, reduceCtorEq, if_false, Option.map_none,
          Option.getD_none]
        exact State.outgoingSample_setOutgoing _ hc _ e
      · simp only [State.legPast, hnone]
        rfl
      · simp only [State.eventsCarried, hnone]
        exact (List.append_nil _).symm
    | some leg =>
      have hsome : w.state.legCarries c = some (part, leg, legFrame (w.state.key leg.key)
          w.state.muteCode leg.state (w.state.receivedSample c.source)) := by
        simp [State.legCarries, hprivacy, hleg]
      refine ⟨fun e => ?_, fun n => ?_, ?_⟩
      · rw [Work.raiseAll_state]
        simp only [State.sampleCarried, hprivacy, hsome, reduceCtorEq, if_false, Option.map_some,
          Option.getD_some]
        exact State.outgoingSample_setOutgoing _ hc _ e
      · rw [Work.raiseAll_state]
        simp only [State.legPast, hsome]
        by_cases hn : part.leg = n
        · subst hn
          rw [if_pos rfl]
          exact State.leg_setLeg_same _ (State.leg_lt hleg) _
        · rw [if_neg hn]
          exact State.leg_setLeg_ne _ (Ne.symm hn) _
      · rw [Work.raiseAll_events]
        simp only [State.eventsCarried, hsome, Option.map_some, Option.getD_some]
        rfl

/-! ### Records, one after another (R103, R105) -/

/-- Two records use different legs (R133). -/
def Connection.LegsApart (c d : Connection) : Prop :=
  ∀ part ∈ c.privacy, ∀ part' ∈ d.privacy, part.leg ≠ part'.leg

/-- What carrying the samples of the records cs leaves, from w to w'. -/
structure Carried (cs : List Connection) (w w' : Work) : Prop where
  outgoing : ∀ e, (∀ c ∈ cs, c.destination ≠ e) → w'.state.outgoingSample e = w.state.outgoingSample e
  handed : ∀ c ∈ cs, w'.state.outgoingSample c.destination = w.state.sampleCarried c
  leg : ∀ n, (∀ c ∈ cs, ∀ part ∈ c.privacy, part.leg ≠ n) → w'.state.leg n = w.state.leg n
  legs : ∀ c ∈ cs, ∀ part ∈ c.privacy, w'.state.leg part.leg = w.state.legPast c part.leg
  events : w'.events = w.events ++ cs.flatMap w.state.eventsCarried

theorem State.legCarries_privacy {u : State} {c : Connection} {part : PrivacyPart} {leg : Leg}
    {f : LegFrame} (h : u.legCarries c = some (part, leg, f)) : c.privacy = some part := by
  unfold State.legCarries at h
  cases hc : c.privacy with
  | none => simp [hc] at h
  | some part' =>
    simp only [hc, Option.bind_some, Option.map_eq_some_iff] at h
    obtain ⟨_, -, heq⟩ := h
    rw [(Prod.mk.inj heq).1]

theorem State.legPast_ne {u : State} {c : Connection} {n : Nat}
    (h : ∀ part ∈ c.privacy, part.leg ≠ n) : u.legPast c n = u.leg n := by
  unfold State.legPast
  cases hc : u.legCarries c with
  | none => rfl
  | some t => exact if_neg (h t.1 (State.legCarries_privacy hc))

/-- A record whose leg is not that of the first is carried as it would have been before. -/
theorem CarriedOne.legCarries {c d : Connection} {w : Work} (h : CarriedOne c w (w.carry c))
    (hapart : c.LegsApart d) : (w.carry c).state.legCarries d = w.state.legCarries d := by
  have hframe := w.carry_onlyFrames c
  have hkey : ∀ k, (w.carry c).state.key k = w.state.key k := fun k => by rw [hframe]; rfl
  have hmute : (w.carry c).state.muteCode = w.state.muteCode := by rw [hframe]
  have hreceived : ∀ e, (w.carry c).state.receivedSample e = w.state.receivedSample e := fun e => by
    rw [hframe]
    rfl
  unfold State.legCarries
  cases hd : d.privacy with
  | none => rfl
  | some part =>
    have hleg : (w.carry c).state.leg part.leg = w.state.leg part.leg := by
      rw [h.leg, State.legPast_ne fun part' hc => hapart part' hc part hd]
    simp only [Option.bind_some, hleg, hkey, hmute, hreceived]

theorem Work.foldl_carry_carried {cs : List Connection} (hlt : ∀ c ∈ cs, c.destination < 160)
    (hdestinations : cs.Pairwise fun c d => c.destination ≠ d.destination)
    (hlegs : cs.Pairwise Connection.LegsApart) (w : Work) : Carried cs w (cs.foldl Work.carry w) := by
  induction cs generalizing w with
  | nil =>
    exact ⟨fun _ _ => rfl, by simp, fun _ _ => rfl, by simp, (List.append_nil _).symm⟩
  | cons c cs ih =>
    obtain ⟨hfirst, hothers⟩ := List.pairwise_cons.1 hdestinations
    obtain ⟨hapart, hlegs⟩ := List.pairwise_cons.1 hlegs
    have hone := w.carry_carriedOne (hlt c (by simp))
    have hrest := ih (fun d hd => hlt d (by simp [hd])) hothers hlegs (w.carry c)
    have hcarries : ∀ d ∈ cs, (w.carry c).state.legCarries d = w.state.legCarries d :=
      fun d hd => hone.legCarries (hapart d hd)
    have hframe := w.carry_onlyFrames c
    refine ⟨fun e he => ?_, fun d hd => ?_, fun n hn => ?_, fun d hd part hpart => ?_, ?_⟩
    · rw [List.foldl_cons, hrest.outgoing e fun d hd => he d (by simp [hd]), hone.outgoing,
        if_neg (Ne.symm (he c (by simp)))]
    · rcases List.mem_cons.1 hd with rfl | hd
      · rw [List.foldl_cons, hrest.outgoing _ fun e he => Ne.symm (hfirst e he), hone.outgoing,
          if_pos rfl]
      · have hmute : (w.carry c).state.muteCode = w.state.muteCode := by rw [hframe]
        have hreceived : (w.carry c).state.receivedSample d.source
            = w.state.receivedSample d.source := by
          rw [hframe]
          rfl
        rw [List.foldl_cons, hrest.handed d hd]
        simp only [State.sampleCarried, hcarries d hd, hmute, hreceived]
    · rw [List.foldl_cons, hrest.leg n fun d hd => hn d (by simp [hd]), hone.leg,
        State.legPast_ne (hn c (by simp))]
    · rcases List.mem_cons.1 hd with rfl | hd
      · rw [List.foldl_cons, hrest.leg _ fun e he part' hpart' =>
          Ne.symm (hapart e he part hpart part' hpart'), hone.leg]
      · have hleg : (w.carry c).state.leg part.leg = w.state.leg part.leg := by
          rw [hone.leg, State.legPast_ne fun part' hc => hapart d hd part' hc part hpart]
        rw [List.foldl_cons, hrest.legs d hd part hpart]
        simp only [State.legPast, hcarries d hd, hleg]
    · have hevents : cs.flatMap (w.carry c).state.eventsCarried = cs.flatMap w.state.eventsCarried :=
        List.flatMap_congr fun d hd => by simp only [State.eventsCarried, hcarries d hd]
      rw [List.foldl_cons, hrest.events, hevents, hone.events, List.append_assoc, List.flatMap_cons]

end Sys2Proof.Machine
end

section
/-! SUPPORT. The frame start as a whole: O45 (R102 to R106, R135 to R141, R144, R162, R163, R167). -/

namespace Sys2Proof.Machine

section frame

variable {s : State}

/-- The records that a frame start promotes, by ascending id (R102). -/
def State.pendingRecords (s : State) : List Connection := s.connections.filter fun c => !c.live

/-- The work of a frame start once every PENDING record has been promoted. -/
def State.promotedWork (s : State) : Work := (Work.start s.openFrame).promoteAll

/-- The work of a frame start once every record has carried its sample. -/
def State.carriedWork (s : State) : Work := s.promotedWork.carryAll

/-- A record after a frame start (R102, R163). -/
def State.recordAfterFrame (s : State) (c : Connection) : Connection :=
  { c with live := true, traceHeld := c.traceHeld || (!c.live && s.heldAtFrame c) }

theorem State.mem_pendingRecords {c : Connection} :
    c ∈ s.pendingRecords ↔ c ∈ s.connections ∧ c.live = false := by
  simp [State.pendingRecords, List.mem_filter]

theorem State.promotedWork_onlyFrames (s : State) : OnlyFrames s.openFrame s.promotedWork.state :=
  (Work.start s.openFrame).promoteAll_onlyFrames

theorem State.carriedWork_onlyFrames (s : State) : OnlyFrames s.openFrame s.carriedWork.state :=
  s.promotedWork_onlyFrames.trans s.promotedWork.carryAll_onlyFrames

/-! ### The statements' functions and the lists of promotions -/

theorem State.heldAtFrame_eq (s : State) (c : Connection) :
    ((List.range 4).any fun n => s.openFrame.holdsIn (s.watch n) s.pendingRecords c.id)
      = s.heldAtFrame c := by
  unfold State.heldAtFrame
  refine any_congr_of_mem fun n _ => ?_
  cases s.watch n with
  | armed identity request => cases request <;> rfl
  | idle | tripped => rfl

theorem State.watchAfterFrame_eq (s : State) (v : Watch) :
    s.openFrame.watchPast v s.pendingRecords = s.watchAfterFrame (s.frameCounter + 1) v := by
  cases v <;> rfl

theorem State.tripReport_eq (s : State) :
    (s.pendingRecords.flatMap fun c => (List.range 4).filterMap fun n =>
        s.openFrame.tripEvent (s.watch n) n s.pendingRecords c)
      = s.tripReport (s.frameCounter + 1) := by
  refine List.flatMap_congr fun c _ => List.filterMap_congr fun n _ => ?_
  cases s.watch n <;> rfl

/-- Only a record that the frame start promotes can be held by it. -/
theorem TableLaw.heldAtFrame_live (ht : TableLaw s) {c : Connection} (hc : c ∈ s.connections)
    (hlive : c.live = true) : s.heldAtFrame c = false := by
  obtain ⟨hids, -, -⟩ := ht
  rw [← s.heldAtFrame_eq, List.any_eq_false]
  refine fun n _ hholds => ?_
  obtain ⟨d, hd, hid⟩ := State.exists_of_holdsIn hholds
  obtain ⟨hd, hpending⟩ := State.mem_pendingRecords.1 hd
  rw [eq_of_id_eq hids hd hc hid, hlive] at hpending
  cases hpending

/-! ### After the promotions -/

theorem TableLaw.promoted (ht : TableLaw s) :
    Promoted s.openFrame s.pendingRecords (Work.start s.openFrame) s.promotedWork :=
  Work.foldl_promote_promoted
    ((ht.1.imp fun h => Nat.ne_of_lt h).sublist List.filter_sublist) (OnlyFrames.refl _)

theorem TableLaw.promoted_connections (ht : TableLaw s) :
    s.promotedWork.state.connections = s.connections.map s.recordAfterFrame := by
  rw [ht.promoted.connections]
  refine List.map_congr_left fun c hc => ?_
  have hheld := s.heldAtFrame_eq c
  have hlive : (c.live || s.pendingRecords.any fun d => d.id == c.id) = true := by
    cases hl : c.live with
    | true => rfl
    | false =>
      exact List.any_eq_true.2 ⟨c, State.mem_pendingRecords.2 ⟨hc, hl⟩, beq_self_eq_true _⟩
  have hholds : (!c.live && s.heldAtFrame c) = s.heldAtFrame c := by
    cases hl : c.live with
    | true => exact (ht.heldAtFrame_live hc hl).symm
    | false => rfl
  simp only [State.promotedPast, State.recordAfterFrame, hlive, hholds]
  exact congrArg (fun held => { c with live := true, traceHeld := c.traceHeld || held }) hheld

theorem Work.foldl_promote_outgoing (cs : List Connection) (w : Work) :
    (cs.foldl Work.promote w).state.outgoing = w.state.outgoing := by
  induction cs generalizing w with
  | nil => rfl
  | cons c cs ih => exact (ih _).trans (w.promote_outgoing c)

/-- Before any sample is carried, every destination is handed the mute code (R104). -/
theorem State.promotedWork_outgoingSample (s : State) {e : Nat} (he : e < 160) :
    s.promotedWork.state.outgoingSample e = s.muteCode := by
  have houtgoing : s.promotedWork.state.outgoing = Vector.replicate 160 s.muteCode :=
    Work.foldl_promote_outgoing _ _
  unfold State.outgoingSample
  rw [houtgoing, Vector.getElem?_replicate, if_pos he, Option.getD_some]

/-- The leg of a record after the promotions (R135). -/
theorem PrivacyLaw.promoted_leg (h : PrivacyLaw s) (ht : TableLaw s) {c : Connection}
    (hc : c ∈ s.connections) {part : PrivacyPart} (hpart : c.privacy = some part) :
    ∃ leg, s.leg part.leg = some leg ∧ s.promotedWork.state.leg part.leg
      = some { leg with state := startedLeg (s.key leg.key) c.live leg } := by
  obtain ⟨-, -, -, ⟨leg, hleg, -⟩, -⟩ := h.1 c hc part hpart
  refine ⟨leg, hleg, ?_⟩
  have hown : (∃ d ∈ s.pendingRecords, (d.privacy.map (·.leg)) = some part.leg) ↔ c.live = false := by
    refine ⟨fun ⟨d, hd, hdLeg⟩ => ?_, fun hl =>
      ⟨c, State.mem_pendingRecords.2 ⟨hc, hl⟩, by rw [hpart]; rfl⟩⟩
    obtain ⟨hd, hpending⟩ := State.mem_pendingRecords.1 hd
    obtain ⟨part', hpart', hsame⟩ := Option.map_eq_some_iff.1 hdLeg
    by_contra hl
    exact h.leg_ne hd hc (fun heq => hl (heq ▸ hpending)) hpart' hpart hsame
  rw [ht.promoted.leg]
  show (if _ then (s.leg part.leg).map s.openFrame.legStarted else s.leg part.leg) = _
  rw [hleg]
  cases hl : c.live with
  | true =>
    rw [if_neg (mt hown.1 (by simp [hl]))]
    rfl
  | false =>
    rw [if_pos (hown.2 hl), startedLeg_eq]
    rfl

/-- What a record with a privacy part carries, as the model and as the statements say it (R136 to
R141, R144). -/
theorem PrivacyLaw.legCarries (h : PrivacyLaw s) (ht : TableLaw s) {c : Connection}
    (hc : c ∈ s.connections) {part : PrivacyPart} (hpart : c.privacy = some part) :
    ∃ (leg : Leg) (l : LegState) (f : LegFrame),
      s.legAtFrame c = some (part, leg, f.state, f.sample, legEvents c part f)
        ∧ s.promotedWork.state.legCarries (s.recordAfterFrame c)
            = some (part, { leg with state := l }, f) := by
  obtain ⟨leg, hleg, hstarted⟩ := h.promoted_leg ht hc hpart
  have hframe := s.promotedWork_onlyFrames
  have hkey : ∀ k, s.promotedWork.state.key k = s.key k := fun k => by rw [hframe]; rfl
  have hmute : s.promotedWork.state.muteCode = s.muteCode := by rw [hframe]; rfl
  have hreceived : ∀ e, s.promotedWork.state.receivedSample e = s.receivedSample e := fun e => by
    rw [hframe]
    rfl
  refine ⟨leg, startedLeg (s.key leg.key) c.live leg, legFrame (s.key leg.key) s.muteCode
    (startedLeg (s.key leg.key) c.live leg) (s.receivedSample c.source), ?_, ?_⟩
  · simp only [State.legAtFrame, hpart, Option.bind_some, hleg, Option.map_some, legRule_eq]
  · have hprivacy : (s.recordAfterFrame c).privacy = some part := hpart
    simp only [State.legCarries, hprivacy, Option.bind_some, hstarted, Option.map_some, hkey, hmute,
      hreceived]
    rfl

/-! ### After the samples have been carried -/

theorem TableLaw.carried (ht : TableLaw s) (h : PrivacyLaw s) :
    Carried (s.connections.map s.recordAfterFrame) s.promotedWork s.carriedWork := by
  have hlive : (s.promotedWork.state.connections.filter fun c => c.live)
      = s.connections.map s.recordAfterFrame := by
    rw [ht.promoted_connections, List.filter_eq_self.2]
    intro c hc
    obtain ⟨d, -, rfl⟩ := List.mem_map.1 hc
    rfl
  obtain ⟨-, hdestinations, hrecords⟩ := ht
  obtain ⟨-, hapart, -⟩ := h
  unfold State.carriedWork Work.carryAll
  rw [hlive]
  have hdestinations' : (s.connections.map s.recordAfterFrame).Pairwise fun c d =>
      c.destination ≠ d.destination := List.pairwise_map.2 hdestinations
  have hapart' : (s.connections.map s.recordAfterFrame).Pairwise Connection.LegsApart :=
    List.pairwise_map.2 hapart
  refine Work.foldl_carry_carried (fun c hc => ?_) hdestinations' hapart' _
  obtain ⟨d, hd, rfl⟩ := List.mem_map.1 hc
  exact (hrecords d hd).2.2.1

theorem State.carriedWork_connections (s : State) :
    s.carriedWork.state.connections = s.promotedWork.state.connections := by
  unfold State.carriedWork Work.carryAll
  generalize s.promotedWork.state.connections.filter (fun c => c.live) = cs
  generalize s.promotedWork = w
  induction cs generalizing w with
  | nil => rfl
  | cons c cs ih => exact (ih _).trans (w.carry_connections c)

theorem State.carriedWork_watches (s : State) :
    s.carriedWork.state.watches = s.promotedWork.state.watches := by
  unfold State.carriedWork Work.carryAll
  generalize s.promotedWork.state.connections.filter (fun c => c.live) = cs
  generalize s.promotedWork = w
  induction cs generalizing w with
  | nil => rfl
  | cons c cs ih => exact (ih _).trans (w.carry_watches c)

/-- The events of a frame start: the trips, and then what the legs report (R105). -/
theorem TableLaw.carriedWork_events (ht : TableLaw s) (h : PrivacyLaw s) :
    s.carriedWork.events = s.tripReport (s.frameCounter + 1) ++ s.syncReport := by
  have htrips : s.promotedWork.events = s.tripReport (s.frameCounter + 1) := by
    rw [ht.promoted.events, ← s.tripReport_eq]
    rfl
  rw [(ht.carried h).events, htrips, List.flatMap_map]
  refine congrArg _ (List.flatMap_congr fun c hc => ?_)
  unfold State.eventsCarried
  cases hpart : c.privacy with
  | none =>
    have hprivacy : (s.recordAfterFrame c).privacy = none := hpart
    simp [State.legCarries, State.legAtFrame, hprivacy, hpart]
  | some part =>
    obtain ⟨leg, l, f, hrule, hcarries⟩ := h.legCarries ht hc hpart
    rw [hrule, hcarries]
    rfl

/-- A destination that no record feeds (R104). -/
theorem TableLaw.carriedWork_outgoing (ht : TableLaw s) (h : PrivacyLaw s) {e : Nat} (he : e < 160)
    (hnone : ∀ c ∈ s.connections, c.destination ≠ e) :
    s.carriedWork.state.outgoingSample e = s.muteCode := by
  rw [(ht.carried h).outgoing, s.promotedWork_outgoingSample he]
  intro c hc
  obtain ⟨d, hd, rfl⟩ := List.mem_map.1 hc
  exact hnone d hd

theorem TableLaw.carriedWork_clear (ht : TableLaw s) (h : PrivacyLaw s) {c : Connection}
    (hc : c ∈ s.connections) (hclear : c.privacy = none) :
    s.carriedWork.state.outgoingSample c.destination = s.receivedSample c.source := by
  have hhanded := (ht.carried h).handed _ (List.mem_map_of_mem hc)
  have hprivacy : (s.recordAfterFrame c).privacy = none := hclear
  rw [State.sampleCarried, if_pos hprivacy, s.promotedWork_onlyFrames] at hhanded
  exact hhanded

theorem TableLaw.carriedWork_leg (ht : TableLaw s) (h : PrivacyLaw s) {c : Connection}
    (hc : c ∈ s.connections) {part : PrivacyPart} {leg : Leg} {state : LegState} {sample : Byte}
    {events : List Event} (hrule : s.legAtFrame c = some (part, leg, state, sample, events)) :
    s.carriedWork.state.outgoingSample c.destination = sample
      ∧ s.carriedWork.state.leg part.leg = some { leg with state := state } := by
  obtain ⟨own, hown, -⟩ := Option.bind_eq_some_iff.1 hrule
  obtain ⟨leg', l, f, hrule', hcarries⟩ := h.legCarries ht hc hown
  cases hrule.symm.trans hrule'
  have hmem := List.mem_map_of_mem (f := s.recordAfterFrame) hc
  have hprivacy : (s.recordAfterFrame c).privacy = some part := hown
  constructor
  · have hhanded := (ht.carried h).handed _ hmem
    rw [State.sampleCarried, if_neg (by simp [hprivacy]), hcarries] at hhanded
    exact hhanded
  · rw [(ht.carried h).legs _ hmem part hprivacy, State.legPast, hcarries]
    exact if_pos rfl

theorem TableLaw.carriedWork_leg_none (ht : TableLaw s) (h : PrivacyLaw s) {n : Nat}
    (hnone : s.leg n = none) : s.carriedWork.state.leg n = none := by
  rw [(ht.carried h).leg n, ht.promoted.leg]
  · show (if _ then (s.leg n).map s.openFrame.legStarted else s.leg n) = none
    rw [hnone, Option.map_none, ite_self]
  · intro c hc part hpart heq
    obtain ⟨d, hd, rfl⟩ := List.mem_map.1 hc
    obtain ⟨-, -, -, ⟨leg, hleg, -⟩, -⟩ := h.1 d hd part hpart
    rw [heq, hnone] at hleg
    cases hleg

/-- What a frame start leaves unchanged, once its events are posted. -/
theorem OnlyFrames.posted {u t : State} (h : OnlyFrames s.openFrame u) (hports : OnlyPorts u t) :
    t = { s with
      portA := t.portA, portB := t.portB, portM := t.portM
      frameCounter := t.frameCounter, connections := t.connections, legs := t.legs
      watches := t.watches, outgoing := t.outgoing } := by
  unfold OnlyFrames OnlyPorts at *
  rw [hports, h]
  rfl

end frame

/-- Settles O45: the promotions in order, then the samples in order, then the events. -/
theorem frameStartPromotesAndCarries : Obligations.FrameStartPromotesAndCarries := by
  unfold Obligations.FrameStartPromotesAndCarries
  intro s ht h
  have hframe := s.carriedWork_onlyFrames
  have houtgoing : ∀ e, s.carriedWork.finish.outgoingSample e
      = s.carriedWork.state.outgoingSample e := fun e => by
    unfold State.outgoingSample Work.finish
    rw [State.postAll_outgoing, State.postAll_muteCode]
  have hleg : ∀ n, s.carriedWork.finish.leg n = s.carriedWork.state.leg n := fun n =>
    State.postAll_leg _ _ n
  refine ⟨s.carriedWork.finish, s.carriedWork.events, rfl, ?_, ?_, fun n hn => ?_,
    fun e he hnone => ?_, fun c hc hclear => ?_, fun c hc part leg state sample events hrule => ?_,
    fun c hc hprivacy hnone => ?_, fun n hnone => ?_, fun q => ?_, ht.carriedWork_events h, ?_⟩
  · rw [Work.finish, State.postAll_frameCounter, hframe]
    rfl
  · rw [Work.finish, State.postAll_connections, s.carriedWork_connections, ht.promoted_connections]
    rfl
  · rw [Work.finish, State.postAll_watch, ← s.watchAfterFrame_eq, State.watch, s.carriedWork_watches]
    exact ht.promoted.watch n hn
  · rw [houtgoing, ht.carriedWork_outgoing h he hnone]
  · rw [houtgoing, ht.carriedWork_clear h hc hclear]
  · rw [houtgoing, hleg]
    exact ht.carriedWork_leg h hc hrule
  · obtain ⟨part, hpart⟩ := Option.ne_none_iff_exists'.1 hprivacy
    obtain ⟨_, _, _, hrule, -⟩ := h.legCarries ht hc hpart
    exact absurd (hnone.symm.trans hrule) (by simp)
  · rw [hleg, ht.carriedWork_leg_none h hnone]
  · refine State.postAll_port_congr ?_ (fun p => ?_) _ q
    · rw [hframe]
      rfl
    · rw [hframe]
      cases p <;> rfl
  · exact hframe.posted (State.postAll_onlyPorts _ _)

end Sys2Proof.Machine
end

section
/-! SUPPORT. What a command that writes the tables of calls by releases alone makes of them, whatever they
hold: the relation "a chain of releases", and the operations that keep to it (R8, R49 to R51, R67, R109,
R148 to R156). -/

namespace Sys2Proof.Machine

/-- t comes from s by work that leaves the tables of calls, and by releases of one record each. -/
inductive ReleaseChain : State → State → Prop where
  | stand {s t : State} : SameCalls s t → ReleaseChain s t
  | release (reason : Option ReleaseReason) (w : Work) (c : Connection) :
      ReleaseChain w.state (w.release reason c).state
  | trans {s t u : State} : ReleaseChain s t → ReleaseChain t u → ReleaseChain s u

theorem SameCalls.refl (s : State) : SameCalls s s := ⟨rfl, rfl, rfl, rfl, rfl, rfl⟩

namespace ReleaseChain

theorem refl (s : State) : ReleaseChain s s := .stand (.refl s)

variable {s : State}

/-- The tables of calls are not written any more. -/
theorem thenStand {t u : State} (h : ReleaseChain s t) (htu : SameCalls t u) : ReleaseChain s u :=
  h.trans (.stand htu)

theorem finish {w : Work} (h : ReleaseChain s w.state) : ReleaseChain s w.finish :=
  h.thenStand w.finish_onlyPorts.sameCalls

theorem setStation {t : State} (h : ReleaseChain s t) (n : Nat) (v : Station) :
    ReleaseChain s (t.setStation n v) := h.thenStand (t.setStation_sameCalls n v)

theorem setLine {t : State} (h : ReleaseChain s t) (n : Nat) (v : LinePort) :
    ReleaseChain s (t.setLine n v) := h.thenStand (t.setLine_sameCalls n v)

theorem setPort {t : State} (h : ReleaseChain s t) (p : Port) (v : PortState) :
    ReleaseChain s (t.setPort p v) := h.thenStand (t.setPort_onlyPorts p v).sameCalls

/-- The records of one selection are released one by one (R154). -/
theorem releaseWhere {w : Work} (h : ReleaseChain s w.state) (reason : Option ReleaseReason)
    (gone : Connection → Bool) : ReleaseChain s (w.releaseWhere reason gone).state := by
  unfold Work.releaseWhere
  generalize w.state.connections.filter gone = cs
  induction cs generalizing w with
  | nil => exact h
  | cons c cs ih => exact ih (h.trans (.release reason w c))

/-! ### Stations leave their states -/

/-- A withdrawal (R67). -/
theorem withdraw {w : Work} (h : ReleaseChain s w.state) (r : ReleaseReason) (n : Nat) :
    ReleaseChain s (w.withdraw r n).state := by
  unfold Work.withdraw
  split
  · exact releaseWhere (w := w.update _) (h.setStation n _) _ _
  · exact h

/-- The clearing of a position (R49). -/
theorem clearPosition {w : Work} (h : ReleaseChain s w.state) (r : ReleaseReason) (n : Nat) :
    ReleaseChain s (w.clearPosition r n).state := by
  unfold Work.clearPosition
  refine setStation ?_ n _
  split
  · exact h.withdraw r n
  · exact h.setStation n _
  · exact h.setStation n _
  · exact h
  · exact h

theorem clearPositions {w : Work} (h : ReleaseChain s w.state) (r : ReleaseReason)
    (ns : List Nat) : ReleaseChain s (ns.foldl (fun w n => w.clearPosition r n) w).state := by
  induction ns generalizing w with
  | nil => exact h
  | cons n ns ih => exact ih (h.clearPosition r n)

/-- The loss of the link at a position (R51). -/
theorem loseLink {w : Work} (h : ReleaseChain s w.state) (n : Nat) :
    ReleaseChain s (w.loseLink n).state := by
  unfold Work.loseLink
  refine setStation ?_ n _
  split
  · exact h.withdraw _ n
  · exact h.setStation n _
  all_goals exact h

/-- A report of a link (R51). -/
theorem reportLink {w : Work} (h : ReleaseChain s w.state) (n : Nat) (up : Bool) :
    ReleaseChain s (w.reportLink n up).state := by
  unfold Work.reportLink
  split
  · exact h
  · split
    · exact h.setLine n _
    · exact loseLink (loseLink (w := w.update _) (h.setLine n _) _) _

theorem rereadLinks {w : Work} (h : ReleaseChain s w.state) (links : List Bool) :
    ReleaseChain s (w.rereadLinks links).state := by
  unfold Work.rereadLinks
  generalize List.range 48 = ns
  induction ns generalizing w with
  | nil => exact h
  | cons n ns ih => exact ih (h.reportLink n _)

/-- The port that babbles (R50). -/
theorem disableForBabble {w : Work} (h : ReleaseChain s w.state) (n : Nat) :
    ReleaseChain s (w.disableForBabble n).state :=
  clearPosition (clearPosition (w := w.update _) (h.setLine n _) _ _) _ _

/-- The challenges of an identity that are abandoned (R65). -/
theorem abandonIdentity {w : Work} (h : ReleaseChain s w.state) (r : RefusalReason)
    (identity : Nat) (selects : Nat → Bool) :
    ReleaseChain s (w.abandonIdentity r identity selects).state := by
  unfold Work.abandonIdentity
  generalize w.state.challengedPositions identity selects = ns
  induction ns generalizing w with
  | nil => exact h
  | cons n ns ih => exact ih (h.thenStand (w.abandon_sameCalls r n))

/-- The requests of REMOVE and SUSPEND (R33, R35). -/
theorem retireIdentity {w : Work} (h : ReleaseChain s w.state) (r : ReleaseReason)
    (identity : Nat) : ReleaseChain s (w.retireIdentity r identity).state := by
  refine abandonIdentity ?_ _ _ _
  unfold Work.withdrawIdentity
  split
  · exact h.withdraw r _
  · exact h

/-- The first two requests of AMEND (R38). -/
theorem applyHomePorts {w : Work} (h : ReleaseChain s w.state) (e : DirectoryEntry) :
    ReleaseChain s (w.applyHomePorts e).state := by
  unfold Work.applyHomePorts
  refine abandonIdentity ?_ _ _ _
  split
  · split
    · exact h.withdraw _ _
    · exact h
  · exact h

/-- The third request of AMEND (R38, R156). -/
theorem judgeClass {w : Work} (h : ReleaseChain s w.state) (e : DirectoryEntry) :
    ReleaseChain s (w.judgeClass e).state := by
  unfold Work.judgeClass
  split
  · exact h.releaseWhere _ _
  · exact h

/-! ### The messages of stations -/

theorem judgeRegister {w : Work} (h : ReleaseChain s w.state) (n identity : Nat) :
    ReleaseChain s (w.judgeRegister n identity).state := by
  have hfails : ∀ r, ReleaseChain s (w.countFailure n identity r).state := fun r =>
    h.thenStand (w.countFailure_sameCalls n identity r)
  unfold Work.judgeRegister
  split
  · exact hfails _
  · split
    · exact hfails _
    · split
      · exact hfails _
      · exact h.thenStand (w.issueChallenge_sameCalls n identity _)

/-- A REGISTER, as the position's record takes it (R58). -/
theorem takeRegister {w : Work} (h : ReleaseChain s w.state) (n identity : Nat) :
    ReleaseChain s (w.takeRegister n identity).state := by
  unfold Work.takeRegister
  split
  · exact h.judgeRegister n identity
  · exact (h.withdraw _ n).judgeRegister n identity
  all_goals exact h

/-- An ANSWER, as the position's record takes it (R61, R62). -/
theorem takeAnswer {w : Work} (h : ReleaseChain s w.state) (n : Nat) (response : Word16) :
    ReleaseChain s (w.takeAnswer n response).state := by
  unfold Work.takeAnswer
  split
  · rename_i identity _ _ _ _
    split
    · rw [Work.admitStation_state]
      refine setStation (setStation ?_ n _) n _
      unfold Work.relocate
      split
      · exact h.withdraw _ _
      · exact h
    · exact h.thenStand (w.countFailure_sameCalls n identity _)
  all_goals exact h

/-- A LEAVE, as the position's record takes it (R64, R66). -/
theorem takeLeave {w : Work} (h : ReleaseChain s w.state) (n : Nat) :
    ReleaseChain s (w.takeLeave n).state := by
  unfold Work.takeLeave
  split
  · exact h.withdraw _ n
  · exact h.setStation n _
  all_goals exact h

/-! ### Restarts -/

/-- A call-keeping restart discards the PENDING records through the release procedure (R109). -/
theorem startKeep (s : State) (cause : RestartCause) : ReleaseChain s (s.startKeep cause) :=
  finish (releaseWhere (w := Work.start (s.keepTables cause))
    (.stand (s.keepTables_sameCalls cause)) none _)

theorem endRestart (s : State) (mode : RestartMode) : ReleaseChain s (s.endRestart mode) := by
  have hended : SameCalls s { s with restart := none } := ⟨rfl, rfl, rfl, rfl, rfl, rfl⟩
  exact (ReleaseChain.stand hended).thenStand
    (((State.append_onlyPorts _ _ _).trans (State.append_onlyPorts _ _ _)).trans
      (State.append_onlyPorts _ _ _)).sameCalls

end ReleaseChain

end Sys2Proof.Machine
end

section
/-! SUPPORT. The rows that make a chain of releases, one lemma a row: all but those that write the tables
of calls in another way (R8, R9, R28, R54). -/

namespace Sys2Proof.Machine

/-- Whatever a take does not leave as it was, the row's own answer does, in a relation that holds of work
on other tables and of two stages of work (R8). -/
theorem rel_of_take {R : State → State → Prop} (hstand : ∀ {s t}, SameCalls s t → R s t)
    (htrans : ∀ {s t u}, R s t → R t u → R s u) {i : Instr} {mine : OrderRecord → Bool}
    {codes : List Byte → Bool} {authority : Authority} {body : Port → List Byte → State → Answer}
    (meaning : State → Host.Outcome State Fault Refusal) (hexec : ∀ s, exec i s = meaning s)
    (htake : ∀ s, meaning s = takeOrder mine codes authority body s)
    (hbody : ∀ p params u, (body p params u).Leaves (R u)) {s t : State}
    (h : exec i s = .next t) : R s t := by
  rw [hexec, htake] at h
  rcases takeOrder_cases h with rfl | ⟨p, o, -, -, rfl⟩
  · exact hstand (.refl _)
  refine htrans (hstand (s.taken_sameCalls p)) ?_
  have hanswer : ∀ a : Answer, a.Leaves (R (s.taken p)) → R (s.taken p) ((s.taken p).replied p o a)
    | .refuse _ _, _ => hstand (State.append_onlyPorts _ _ _).sameCalls
    | .done _ _, ha => htrans ha (hstand
        ((State.append_onlyPorts _ _ _).trans (State.postAll_onlyPorts _ _)).sameCalls)
    | .restart _, ha => ha
  refine hanswer _ ?_
  unfold answerTo
  split
  · trivial
  · split
    · trivial
    · exact hbody p o.params _

/-- By every command of a row the tables of calls go through a chain of releases. -/
def ReleasingRow (i : Instr) : Prop := ∀ s t, exec i s = .next t → ReleaseChain s t

namespace ReleaseChain

/-- A row whose own answers release records at most. -/
theorem row {i : Instr} {mine : OrderRecord → Bool} {codes : List Byte → Bool}
    {authority : Authority} {body : Port → List Byte → State → Answer}
    (meaning : State → Host.Outcome State Fault Refusal) (hexec : ∀ s, exec i s = meaning s)
    (htake : ∀ s, meaning s = takeOrder mine codes authority body s)
    (hbody : ∀ p params u, (body p params u).Leaves (ReleaseChain u)) : ReleasingRow i :=
  fun _ _ h => rel_of_take .stand .trans meaning hexec htake hbody h

/-- A field of another block is written. -/
theorem of_eq {s t : State} (hconnections : t.connections = s.connections)
    (hslots : t.slots = s.slots) (hgroups : t.groups = s.groups) (hkeys : t.keys = s.keys)
    (hlegs : t.legs = s.legs) (hwatches : t.watches = s.watches) : ReleaseChain s t :=
  .stand ⟨hconnections, hslots, hgroups, hkeys, hlegs, hwatches⟩

/-! ### Mastership (R18 to R24) -/

theorem withMastership (s : State) (m : Mastership) :
    ReleaseChain s { s with mastership := m } := .of_eq rfl rfl rfl rfl rfl rfl

theorem claim : ReleasingRow .claim :=
  row execClaim (fun _ => rfl) (fun _ => rfl) fun p _ s => by
    refine byController_leaves (fun x => ?_) p
    have hheld : ReleaseChain s (s.holdMastership x) := withMastership s _
    unfold claimBy
    split
    · exact masteryDone_leaves hheld _ _
    · split
      · exact masteryDone_leaves hheld _ _
      · trivial
    · exact masteryDone_leaves hheld _ _


theorem pulse : ReleasingRow .pulse :=
  row execPulse (fun _ => rfl) (fun _ => rfl) fun p _ s => by
    refine byController_leaves (fun x => ?_) p
    have hheld : ReleaseChain s (s.holdMastership x) := withMastership s _
    unfold pulseBy
    split
    · split
      · exact masteryDone_leaves hheld _ _
      · trivial
    · split
      · exact masteryDone_leaves hheld _ _
      · trivial
    · trivial

theorem yield : ReleasingRow .yield :=
  row execYield (fun _ => rfl) (fun _ => rfl) fun p _ s => by
    refine byController_leaves (fun x => ?_) p
    unfold yieldBy
    split
    · exact masteryDone_leaves (withMastership s _) _ _
    · trivial

theorem assign : ReleasingRow .assign :=
  row execAssign (fun _ => rfl) (fun _ => rfl) fun _ _ s => by
    refine masteryDone_leaves ?_ _ _
    split
    · exact withMastership s _
    · exact withMastership s _

theorem setLapse : ReleasingRow .setLapse :=
  row execSetLapse (fun _ => rfl) (fun _ => rfl) fun _ _ s => by
    refine masteryDone_leaves ?_ _ _
    exact .of_eq rfl rfl rfl rfl rfl rfl

/-! ### The directory and the precedence map (R32 to R42) -/

theorem withDirectory (s : State) (d : List DirectoryEntry) :
    ReleaseChain s { s with directory := d } := .of_eq rfl rfl rfl rfl rfl rfl

theorem enter : ReleasingRow .enter :=
  row execEnter (fun _ => rfl) (fun _ => rfl) fun _ _ s => by
    unfold enterEntry
    dsimp only
    split
    · trivial
    · split
      · trivial
      · split
        · trivial
        · exact withDirectory s _

theorem remove : ReleasingRow .remove :=
  row execRemove (fun _ => rfl) (fun _ => rfl) fun _ _ s => onEntry_leaves fun _ _ =>
    retireIdentity (w := Work.start _) (withDirectory s _) _ _

theorem setSecret : ReleasingRow .setSecret :=
  row execSetSecret (fun _ => rfl) (fun _ => rfl) fun _ _ s => onEntry_leaves fun _ _ =>
    withDirectory s _

theorem amend : ReleasingRow .amend :=
  row execAmend (fun _ => rfl) (fun _ => rfl) fun _ params s => by
    unfold amendEntry
    dsimp only
    split
    · trivial
    · split
      · trivial
      · rename_i old _
        have hentry : ReleaseChain s (s.mapEntry (param2 params 0) (amendedEntry params)) :=
          withDirectory s _
        have hhomes : ReleaseChain s (if flagSet (paramByte params 8) = true then
            (Work.start (s.mapEntry (param2 params 0) (amendedEntry params))).applyHomePorts
              (amendedEntry params old)
            else Work.start (s.mapEntry (param2 params 0) (amendedEntry params))).state := by
          split
          · exact applyHomePorts (w := Work.start _) hentry _
          · exact hentry
        simp only [Answer.Leaves]
        split
        · exact hhomes.judgeClass _
        · exact hhomes

theorem suspend : ReleasingRow .suspend :=
  row execSuspend (fun _ => rfl) (fun _ => rfl) fun _ _ s => onEntry_leaves fun _ _ => by
    split
    · exact refl s
    · exact retireIdentity (w := Work.start _) (withDirectory s _) _ _

theorem resume : ReleasingRow .resume :=
  row execResume (fun _ => rfl) (fun _ => rfl) fun _ _ s => onEntry_leaves fun _ _ =>
    withDirectory s _

theorem setPrecedenceMap : ReleasingRow .setPrecedenceMap :=
  row execSetPrecedenceMap (fun _ => rfl) (fun _ => rfl) fun _ _ s => by
    dsimp only
    split
    · trivial
    · exact of_eq rfl rfl rfl rfl rfl rfl

/-! ### Admission (R48, R56, R68 to R72) -/

theorem setPortRow : ReleasingRow .setPort :=
  row execSetPort (fun _ => rfl) (fun _ => rfl) fun _ params s => by
    refine setPortSettings_leaves params s ?_
    rintro w rfl
    exact clearPositions (w := Work.start _) ((refl s).setLine _ _) _ _

theorem withdrawRow : ReleasingRow .withdraw :=
  row execWithdraw (fun _ => rfl) (fun _ => rfl) fun _ _ s => by
    unfold withdrawPosition
    split
    · trivial
    · split
      · trivial
      · exact withdraw (w := Work.start s) (refl s) _ _

theorem deliver : ReleasingRow .deliver :=
  row execDeliver (fun _ => rfl) (fun _ => rfl) fun _ _ s => by
    unfold deliverTo
    split
    · trivial
    · split
      · trivial
      · split
        · trivial
        · exact (refl s).setStation _ _

theorem releaseLockout : ReleasingRow .releaseLockout :=
  row execReleaseLockout (fun _ => rfl) (fun _ => rfl) fun _ _ s => by
    dsimp only
    split
    · trivial
    · simp only [Answer.plain, Answer.Leaves, Work.start_state]
      split
      · exact (refl s).setStation _ _
      · exact refl s

theorem setAdmissionTimes : ReleasingRow .setAdmissionTimes :=
  row execSetAdmissionTimes (fun _ => rfl) (fun _ => rfl) fun _ _ _ => by
    exact of_eq rfl rfl rfl rfl rfl rfl

theorem seedChallenge : ReleasingRow .seedChallenge :=
  row execSeedChallenge (fun _ => rfl) (fun _ => rfl) fun _ _ _ => by
    exact of_eq rfl rfl rfl rfl rfl rfl

/-! ### The switching network (R99, R100, R104) -/

theorem releaseById : ReleasingRow .releaseById :=
  row execReleaseById (fun _ => rfl) (fun _ => rfl) fun _ _ s => by
    unfold releaseId
    split
    · trivial
    · split
      · trivial
      · split
        · trivial
        · exact release none (Work.start s) _

theorem releaseByTag : ReleasingRow .releaseByTag :=
  row execReleaseByTag (fun _ => rfl) (fun _ => rfl) fun _ _ s => by
    unfold releaseTag
    split
    · trivial
    · exact releaseWhere (w := Work.start s) (refl s) _ _

theorem setMuteCode : ReleasingRow .setMuteCode :=
  row execSetMuteCode (fun _ => rfl) (fun _ => rfl) fun _ _ _ => by
    exact of_eq rfl rfl rfl rfl rfl rfl

/-! ### The looks (R9) -/

theorem lookMastership : ReleasingRow .lookMastership :=
  row execLookMastership (fun _ => rfl) (fun _ => rfl) fun _ _ s => refl s

theorem lookPrecedenceMap : ReleasingRow .lookPrecedenceMap :=
  row execLookPrecedenceMap (fun _ => rfl) (fun _ => rfl) fun _ _ s => refl s

theorem lookAdmissionTimes : ReleasingRow .lookAdmissionTimes :=
  row execLookAdmissionTimes (fun _ => rfl) (fun _ => rfl) fun _ _ s => refl s

theorem lookNetwork : ReleasingRow .lookNetwork :=
  row execLookNetwork (fun _ => rfl) (fun _ => rfl) fun _ _ s => refl s

theorem lookPort : ReleasingRow .lookPort :=
  row execLookPort (fun _ => rfl) (fun _ => rfl) fun _ _ s =>
    KeptByReleases.look_guarded (refl s) _ _ _

theorem lookStation : ReleasingRow .lookStation :=
  row execLookStation (fun _ => rfl) (fun _ => rfl) fun _ _ s =>
    KeptByReleases.look_guarded (refl s) _ _ _

theorem lookEndpoint : ReleasingRow .lookEndpoint :=
  row execLookEndpoint (fun _ => rfl) (fun _ => rfl) fun _ _ s =>
    KeptByReleases.look_guarded (refl s) _ _ _

theorem lookTrunk : ReleasingRow .lookTrunk :=
  row execLookTrunk (fun _ => rfl) (fun _ => rfl) fun _ _ s =>
    KeptByReleases.look_guarded (refl s) _ _ _

theorem lookGroup : ReleasingRow .lookGroup :=
  row execLookGroup (fun _ => rfl) (fun _ => rfl) fun _ _ s =>
    KeptByReleases.look_guarded (refl s) _ _ _

theorem lookKey : ReleasingRow .lookKey :=
  row execLookKey (fun _ => rfl) (fun _ => rfl) fun _ _ s =>
    KeptByReleases.look_guarded (refl s) _ _ _

theorem lookEntry : ReleasingRow .lookEntry :=
  row execLookEntry (fun _ => rfl) (fun _ => rfl) fun _ _ s => by
    split
    · trivial
    · split
      · exact refl s
      · trivial

theorem lookNextEntry : ReleasingRow .lookNextEntry :=
  row execLookNextEntry (fun _ => rfl) (fun _ => rfl) fun _ _ s => by
    split
    · trivial
    · split
      · exact refl s
      · trivial

theorem lookConnection : ReleasingRow .lookConnection :=
  row execLookConnection (fun _ => rfl) (fun _ => rfl) fun _ _ s => by
    split
    · trivial
    · split
      · exact refl s
      · trivial

theorem lookNextConnection : ReleasingRow .lookNextConnection :=
  row execLookNextConnection (fun _ => rfl) (fun _ => rfl) fun _ _ s => by
    split
    · trivial
    · split
      · exact refl s
      · trivial

theorem lookLeg : ReleasingRow .lookLeg :=
  row execLookLeg (fun _ => rfl) (fun _ => rfl) fun _ _ _ => by
    unfold lookLegId
    split
    · trivial
    · split
      · trivial
      · split
        · trivial
        · exact of_eq rfl rfl rfl rfl rfl rfl

theorem lookWatch : ReleasingRow .lookWatch :=
  row execLookWatch (fun _ => rfl) (fun _ => rfl) fun _ _ _ => by
    unfold lookWatchOf
    split
    · trivial
    · exact of_eq rfl rfl rfl rfl rfl rfl

/-! ### Restart control and the issuing port (R8, R13, R170, R175) -/

theorem unknownOrder : ReleasingRow .unknownOrder :=
  row execUnknownOrder (fun _ => rfl) (fun _ => rfl) fun _ _ _ => trivial

theorem restartKeep : ReleasingRow .restartKeep :=
  row execRestartKeep (fun _ => rfl) (fun _ => rfl) fun _ _ s => startKeep s _

theorem readCauses : ReleasingRow .readCauses :=
  row execReadCauses (fun _ => rfl) (fun _ => rfl) fun _ _ s => (refl s).setPort _ _

theorem setPortMode : ReleasingRow .setPortMode :=
  row execSetPortMode (fun _ => rfl) (fun _ => rfl) fun _ _ s => (refl s).setPort _ _

/-! ### Transfers (R2 to R5) -/

theorem completing (s : State) (p : Port) (v : PortState) :
    ReleaseChain s ((s.inTransfer p).setPort p v) :=
  .stand (s.completing_onlyPorts p v).sameCalls

theorem orderTransfer (p : Port) (part : TransferPart) (record : List Byte) :
    ReleasingRow (.orderTransfer p part record) := by
  intro s t h
  cases part <;> obtain rfl := Host.Outcome.next.inj h
  · exact (refl s).setPort p _
  · exact completing s p _

theorem fetchTransfer (p : Port) (part : TransferPart) :
    ReleasingRow (.fetchTransfer p part) := by
  intro s t h
  cases part <;> obtain rfl := Host.Outcome.next.inj h
  · exact (refl s).setPort p _
  · exact completing s p _

theorem statusTransfer (p : Port) (part : TransferPart) :
    ReleasingRow (.statusTransfer p part) := by
  intro s t h
  cases part <;> obtain rfl := Host.Outcome.next.inj h
  · exact (refl s).setPort p _
  · exact completing s p _

theorem unknownTransferKind (p : Port) (kind : Option Byte) :
    ReleasingRow (.unknownTransferKind p kind) := by
  intro s t h
  obtain rfl := Host.Outcome.next.inj h
  exact completing s p _

/-! ### Deadlines, messages, lines and restarts -/

theorem lapseTimerExpiry : ReleasingRow .lapseTimerExpiry := by
  intro s t h
  change execLapseTimerExpiry s = _ at h
  unfold execLapseTimerExpiry at h
  split at h <;> obtain rfl := Host.Outcome.next.inj h
  · refine finish ?_
    exact of_eq rfl rfl rfl rfl rfl rfl
  · exact refl s

theorem reach (s : State) (instant : Nat) : ReleaseChain s (s.reach instant) :=
  .of_eq rfl rfl rfl rfl rfl rfl

theorem answerDeadlineExpiry (n : Fin 96) : ReleasingRow (.answerDeadlineExpiry n) := by
  intro s t h
  change execAnswerDeadlineExpiry n s = _ at h
  unfold execAnswerDeadlineExpiry at h
  split at h <;> obtain rfl := Host.Outcome.next.inj h
  · exact finish ((reach s _).thenStand (Work.countFailure_sameCalls (Work.start _) _ _ _))
  all_goals exact refl s

theorem holdOffExpiry (n : Fin 96) : ReleasingRow (.holdOffExpiry n) := by
  intro s t h
  change execHoldOffExpiry n s = _ at h
  unfold execHoldOffExpiry at h
  split at h <;> obtain rfl := Host.Outcome.next.inj h
  · exact (reach s _).setStation _ _
  all_goals exact refl s

theorem register (n : Fin 96) (identity : Word16) : ReleasingRow (.register n identity) := by
  intro s t h
  change execRegister n identity s = _ at h
  unfold execRegister at h
  split at h <;> obtain rfl := Host.Outcome.next.inj h
  · exact finish (takeRegister (w := Work.start s) (refl s) _ _)
  · exact refl s

theorem answer (n : Fin 96) (response : Word16) : ReleasingRow (.answer n response) := by
  intro s t h
  change execAnswer n response s = _ at h
  unfold execAnswer at h
  split at h <;> obtain rfl := Host.Outcome.next.inj h
  · exact finish (takeAnswer (w := Work.start s) (refl s) _ _)
  · exact refl s

theorem leave (n : Fin 96) : ReleasingRow (.leave n) := by
  intro s t h
  change execLeave n s = _ at h
  unfold execLeave at h
  split at h <;> obtain rfl := Host.Outcome.next.inj h
  · exact finish (takeLeave (w := Work.start s) (refl s) _)
  · exact refl s

theorem signal (n : Fin 96) (bytes : List Byte) : ReleasingRow (.signal n bytes) := by
  intro s t h
  change execSignal n bytes s = _ at h
  unfold execSignal at h
  split at h
  · split at h <;> obtain rfl := Host.Outcome.next.inj h
    case h_1 => exact finish (refl s)
    all_goals exact refl s
  · obtain rfl := Host.Outcome.next.inj h
    exact refl s

theorem unfitStationMessage (n : Fin 48) (message : List Byte) :
    ReleasingRow (.unfitStationMessage n message) := by
  intro s t h
  obtain rfl := Host.Outcome.next.inj h
  exact refl s

theorem babble (n : Fin 48) : ReleasingRow (.babble n) := by
  intro s t h
  change execBabble n s = _ at h
  unfold execBabble at h
  dsimp only at h
  split at h
  · obtain rfl := Host.Outcome.next.inj h
    exact refl s
  · split at h <;> obtain rfl := Host.Outcome.next.inj h
    · exact finish (disableForBabble (w := Work.start _) ((refl s).setLine _ _) _)
    · exact (refl s).setLine _ _

theorem linkUp (n : Fin 48) : ReleasingRow (.linkUp n) := by
  intro s t h
  change execLinkUp n s = _ at h
  unfold execLinkUp at h
  split at h <;> obtain rfl := Host.Outcome.next.inj h
  · exact refl s
  · exact finish (reportLink (w := Work.start s) (refl s) _ _)

theorem linkDown (n : Fin 48) : ReleasingRow (.linkDown n) := by
  intro s t h
  change execLinkDown n s = _ at h
  unfold execLinkDown at h
  split at h <;> obtain rfl := Host.Outcome.next.inj h
  · exact refl s
  · exact finish (reportLink (w := Work.start s) (refl s) _ _)

theorem beginSend (n : Fin 48) : ReleasingRow (.beginSend n) := by
  intro s t h
  change execBeginSend n s = _ at h
  unfold execBeginSend at h
  split at h
  · split at h <;> obtain rfl := Host.Outcome.next.inj h
    · exact stand (s.sendFrom_sameCalls _ _)
    · exact refl s
  · obtain rfl := Host.Outcome.next.inj h
    exact refl s

theorem sendCompletion (n : Fin 48) : ReleasingRow (.sendCompletion n) := by
  intro s t h
  obtain rfl := Host.Outcome.next.inj h
  exact (refl s).setLine _ _

theorem sampleArrival (samples : List Byte) : ReleasingRow (.sampleArrival samples) := by
  intro s t h
  obtain rfl := Host.Outcome.next.inj h
  exact of_eq rfl rfl rfl rfl rfl rfl

theorem resetPinRelease : ReleasingRow .resetPinRelease := by
  intro s t h
  change execResetPinRelease s = _ at h
  unfold execResetPinRelease at h
  split at h <;> obtain rfl := Host.Outcome.next.inj h
  · exact of_eq rfl rfl rfl rfl rfl rfl
  · exact refl s

theorem restartComplete (links : List Bool) : ReleasingRow (.restartComplete links) := by
  intro s t h
  change execRestartComplete links s = _ at h
  unfold execRestartComplete at h
  split at h
  · split at h <;> obtain rfl := Host.Outcome.next.inj h
    · exact refl s
    · exact finish (rereadLinks (w := Work.start _) (endRestart s _) links)
  · obtain rfl := Host.Outcome.next.inj h
    exact refl s

/-! ### Every command -/

/-- By a command that writes the tables of calls in no other way, they go through a chain of
releases. -/
theorem exec {i : Instr} (hi : ¬WritesCalls i) : ReleasingRow i := by
  cases i
  case orderTransfer p part record => exact orderTransfer p part record
  case fetchTransfer p part => exact fetchTransfer p part
  case statusTransfer p part => exact statusTransfer p part
  case unknownTransferKind p kind => exact unknownTransferKind p kind
  case unknownOrder => exact unknownOrder
  case claim => exact claim
  case pulse => exact pulse
  case yield => exact yield
  case assign => exact assign
  case setLapse => exact setLapse
  case lookMastership => exact lookMastership
  case enter => exact enter
  case remove => exact remove
  case setSecret => exact setSecret
  case amend => exact amend
  case suspend => exact suspend
  case resume => exact resume
  case lookEntry => exact lookEntry
  case lookNextEntry => exact lookNextEntry
  case setPrecedenceMap => exact setPrecedenceMap
  case lookPrecedenceMap => exact lookPrecedenceMap
  case setPort => exact setPortRow
  case lookPort => exact lookPort
  case withdraw => exact withdrawRow
  case deliver => exact deliver
  case releaseLockout => exact releaseLockout
  case lookStation => exact lookStation
  case setAdmissionTimes => exact setAdmissionTimes
  case lookAdmissionTimes => exact lookAdmissionTimes
  case seedChallenge => exact seedChallenge
  case releaseById => exact releaseById
  case releaseByTag => exact releaseByTag
  case setMuteCode => exact setMuteCode
  case lookConnection => exact lookConnection
  case lookNextConnection => exact lookNextConnection
  case lookEndpoint => exact lookEndpoint
  case lookNetwork => exact lookNetwork
  case lookTrunk => exact lookTrunk
  case lookGroup => exact lookGroup
  case lookKey => exact lookKey
  case lookLeg => exact lookLeg
  case lookWatch => exact lookWatch
  case restartKeep => exact restartKeep
  case readCauses => exact readCauses
  case setPortMode => exact setPortMode
  case lapseTimerExpiry => exact lapseTimerExpiry
  case resetPinRelease => exact resetPinRelease
  case answerDeadlineExpiry n => exact answerDeadlineExpiry n
  case holdOffExpiry n => exact holdOffExpiry n
  case register n identity => exact register n identity
  case answer n response => exact answer n response
  case leave n => exact leave n
  case signal n bytes => exact signal n bytes
  case babble n => exact babble n
  case linkUp n => exact linkUp n
  case linkDown n => exact linkDown n
  case beginSend n => exact beginSend n
  case sendCompletion n => exact sendCompletion n
  case sampleArrival samples => exact sampleArrival samples
  case restartComplete links => exact restartComplete links
  case unfitStationMessage n message => exact unfitStationMessage n message
  all_goals exact absurd trivial hi

/-- The idle step leaves the tables of calls. -/
theorem idle (s : State) : SameCalls s s.idle := by
  unfold State.idle
  split <;> exact ⟨rfl, rfl, rfl, rfl, rfl, rfl⟩

end ReleaseChain

/-- A command is taken out of the queue and run, or the part idles: what a step keeps, of a property that
stands under chains of releases. -/
theorem step_keeps_of_releaseChain {I : State → Prop}
    (hchain : ∀ {s t}, ReleaseChain s t → I s → I t)
    (hwrites : ∀ i, WritesCalls i → KeepingRow I i) {s t : State} (hs : I s)
    (h : step s = .next t) : I t := by
  unfold step at h
  split at h
  · rename_i c rest _
    have hs' : I { s with pending := rest } :=
      hchain (.of_eq (s := s) rfl rfl rfl rfl rfl rfl) hs
    by_cases hc : WritesCalls c
    · exact hwrites c hc _ t hs' h
    · exact hchain (ReleaseChain.exec hc _ t h) hs'
  · obtain rfl := Host.Outcome.next.inj h
    exact hchain (.stand (ReleaseChain.idle s)) hs

end Sys2Proof.Machine
end

section
/-! SUPPORT. The trunk slots and groups: the rows by which they stand, the recounts of groups that
releases and CONNECT make, and the law of the congestion states, O53 (R111, R113, R114, R116, R122, R129,
R151, R161 to R166, R102). -/

namespace Sys2Proof.Machine

/-! ### The slots and groups stand -/

/-- t has the trunk slots and groups of s, and records with the ids, endpoints and classes of those of
s. -/
structure TrunksStand (s t : State) : Prop where
  slots : t.slots = s.slots
  groups : t.groups = s.groups
  ends : t.connections.map Connection.ends = s.connections.map Connection.ends

theorem TrunksStand.of_eq {s t : State} (hslots : t.slots = s.slots) (hgroups : t.groups = s.groups)
    (hconnections : t.connections = s.connections) : TrunksStand s t :=
  ⟨hslots, hgroups, by rw [hconnections]⟩

theorem SameCalls.trunksStand {s t : State} (h : SameCalls s t) : TrunksStand s t :=
  .of_eq h.slots h.groups h.connections

theorem TrunksStand.refl (s : State) : TrunksStand s s := .of_eq rfl rfl rfl

theorem TrunksStand.trans {s t u : State} (h : TrunksStand s t) (h' : TrunksStand t u) :
    TrunksStand s u :=
  ⟨h'.slots.trans h.slots, h'.groups.trans h.groups, h'.ends.trans h.ends⟩

theorem State.mapConnection_trunksStand (s : State) (id : Nat) {f : Connection → Connection}
    (hf : ∀ c, (f c).ends = c.ends) : TrunksStand s (s.mapConnection id f) := by
  refine ⟨rfl, rfl, ?_⟩
  simp only [State.mapConnection, List.map_map]
  refine List.map_congr_left fun c _ => ?_
  by_cases h : c.id = id <;> simp [h, hf]

theorem State.setWatch_trunksStand (s : State) (n : Nat) (v : Watch) :
    TrunksStand s (s.setWatch n v) := .of_eq rfl rfl rfl

/-- A hold that is cleared marks the record alone (R163). -/
theorem State.clearHold_trunksStand (s : State) (n : Nat) : TrunksStand s (s.clearHold n) := by
  unfold State.clearHold
  split
  · refine (s.setWatch_trunksStand n _).trans (State.mapConnection_trunksStand _ _ ?_)
    exact fun _ => rfl
  · exact .refl s

/-- A watch that examines a record marks the record alone (R162, R163). -/
theorem Work.examine_trunksStand (w : Work) (c : Connection) (n : Nat) :
    TrunksStand w.state (w.examine c n).state := by
  unfold Work.examine
  split
  · split
    · dsimp only
      split
      · refine (w.state.setWatch_trunksStand n _).trans (State.mapConnection_trunksStand _ _ ?_)
        exact fun _ => rfl
      · exact w.state.setWatch_trunksStand n _
    · exact .refl _
  · exact .refl _
  · exact .refl _

theorem Work.foldl_examine_trunksStand (w : Work) (c : Connection) (ns : List Nat) :
    TrunksStand w.state (ns.foldl (fun w n => w.examine c n) w).state := by
  induction ns generalizing w with
  | nil => exact .refl _
  | cons n ns ih => exact (w.examine_trunksStand c n).trans (ih _)

theorem OnlyFrames.trunksStand {s t : State} (h : OnlyFrames s t)
    (hconnections : t.connections = s.connections) : TrunksStand s t := by
  have hslots := congrArg State.slots h
  have hgroups := congrArg State.groups h
  exact .of_eq hslots hgroups hconnections

theorem Work.promote_trunksStand (w : Work) (c : Connection) :
    TrunksStand w.state (w.promote c).state := by
  unfold Work.promote
  refine TrunksStand.trans ?_ (Work.foldl_examine_trunksStand _ c _)
  refine TrunksStand.trans ?_
    ((State.startLeg_onlyFrames _ c).trunksStand (State.startLeg_connections _ c))
  refine w.state.mapConnection_trunksStand c.id ?_
  exact fun _ => rfl

theorem Work.promoteAll_trunksStand (w : Work) : TrunksStand w.state w.promoteAll.state := by
  unfold Work.promoteAll
  generalize w.state.connections.filter (fun c => !c.live) = cs
  induction cs generalizing w with
  | nil => exact .refl _
  | cons c cs ih => exact (w.promote_trunksStand c).trans (ih _)

theorem Work.carryAll_trunksStand (w : Work) : TrunksStand w.state w.carryAll.state := by
  unfold Work.carryAll
  generalize w.state.connections.filter (fun c => c.live) = cs
  induction cs generalizing w with
  | nil => exact .refl _
  | cons c cs ih =>
    exact ((w.carry_onlyFrames c).trunksStand (w.carry_connections c)).trans (ih _)

/-! ### The rows by which they stand (R102, R129, R130, R142, R161 to R166) -/

/-- By every command of a row the slots and groups stand. -/
def StandingRow (i : Instr) : Prop := ∀ s t, exec i s = .next t → TrunksStand s t

theorem standingRow_of_take {i : Instr} {mine : OrderRecord → Bool} {codes : List Byte → Bool}
    {authority : Authority} {body : Port → List Byte → State → Answer}
    (meaning : State → Host.Outcome State Fault Refusal) (hexec : ∀ s, exec i s = meaning s)
    (htake : ∀ s, meaning s = takeOrder mine codes authority body s)
    (hbody : ∀ p params u, (body p params u).Leaves (TrunksStand u)) : StandingRow i :=
  fun _ _ h => rel_of_take SameCalls.trunksStand .trans meaning hexec htake hbody h

theorem loadKey_trunksStand : StandingRow .loadKey :=
  standingRow_of_take execLoadKey (fun _ => rfl) (fun _ => rfl) fun _ _ _ => by
    refine onFreeKey_leaves ?_ _
    exact TrunksStand.of_eq rfl rfl rfl

theorem eraseKey_trunksStand : StandingRow .eraseKey :=
  standingRow_of_take execEraseKey (fun _ => rfl) (fun _ => rfl) fun _ _ _ => by
    refine onFreeKey_leaves ?_ _
    exact TrunksStand.of_eq rfl rfl rfl

theorem resync_trunksStand : StandingRow .resync :=
  standingRow_of_take execResync (fun _ => rfl) (fun _ => rfl) fun _ _ _ => by
    unfold resyncId
    split
    · trivial
    · split
      · trivial
      · split
        · exact TrunksStand.of_eq rfl rfl rfl
        · trivial

theorem armWatch_trunksStand : StandingRow .armWatch :=
  standingRow_of_take execArmWatch (fun _ => rfl) (fun _ => rfl) fun _ _ s => by
    unfold armWatchOn
    split
    · trivial
    · split
      · trivial
      · split
        · trivial
        · exact s.setWatch_trunksStand _ _

theorem disarmWatch_trunksStand : StandingRow .disarmWatch :=
  standingRow_of_take execDisarmWatch (fun _ => rfl) (fun _ => rfl) fun _ _ s => by
    dsimp only
    split
    · trivial
    · exact (s.clearHold_trunksStand _).trans (State.setWatch_trunksStand _ _ _)

theorem clearTrace_trunksStand : StandingRow .clearTrace :=
  standingRow_of_take execClearTrace (fun _ => rfl) (fun _ => rfl) fun _ _ s => by
    unfold clearTraceOf
    split
    · trivial
    · split
      · trivial
      · exact TrunksStand.refl s
      · exact (s.clearHold_trunksStand _).trans (State.setWatch_trunksStand _ _ _)

theorem releaseHold_trunksStand : StandingRow .releaseHold :=
  standingRow_of_take execReleaseHold (fun _ => rfl) (fun _ => rfl) fun _ _ s => by
    unfold releaseHoldOf
    split
    · trivial
    · split
      · trivial
      · trivial
      · exact s.clearHold_trunksStand _

theorem frameStart_trunksStand : StandingRow .frameStart := by
  intro s t h
  change execFrameStart s = _ at h
  unfold execFrameStart at h
  obtain rfl := Host.Outcome.next.inj h
  have hopened : TrunksStand s s.openFrame := .of_eq rfl rfl rfl
  exact ((hopened.trans (Work.promoteAll_trunksStand (Work.start s.openFrame))).trans
    (Work.carryAll_trunksStand _)).trans (Work.finish_onlyPorts _).sameCalls.trunksStand

/-- The commands that write trunk slots, groups or the endpoints of records in another way than by
releases. -/
def WritesTrunks (i : Instr) : Prop :=
  match i with
  | .connect | .setTrunk | .setGroup | .restartCold | .powerOn | .resetPin => True
  | _ => False

/-- Every other command that writes the tables of calls leaves slots and groups. -/
theorem exec_trunksStand {i : Instr} (hi : WritesCalls i) (hnot : ¬WritesTrunks i) :
    StandingRow i := by
  cases i
  case loadKey => exact loadKey_trunksStand
  case eraseKey => exact eraseKey_trunksStand
  case resync => exact resync_trunksStand
  case armWatch => exact armWatch_trunksStand
  case disarmWatch => exact disarmWatch_trunksStand
  case clearTrace => exact clearTrace_trunksStand
  case releaseHold => exact releaseHold_trunksStand
  case frameStart => exact frameStart_trunksStand
  case connect => exact absurd trivial hnot
  case setTrunk => exact absurd trivial hnot
  case setGroup => exact absurd trivial hnot
  case restartCold => exact absurd trivial hnot
  case powerOn => exact absurd trivial hnot
  case resetPin => exact absurd trivial hnot
  all_goals exact hi.elim

/-! ### Groups that are recounted (R116, R122) -/

/-- A re-evaluation settles a group whose abatement is below its onset, whatever its busy count has
become (R122). -/
theorem Group.settled_congestionAfter {g : Group} (h : g.abatement < g.onset) :
    ({ g with congested := congestionAfter g } : Group).Settled := by
  refine ⟨h, ?_⟩
  cases hg : g.congested <;>
    simp only [congestionAfter, hg, if_true, Bool.false_eq_true, if_false, decide_eq_true_eq] <;>
    split <;> omega

/-- All that a recount does to a group. -/
theorem Work.recount_group (w : Work) (k : Nat) (f : Nat → Nat) (g : Nat) :
    (w.recount k f).state.group g =
      if g = k ∧ k < 8 then
        { w.state.group k with
          busy := f (w.state.group k).busy
          congested := congestionAfter { w.state.group k with busy := f (w.state.group k).busy } }
      else w.state.group g := by
  by_cases hk : k < 8
  · rw [Work.recount_state w k f hk, State.group_setGroup]
  · have hstay : ∀ (s : State) (v : Group), (s.setGroup k v).group g = s.group g := fun s v => by
      rw [State.group_setGroup, if_neg fun h => hk h.2]
    unfold Work.recount
    rw [Work.reevaluate_state, hstay, Work.update_state, hstay, if_neg fun h => hk h.2]

/-- t is s after groups have been recounted: the slots and the settings stand, and a group that was
settled is settled. -/
structure Recounts (s t : State) : Prop where
  slots : t.slots = s.slots
  settings : ∀ g, ∃ busy congested,
    t.group g = { s.group g with busy := busy, congested := congested }
  settled : ∀ g, (s.group g).Settled → (t.group g).Settled

theorem Recounts.of_groups {s t : State} (hslots : t.slots = s.slots)
    (hgroups : t.groups = s.groups) : Recounts s t := by
  have hgroup : ∀ g, t.group g = s.group g := fun g => by unfold State.group; rw [hgroups]
  exact ⟨hslots, fun g => ⟨_, _, hgroup g⟩, fun g h => by rwa [hgroup]⟩

theorem Recounts.refl (s : State) : Recounts s s := .of_groups rfl rfl

theorem TrunksStand.recounts {s t : State} (h : TrunksStand s t) : Recounts s t :=
  .of_groups h.slots h.groups

theorem Recounts.trans {s t u : State} (h : Recounts s t) (h' : Recounts t u) : Recounts s u where
  slots := h'.slots.trans h.slots
  settings g := by
    obtain ⟨busy, congested, hst⟩ := h.settings g
    obtain ⟨busy', congested', htu⟩ := h'.settings g
    exact ⟨busy', congested', by rw [htu, hst]⟩
  settled g hs := h'.settled g (h.settled g hs)

theorem Work.recount_recounts (w : Work) (k : Nat) (f : Nat → Nat) :
    Recounts w.state (w.recount k f).state where
  slots := by
    have hslots := congrArg State.slots (w.recount_onlyCalls k f)
    exact hslots
  settings g := by
    rw [Work.recount_group]
    split
    · rename_i h
      rw [h.1]
      exact ⟨_, _, rfl⟩
    · exact ⟨_, _, rfl⟩
  settled g hs := by
    rw [Work.recount_group]
    split
    · rename_i h
      rw [h.1] at hs
      obtain ⟨habatement, -⟩ := hs
      exact Group.settled_congestionAfter
        (g := { w.state.group k with busy := f (w.state.group k).busy }) habatement
    · exact hs

/-! ### Releases and CONNECT recount groups (R97, R121, R151) -/

theorem Work.leaveSlot_recounts (w : Work) (e : Nat) : Recounts w.state (w.leaveSlot e).state := by
  unfold Work.leaveSlot
  split
  · exact w.recount_recounts _ _
  · exact .refl _

theorem Work.dropped_recounts (w : Work) (c : Connection) :
    Recounts w.state (w.dropped c).state := by
  simp only [Work.dropped, Work.update_state]
  unfold State.freeLeg
  split <;> exact .of_groups rfl rfl

theorem Work.release_recounts (reason : Option ReleaseReason) (w : Work) (c : Connection) :
    Recounts w.state (w.release reason c).state := by
  rw [Work.release_eq]
  exact (((w.dropped_recounts c).trans (Work.leaveSlot_recounts _ _)).trans
    (Work.leaveSlot_recounts _ _)).trans (.of_groups rfl rfl)

theorem ReleaseChain.recounts {s t : State} (h : ReleaseChain s t) : Recounts s t := by
  induction h with
  | stand h => exact h.trunksStand.recounts
  | release reason w c => exact w.release_recounts reason c
  | trans _ _ ih ih' => exact ih.trans ih'

theorem ReleaseChain.preempt (victims : List Nat) (w : Work) :
    ReleaseChain w.state (victims.foldl Work.preempt w).state := by
  induction victims generalizing w with
  | nil => exact .refl _
  | cons v victims ih => exact ((ReleaseChain.refl w.state).releaseWhere _ _).trans (ih _)

theorem Work.enterSlots_recounts (es : List Nat) (w : Work) :
    Recounts w.state (es.foldl Work.enterSlot w).state := by
  induction es generalizing w with
  | nil => exact .refl _
  | cons e es ih => exact (w.recount_recounts _ _).trans (ih _)

/-- The record as it comes into the table, before its slots are counted (R97). -/
def Work.entered (w : Work) (r : ConnectRequest) (c : Connection) : Work :=
  (w.update fun s => { s with connections := insertConnection c s.connections }).update
    fun s => (c.privacy.map (s.allocateLeg r.start)).getD s

theorem Work.makeConnection_eq (w : Work) (r : ConnectRequest) (c : Connection) :
    w.makeConnection r c =
      ([c.source, c.destination].filter w.state.newlyBusy).foldl Work.enterSlot (w.entered r c) :=
  rfl

theorem Work.entered_trunks (w : Work) (r : ConnectRequest) (c : Connection) :
    (w.entered r c).state.slots = w.state.slots
      ∧ (w.entered r c).state.groups = w.state.groups := by
  unfold Work.entered
  simp only [Work.update_state]
  cases c.privacy <;> exact ⟨rfl, rfl⟩

theorem Work.makeConnection_recounts (w : Work) (r : ConnectRequest) (c : Connection) :
    Recounts w.state (w.makeConnection r c).state := by
  obtain ⟨hslots, hgroups⟩ := w.entered_trunks r c
  rw [Work.makeConnection_eq]
  exact (Recounts.of_groups hslots hgroups).trans (Work.enterSlots_recounts _ _)

theorem connect_recounts {s t : State} (h : exec .connect s = .next t) : Recounts s t :=
  rel_of_take (fun h => h.trunksStand.recounts) .trans execConnect (fun _ => rfl) (fun _ => rfl)
    (fun _ _ s => by
      unfold connectTake
      split
      · trivial
      split
      · trivial
      · exact (ReleaseChain.preempt _ (Work.start s)).recounts.trans
          (Work.makeConnection_recounts _ _ _)) h

/-! ### The laws of the trunk groups (R113, R114, R122) -/

/-- The laws that O53 speaks of. -/
def CongestionLaws (s : State) : Prop := GroupLaw s ∧ CongestionLaw s

theorem CongestionLaws.of_recounts {s t : State} (hs : CongestionLaws s) (h : Recounts s t) :
    CongestionLaws t := by
  obtain ⟨hgroup, hcongestion⟩ := hs
  obtain ⟨-, hsettled⟩ := hgroup.settledGroups hcongestion
  obtain ⟨hslots, hsettings⟩ := hgroup
  refine ⟨⟨fun n => ?_, fun g => ?_⟩, fun g => ?_⟩
  · unfold State.slot
    rw [h.slots]
    exact hslots n
  · obtain ⟨_, _, hg⟩ := h.settings g
    rw [hg]
    exact hsettings g
  · obtain ⟨-, hhysteresis⟩ := h.settled g (hsettled g)
    exact hhysteresis

/-- A row whose own answers keep the laws of the trunk groups. -/
theorem congestionLaws_of_take {i : Instr} {mine : OrderRecord → Bool} {codes : List Byte → Bool}
    {authority : Authority} {body : Port → List Byte → State → Answer}
    (meaning : State → Host.Outcome State Fault Refusal) (hexec : ∀ s, exec i s = meaning s)
    (htake : ∀ s, meaning s = takeOrder mine codes authority body s)
    (hbody : ∀ p params u, (body p params u).Leaves fun t => CongestionLaws u → CongestionLaws t) :
    KeepingRow CongestionLaws i := fun _ _ hs h =>
  rel_of_take (R := fun s t => CongestionLaws s → CongestionLaws t)
    (fun h hs => hs.of_recounts h.trunksStand.recounts) (fun h h' hs => h' (h hs)) meaning hexec
    htake hbody h hs

/-- SET TRUNK gives a slot a group that exists (R111). -/
theorem CongestionLaws.setSlot {s : State} (hs : CongestionLaws s) (n : Nat) {v : TrunkSlot}
    (hv : v.group ≤ 7) : CongestionLaws (s.setSlot n v) := by
  obtain ⟨⟨hslots, hsettings⟩, hcongestion⟩ := hs
  refine ⟨⟨fun m => ?_, hsettings⟩, hcongestion⟩
  rw [State.slot_setSlot]
  split
  · exact hv
  · exact hslots m

theorem setTrunk_keepsCongestion : KeepingRow CongestionLaws .setTrunk :=
  congestionLaws_of_take execSetTrunk (fun _ => rfl) (fun _ => rfl) fun _ params s => by
    unfold setTrunkSlot
    dsimp only
    split
    · trivial
    rename_i hrange
    split
    · trivial
    · have hgroup : param1 params 2 ≤ 7 := by
        simp only [Bool.or_eq_true, decide_eq_true_eq, not_or, Nat.not_lt] at hrange
        exact hrange.2
      exact fun hs => hs.setSlot _ hgroup

/-- R113: the settings of a group are legal. -/
def Group.Legal (g : Group) : Prop :=
  g.quota ≤ 64 ∧ g.reserve ≤ g.quota ∧ 1 ≤ g.reserveClass ∧ g.reserveClass ≤ 3
    ∧ g.onset ≤ 64 ∧ g.abatement < g.onset

/-- SET GROUP stores legal settings where the reserve class is one (R114). -/
theorem clampedSettings_legal (params : List Byte) (g : Group) (hzero : param1 params 3 ≠ 0)
    (hthree : param1 params 3 ≤ 3) : (clampedSettings params g).Legal := by
  simp only [Group.Legal, clampedSettings, clampTo]
  omega

/-- A group whose new settings are legal, re-evaluated (R114, R122). -/
theorem CongestionLaws.setGroup {s : State} (hs : CongestionLaws s) (n : Nat) {v : Group}
    (hv : v.Legal) : CongestionLaws (s.setGroup n { v with congested := congestionAfter v }) := by
  obtain ⟨⟨hslots, hsettings⟩, hcongestion⟩ := hs
  refine ⟨⟨hslots, fun g => ?_⟩, fun g => ?_⟩ <;> rw [State.group_setGroup] <;> split
  · exact hv
  · exact hsettings g
  · obtain ⟨-, -, -, -, -, habatement⟩ := hv
    obtain ⟨-, hhysteresis⟩ := Group.settled_congestionAfter habatement
    exact hhysteresis
  · exact hcongestion g

/-- What SET GROUP stores: the settings as clamped, and the congestion state re-evaluated (R114). -/
theorem State.setGroup_reevaluate (s : State) {n : Nat} (hn : n < 8) (v : Group) :
    ((Work.start (s.setGroup n v)).reevaluate n).state =
      s.setGroup n { v with congested := congestionAfter v } := by
  rw [Work.reevaluate_state, Work.start_state, State.group_setGroup_same _ hn]
  simp [State.setGroup]

theorem setGroup_keepsCongestion : KeepingRow CongestionLaws .setGroup :=
  congestionLaws_of_take execSetGroup (fun _ => rfl) (fun _ => rfl) fun _ params s => by
    unfold setGroupSettings
    dsimp only
    split
    · trivial
    rename_i hrange
    simp only [Bool.or_eq_true, decide_eq_true_eq, beq_iff_eq, not_or, Nat.not_lt] at hrange
    obtain ⟨⟨hn, hzero⟩, hthree⟩ := hrange
    simp only [Answer.Leaves, s.setGroup_reevaluate (Nat.lt_succ_of_le hn)]
    exact fun hs => hs.setGroup _ (clampedSettings_legal params _ hzero hthree)

theorem CongestionLaws.startCold (s : State) (cause : RestartCause) :
    CongestionLaws (s.startCold cause) :=
  CongestionLaws.of_recounts (s := State.reset) ⟨GroupLaw.reset, CongestionLaw.reset⟩
    (.of_groups rfl rfl)

/-- The three commands that restart the part cold (R170, R173). -/
theorem cold_keepsCongestion :
    KeepingRow CongestionLaws .restartCold ∧ KeepingRow CongestionLaws .powerOn
      ∧ KeepingRow CongestionLaws .resetPin := by
  refine ⟨?_, fun s t _ h => ?_, fun s t hs h => ?_⟩
  · exact congestionLaws_of_take execRestartCold (fun _ => rfl) (fun _ => rfl)
      fun _ _ s _ => .startCold s _
  · obtain rfl := Host.Outcome.next.inj h
    exact .startCold s _
  · change execResetPin s = .next t at h
    unfold execResetPin at h
    split at h <;> obtain rfl := Host.Outcome.next.inj h
    · exact hs
    · exact (CongestionLaws.startCold s .pin).of_recounts (.of_groups rfl rfl)

theorem congestionLaws_writes {i : Instr} (hi : WritesCalls i) : KeepingRow CongestionLaws i := by
  obtain ⟨hrestart, hpower, hpin⟩ := cold_keepsCongestion
  by_cases hwrites : WritesTrunks i
  · cases i
    case connect => exact fun s t hs h => hs.of_recounts (connect_recounts h)
    case setTrunk => exact setTrunk_keepsCongestion
    case setGroup => exact setGroup_keepsCongestion
    case restartCold => exact hrestart
    case powerOn => exact hpower
    case resetPin => exact hpin
    all_goals exact hwrites.elim
  · exact fun s t hs h => hs.of_recounts (exec_trunksStand hi hwrites s t h).recounts

/-- Settles O53: groups are recounted, and a recount re-evaluates; or a row of `congestionLaws_writes`
keeps the laws. -/
theorem everyStepKeepsTheCongestionHysteresis :
    Obligations.EveryStepKeepsTheCongestionHysteresis := by
  unfold Obligations.EveryStepKeepsTheCongestionHysteresis
  intro s t hs h
  exact step_keeps_of_releaseChain (I := CongestionLaws) (fun hst hs => hs.of_recounts hst.recounts)
    (fun _ => congestionLaws_writes) hs h

end Sys2Proof.Machine
end

section
/-! SUPPORT. The law of the busy counts, O54: the slots that some record names, counted before and after
records leave the table or one comes in, beside what the recounts make of the busy counts (R97, R111,
R114, R116, R148, R151). -/

namespace Sys2Proof.Machine

/-! ### The slots that some record names -/

/-- How many slots of a group some record of the table names. -/
def State.busySlots (s : State) (g : Nat) : Nat :=
  (List.range 64).countP fun n => (s.slot n).group == g && s.named (96 + n)

theorem busyLaw_iff (s : State) : BusyLaw s ↔ ∀ g < 8, (s.group g).busy = s.busySlots g := .rfl

theorem TrunksStand.named {s t : State} (h : TrunksStand s t) (e : Nat) :
    t.named e = s.named e := by
  have hnamed : ∀ s : State, s.named e =
      (s.connections.map Connection.ends).any fun ends => ends.2.1 == e || ends.2.2.1 == e :=
    fun s => by
      rw [List.any_map]
      rfl
  rw [hnamed, hnamed, h.ends]

theorem BusyLaw.of_trunksStand {s t : State} (hs : BusyLaw s) (h : TrunksStand s t) :
    BusyLaw t := by
  unfold BusyLaw State.slot State.group
  simp only [h.slots, h.groups, h.named]
  exact hs

/-! ### A record leaves the table (R151) -/

/-- What one endpoint of a removed record does to a busy count (R151). -/
theorem Work.leaveSlot_busy (w : Work) (e : Nat) {g : Nat} (hg : g < 8) :
    ((w.leaveSlot e).state.group g).busy =
      (w.state.group g).busy - if w.state.leaves e g then 1 else 0 := by
  unfold Work.leaveSlot State.leaves
  by_cases hfree : (isTrunk e && !w.state.named e) = true
  · rw [if_pos hfree, hfree, Work.recount_group]
    by_cases hslot : (w.state.slot (slotOf e)).group = g
    · simp [hslot, hg]
    · simp [hslot, Ne.symm hslot]
  · rw [if_neg hfree, Bool.eq_false_iff.2 hfree]
    rfl

/-- What a release does to a busy count (R151). -/
theorem Work.release_busy (reason : Option ReleaseReason) (w : Work) (c : Connection) {g : Nat}
    (hg : g < 8) :
    ((w.release reason c).state.group g).busy = (w.state.group g).busy
      - ((if (w.dropped c).state.leaves c.source g then 1 else 0)
        + if (w.dropped c).state.leaves c.destination g then 1 else 0) := by
  rw [Work.release_eq]
  change ((((w.dropped c).leaveSlot c.source).leaveSlot c.destination).state.group g).busy = _
  rw [Work.leaveSlot_busy _ _ hg, Work.leaveSlot_busy _ _ hg, Work.leaveSlot_leaves,
    Work.dropped_group, Nat.sub_sub]

/-- The slots that stay busy and those that are left are the slots that were busy. -/
theorem State.busySlots_add_slotsLeft {s t : State} (hslot : ∀ n, t.slot n = s.slot n)
    (hsub : ∀ c ∈ t.connections, c ∈ s.connections) (g : Nat) :
    t.busySlots g + s.slotsLeft t.connections g = s.busySlots g := by
  refine countP_add_of_disjoint fun n _ => ?_
  have hnamed : t.named (96 + n) = true → s.named (96 + n) = true := fun h => by
    obtain ⟨c, hc, hn⟩ := List.any_eq_true.1 h
    exact List.any_eq_true.2 ⟨c, hsub c hc, hn⟩
  change _ + ((s.slot n).group == g && s.named (96 + n) && !t.named (96 + n)).toNat = _
  rw [hslot]
  revert hnamed
  cases (s.slot n).group == g <;> cases s.named (96 + n) <;> cases t.named (96 + n) <;> simp

/-- The laws that O54 speaks of. -/
def BusyLaws (s : State) : Prop := TableLaw s ∧ BusyLaw s

theorem BusyLaws.of_trunksStand {s t : State} (hs : BusyLaws s) (h : TrunksStand s t) :
    BusyLaws t := by
  have hshrinks : TableShrinks s t := by
    unfold TableShrinks
    rw [h.ends]
  exact ⟨hs.1.of_shrinks hshrinks, hs.2.of_trunksStand h⟩

/-- A record of the table is released (R148). -/
theorem BusyLaws.release {w : Work} (hw : BusyLaws w.state) (reason : Option ReleaseReason)
    {c : Connection} (hc : c ∈ w.state.connections) : BusyLaws (w.release reason c).state := by
  obtain ⟨htable, hbusy⟩ := hw
  refine ⟨htable.of_shrinks (w.release_shrinks reason c), fun g hg => ?_⟩
  have hconnections := w.release_connections reason c
  have hsum := State.busySlots_add_slotsLeft (w.release_onlyCalls reason c).slot
    (fun d hd => (List.mem_filter.1 (hconnections ▸ hd)).1) g
  rw [hconnections, ← Work.dropped_connections,
    Work.slotsLeft_dropped hc htable.1 (htable.source_ne_destination c hc)] at hsum
  rw [Work.release_busy reason w c hg, hbusy g hg]
  change w.state.busySlots g - _ = (w.release reason c).state.busySlots g
  omega

/-- Records of the table, in ascending id, are released one by one (R154). -/
theorem BusyLaws.foldl_release (reason : Option ReleaseReason) (cs : List Connection) {w : Work}
    (hw : BusyLaws w.state) (hcs : cs.Pairwise fun c d => c.id < d.id)
    (hmem : ∀ c ∈ cs, c ∈ w.state.connections) :
    BusyLaws (cs.foldl (Work.release reason) w).state := by
  induction cs generalizing w with
  | nil => exact hw
  | cons c cs ih =>
    obtain ⟨hfirst, hrest⟩ := List.pairwise_cons.1 hcs
    refine ih (hw.release reason (hmem c (by simp))) hrest fun d hd => ?_
    rw [Work.release_connections]
    exact List.mem_filter.2 ⟨hmem d (by simp [hd]), by simpa using (hfirst d hd).ne'⟩

theorem BusyLaws.keptByReleases : KeptByReleases BusyLaws where
  stand h hs := hs.of_trunksStand h.trunksStand
  tableLaw hs := hs.1
  releaseWhere reason _ hw := by
    obtain ⟨⟨hids, -, -⟩, -⟩ := id hw
    exact hw.foldl_release reason _ (hids.filter _) fun _ hc => List.mem_of_mem_filter hc

/-! ### A record comes into the table (R97, R116) -/

/-- Slots are counted into their groups (R97). -/
theorem Work.enterSlots_busy (es : List Nat) (w : Work) {g : Nat} (hg : g < 8) :
    ((es.foldl Work.enterSlot w).state.group g).busy =
      (w.state.group g).busy + w.state.slotsIn es g := by
  induction es generalizing w with
  | nil => rfl
  | cons e es ih =>
    have hone : ((w.enterSlot e).state.group g).busy =
        (w.state.group g).busy + if w.state.groupAt e == g then 1 else 0 := by
      change ((w.recount (w.state.groupAt e) (· + 1)).state.group g).busy = _
      rw [Work.recount_group]
      by_cases he : w.state.groupAt e = g
      · simp [he, hg]
      · simp [he, Ne.symm he]
    have hrest : (w.enterSlot e).state.slotsIn es g = w.state.slotsIn es g := by
      unfold State.slotsIn
      simp only [Work.enterSlot_groupAt]
    have hall : w.state.slotsIn (e :: es) g
        = w.state.slotsIn es g + if w.state.groupAt e == g then 1 else 0 := List.countP_cons ..
    rw [List.foldl_cons, ih, hone, hrest, hall, Nat.add_assoc, Nat.add_comm (w.state.slotsIn es g)]

/-- The endpoint is a slot of the group that no record names. -/
def State.newIn (s : State) (g e : Nat) : Bool := s.groupAt e == g && s.newlyBusy e

theorem State.newIn_slot (s : State) (g : Nat) {n : Nat} (hn : n < 64) :
    s.newIn g (96 + n) = ((s.slot n).group == g && !s.named (96 + n)) := by
  have htrunk : isTrunk (96 + n) = true := (isTrunk_iff _).2 ⟨by omega, by omega⟩
  rw [State.newIn, State.newlyBusy, htrunk, State.groupAt, Nat.add_sub_cancel_left, Bool.true_and]

theorem State.newIn_isTrunk {s : State} {g e : Nat} (h : s.newIn g e = true) :
    isTrunk e = true := by
  simp only [State.newIn, State.newlyBusy, Bool.and_eq_true] at h
  exact h.2.1

/-- The newly busy endpoints of a group are as many as its slots that a record would name first. -/
theorem State.slotsIn_newlyBusy (s : State) {c : Connection} (hne : c.source ≠ c.destination)
    (g : Nat) :
    s.slotsIn ([c.source, c.destination].filter s.newlyBusy) g =
      (List.range 64).countP fun n =>
        (s.slot n).group == g && !s.named (96 + n) && c.names (96 + n) := by
  have hends : s.slotsIn ([c.source, c.destination].filter s.newlyBusy) g =
      (if s.newIn g c.source then 1 else 0) + if s.newIn g c.destination then 1 else 0 := by
    rw [State.slotsIn, List.countP_filter, List.countP_cons, List.countP_cons, List.countP_nil,
      Nat.zero_add, Nat.add_comm]
    rfl
  rw [hends, ← countP_slot_of_endpoint (e := c.source) State.newIn_isTrunk,
    ← countP_slot_of_endpoint (e := c.destination) State.newIn_isTrunk]
  refine countP_add_of_disjoint fun n hn => ?_
  rw [← s.newIn_slot g (List.mem_range.1 hn), Connection.names]
  by_cases hs : c.source = 96 + n
  · have hd : c.destination ≠ 96 + n := fun hd => hne (hs.trans hd.symm)
    simp [hs, hd]
  · by_cases hd : c.destination = 96 + n
    · simp [hs, hd]
    · simp [beq_eq_false_iff_ne.2 hs, beq_eq_false_iff_ne.2 hd]

/-- The slots that were busy and those that a new record names first are the slots that are busy. -/
theorem State.busySlots_insert {s t : State} (hslot : ∀ n, t.slot n = s.slot n) {c : Connection}
    (hconnections : t.connections = insertConnection c s.connections) (g : Nat) :
    s.busySlots g + (List.range 64).countP (fun n =>
      (s.slot n).group == g && !s.named (96 + n) && c.names (96 + n)) = t.busySlots g := by
  refine countP_add_of_disjoint fun n _ => ?_
  have hnamed : t.named (96 + n) = (c.names (96 + n) || s.named (96 + n)) := by
    unfold State.named
    rw [hconnections, (insertConnection_perm c _).any_eq, List.any_cons]
  rw [hslot, hnamed]
  cases (s.slot n).group == g <;> cases s.named (96 + n) <;> cases c.names (96 + n) <;> rfl

/-- A record comes into the table, and its newly busy slots into their groups (R97). -/
theorem BusyLaw.makeConnection {w : Work} (hw : BusyLaw w.state) (r : ConnectRequest)
    {c : Connection} (hne : c.source ≠ c.destination) :
    BusyLaw (w.makeConnection r c).state := by
  intro g hg
  obtain ⟨hslots, hgroups⟩ := w.entered_trunks r c
  have hgroup : (w.entered r c).state.group g = w.state.group g := by
    unfold State.group
    rw [hgroups]
  have hin : ∀ es, (w.entered r c).state.slotsIn es g = w.state.slotsIn es g := fun es => by
    unfold State.slotsIn State.groupAt State.slot
    rw [hslots]
  have hcounted := State.busySlots_insert (w.makeConnection_onlyCalls r c).slot
    (w.makeConnection_connections r c) g
  change _ = (w.makeConnection r c).state.busySlots g
  rw [← hcounted, ← w.state.slotsIn_newlyBusy hne, Work.makeConnection_eq,
    Work.enterSlots_busy _ _ hg, hgroup, hin, hw g hg]
  rfl

theorem BusyLaws.preempt {w : Work} (hw : BusyLaws w.state) (victims : List Nat) :
    BusyLaws (victims.foldl Work.preempt w).state := by
  induction victims generalizing w with
  | nil => exact hw
  | cons v victims ih => exact ih (BusyLaws.keptByReleases.releaseWhere _ _ hw)

theorem connect_keepsBusy : KeepingRow BusyLaws .connect :=
  BusyLaws.keptByReleases.row_of_take execConnect (fun _ => rfl) (fun _ => rfl)
    fun _ _ s hs => by
      unfold connectTake
      split
      · trivial
      rename_i hchecks
      split
      · trivial
      · obtain ⟨⟨-, -, hne, -⟩, -⟩ := State.connectRefusal_eq_none hchecks
        have hpreempted : BusyLaws (Work.start s).state := hs
        exact ⟨hs.1.connect hchecks _ _, (hpreempted.preempt _).2.makeConnection _ hne⟩

/-! ### SET TRUNK and SET GROUP (R111, R114) -/

/-- A slot that no record names counts in no group (R111). -/
theorem BusyLaw.setSlot {s : State} (hs : BusyLaw s) {n : Nat} (v : TrunkSlot)
    (hfree : s.named (96 + n) = false) : BusyLaw (s.setSlot n v) := by
  intro g hg
  refine (hs g hg).trans (List.countP_congr fun m _ => ?_)
  rw [State.slot_setSlot]
  change _ ↔ (_ && s.named (96 + m)) = true
  split
  · rename_i h
    rw [h.1, hfree, Bool.and_false, Bool.and_false]
  · exact .rfl

theorem setTrunk_keepsBusy : KeepingRow BusyLaws .setTrunk :=
  BusyLaws.keptByReleases.row_of_take execSetTrunk (fun _ => rfl) (fun _ => rfl)
    fun _ _ s hs => by
      unfold setTrunkSlot
      dsimp only
      split
      · trivial
      · split
        · trivial
        · rename_i hfree
          exact ⟨hs.1.of_shrinks (.of_eq rfl), hs.2.setSlot _ (Bool.eq_false_iff.2 hfree)⟩

/-- The settings of a group are none of its busy count's concern (R114). -/
theorem BusyLaw.setGroup {s : State} (hs : BusyLaw s) (n : Nat) {v : Group}
    (hv : v.busy = (s.group n).busy) : BusyLaw (s.setGroup n v) := by
  intro g hg
  refine Eq.trans ?_ (hs g hg)
  rw [State.group_setGroup]
  split
  · rename_i h
    rw [hv, h.1]
  · rfl

theorem setGroup_keepsBusy : KeepingRow BusyLaws .setGroup :=
  BusyLaws.keptByReleases.row_of_take execSetGroup (fun _ => rfl) (fun _ => rfl)
    fun _ params s hs => by
      unfold setGroupSettings
      dsimp only
      split
      · trivial
      rename_i hrange
      simp only [Bool.or_eq_true, decide_eq_true_eq, beq_iff_eq, not_or, Nat.not_lt] at hrange
      obtain ⟨⟨hn, -⟩, -⟩ := hrange
      simp only [Answer.Leaves, s.setGroup_reevaluate (Nat.lt_succ_of_le hn)]
      exact ⟨hs.1.of_shrinks (.of_eq rfl), hs.2.setGroup _ rfl⟩

/-! ### Every command -/

theorem BusyLaws.reset : BusyLaws State.reset := ⟨TableLaw.reset, BusyLaw.reset⟩

theorem busyLaws_writes {i : Instr} (hi : WritesCalls i) : KeepingRow BusyLaws i := by
  obtain ⟨hrestart, hpower, hpin⟩ := BusyLaws.keptByReleases.coldRows BusyLaws.reset
  by_cases hwrites : WritesTrunks i
  · cases i
    case connect => exact connect_keepsBusy
    case setTrunk => exact setTrunk_keepsBusy
    case setGroup => exact setGroup_keepsBusy
    case restartCold => exact hrestart
    case powerOn => exact hpower
    case resetPin => exact hpin
    all_goals exact hwrites.elim
  · exact fun s t hs h => hs.of_trunksStand (exec_trunksStand hi hwrites s t h)

/-- Settles O54: the law stands under releases, and each row of `busyLaws_writes` keeps it. The premise
on the settings of groups is not needed: a group that does not exist is counted nowhere. -/
theorem everyStepKeepsTheBusyCounts : Obligations.EveryStepKeepsTheBusyCounts := by
  unfold Obligations.EveryStepKeepsTheBusyCounts
  rintro s t ⟨htable, -, hbusy⟩ h
  exact (BusyLaws.keptByReleases.step (fun _ => busyLaws_writes) ⟨htable, hbusy⟩ h).2

end Sys2Proof.Machine
end

section
/-! SUPPORT. SET TRUNK and SET GROUP: the settings as they are stored, and the reply and the event of a
re-evaluation, O35 (R111, R114, R122, R123). -/

namespace Sys2Proof.Machine

/-! ### SET TRUNK (R111) -/

/-- The mode that SET TRUNK stores (R176). -/
theorem trunkModeOf_getD (mode : Byte) (h : mode.toNat ≤ 2) :
    (trunkModeOf mode).getD .outOfService =
      if mode = 0 then .outOfService else if mode = 1 then .publicTrunk else .tie := by
  revert h
  revert mode
  decide +kernel

theorem setTrunk_of_takes {s : State} {p : Port} {tag n mode g : Byte} (hp : s.HolderAt p)
    (ht : s.Takes p (queuedOrder 0x40 tag [n, mode, g])) (hmode : mode.toNat ≤ 2) :
    exec .setTrunk s = .next (
      if 63 < n.toNat ∨ 7 < g.toNat then s.refusal p 0x40 tag .range []
      else if ∃ c ∈ s.connections, c.names (96 + n.toNat) = true then
        s.refusal p 0x40 tag .inUse []
      else s.done p 0x40 tag [n, mode, g] fun t => t.setSlot n.toNat
        ⟨if mode = 0 then .outOfService else if mode = 1 then .publicTrunk else .tie,
          g.toNat⟩) := by
  refine exec_of_answer execSetTrunk (fun _ => rfl) (fun _ => rfl) ht rfl rfl
    ((trunkModeOf_isSome_iff _ 1).2 hmode) (authorityCheck_holder hp) ?_
  refine State.replied_ite (by simp [param1, paramByte]) rfl fun _ => ?_
  have hnamed : (s.taken p).named (96 + n.toNat) = true
      ↔ ∃ c ∈ s.connections, c.names (96 + n.toNat) = true := by
    rw [State.taken_named, State.named_iff]
  refine State.replied_ite hnamed rfl fun _ => ?_
  rw [← trunkModeOf_getD mode hmode]
  simp only [param1, paramByte, List.getD_cons_zero, List.getD_cons_succ, byteOf_toNat]
  rfl

/-! ### SET GROUP (R114, R122, R123) -/

/-- The settings that SET GROUP stores, by its parameters (R114). -/
theorem clampedSettings_eq (g q rv r on ab : Byte) (old : Group) :
    clampedSettings [g, q, rv, r, on, ab] old =
      ⟨min 64 q.toNat, min (min 64 q.toNat) rv.toNat, r.toNat, max 1 (min 64 on.toNat),
        min (max 1 (min 64 on.toNat) - 1) ab.toNat, old.busy, old.congested⟩ := by
  simp [clampedSettings, param1, paramByte, clampTo, Nat.min_comm]

/-- A group is set to new settings and re-evaluated; the order that did it is replied to first, and
CONGESTION follows at a transition (R8, R114, R123). -/
theorem State.replied_reevaluate (s : State) (p : Port) (o : OrderRecord) (fields : List Byte)
    {n : Nat} (hn : n < 8) (v : Group) :
    (s.taken p).replied p o
        (.done fields ((Work.start ((s.taken p).setGroup n v)).reevaluate n)) =
      if congestionAfter v = v.congested then
        s.done p o.code o.tag fields fun t => t.setGroup n { v with congested := congestionAfter v }
      else (s.done p o.code o.tag fields fun t =>
          t.setGroup n { v with congested := congestionAfter v }).post
        (.congestion n (congestionAfter v) v.busy) := by
  rw [State.replied_done, State.setGroup_reevaluate _ hn, Work.reevaluate_events, Work.start_state,
    State.group_setGroup_same _ hn]
  split <;> rfl

theorem setGroup_of_takes {s : State} {p : Port} {tag g q rv r on ab : Byte} (hp : s.HolderAt p)
    (ht : s.Takes p (queuedOrder 0x41 tag [g, q, rv, r, on, ab])) {v : Group}
    (hv : clampedSettings [g, q, rv, r, on, ab] (s.group g.toNat) = v) :
    exec .setGroup s = .next (
      if 7 < g.toNat ∨ r.toNat = 0 ∨ 3 < r.toNat then s.refusal p 0x41 tag .range []
      else
        let stored := s.done p 0x41 tag
          (groupFields g.toNat { v with congested := congestionAfter v })
          fun t => t.setGroup g.toNat { v with congested := congestionAfter v }
        if congestionAfter v = v.congested then stored
        else stored.post (.congestion g.toNat (congestionAfter v) v.busy)) := by
  refine exec_of_answer execSetGroup (fun _ => rfl) (fun _ => rfl) ht rfl rfl rfl
    (authorityCheck_holder hp) ?_
  refine State.replied_ite (by simp [param1, paramByte, or_assoc]) rfl fun hrange => ?_
  rw [not_or, Nat.not_lt] at hrange
  obtain ⟨hle, -⟩ := hrange
  have hlt : g.toNat < 8 := Nat.lt_succ_of_le hle
  have hn : param1 [g, q, rv, r, on, ab] 0 = g.toNat := rfl
  simp only [hn, State.taken_group, hv, State.setGroup_reevaluate _ hlt,
    State.group_setGroup_same _ hlt]
  exact s.replied_reevaluate p _ _ hlt v

/-- Settles O35: each order by its own lemma, the settings as the statement clamps them. -/
theorem setTrunkAndSetGroupStoreTheirSettings :
    Obligations.SetTrunkAndSetGroupStoreTheirSettings := by
  unfold Obligations.SetTrunkAndSetGroupStoreTheirSettings
  intro s p tag n mode g q rv r on ab hp
  refine ⟨fun ht hmode => setTrunk_of_takes hp ht hmode, fun ht => ?_⟩
  have hset := setGroup_of_takes hp ht (clampedSettings_eq g q rv r on ab _)
  simp only [groupFields, byteOf_toNat, congestionAfter] at hset
  exact hset

end Sys2Proof.Machine
end

section
/-! SUPPORT. RESYNC and LOOK LEG: the record that names the leg, and the effect and the report of the
leg's state, O37 (R142, R145). -/

namespace Sys2Proof.Machine

/-! ### The privacy part of an id -/

/-- The privacy part found by an id stands in a record of that id. -/
theorem State.exists_record_of_privacy {s : State} {id : Nat} {part : PrivacyPart}
    (h : (s.connection id).bind (·.privacy) = some part) :
    ∃ d ∈ s.connections, d.id = id ∧ d.privacy = some part := by
  obtain ⟨d, hd, hpart⟩ := Option.bind_eq_some_iff.1 h
  exact ⟨d, List.mem_of_find?_eq_some hd, by simpa using List.find?_some hd, hpart⟩

/-- An id finds the privacy part of its record, in a table that is in order. -/
theorem TableLaw.privacy_eq {s : State} (ht : TableLaw s) {c : Connection} (hc : c ∈ s.connections) :
    (s.connection c.id).bind (·.privacy) = c.privacy := by
  rw [ht.connection_eq hc, Option.bind_some]

theorem TableLaw.id_le {s : State} (ht : TableLaw s) {c : Connection} (hc : c ∈ s.connections) :
    c.id ≤ 159 := by
  obtain ⟨-, -, hrange⟩ := ht
  obtain ⟨hid, -⟩ := hrange c hc
  exact Nat.le_of_lt_succ hid

/-! ### The answer of RESYNC (R142) -/

theorem resyncId_of_range {s : State} {id : Nat} (h : 159 < id) :
    resyncId id s = .refuse .range [] := if_pos (decide_eq_true h)

/-- RESYNC finds no DESCRAMBLE part. -/
theorem resyncId_of_noEntry {s : State} {id : Nat} (hle : id ≤ 159)
    (h : ∀ d ∈ s.connections, d.id = id → d.privacy = none
      ∨ ∃ q, d.privacy = some q ∧ q.direction = .scramble) :
    resyncId id s = .refuse .noEntry [] := by
  rw [resyncId, if_neg (by simpa using hle)]
  cases hpart : (s.connection id).bind (·.privacy) with
  | none => rfl
  | some part =>
    obtain ⟨d, hd, hid, hprivacy⟩ := State.exists_record_of_privacy hpart
    have hscramble : part.direction = .scramble := by simpa [hprivacy] using h d hd hid
    simp only [hscramble]

theorem resyncId_of_descramble {s : State} {id : Nat} {part : PrivacyPart} {leg : Leg}
    (hle : id ≤ 159) (hpart : (s.connection id).bind (·.privacy) = some part)
    (hdirection : part.direction = .descramble) (hleg : s.leg part.leg = some leg) :
    resyncId id s =
      .plain [byteOf id, byteOf part.leg, legStateCode leg.state, optionalByte leg.state.misses]
        (s.setLeg part.leg (some { leg with state := leg.state.resynced })) := by
  rw [resyncId, if_neg (by simpa using hle)]
  simp only [hpart, hdirection, hleg]

/-! ### The answer of LOOK LEG (R145) -/

theorem lookLegId_of_range {s : State} {id : Nat} (h : 159 < id) :
    lookLegId id s = .refuse .range [] := if_pos (decide_eq_true h)

theorem lookLegId_of_noEntry {s : State} {id : Nat} (hle : id ≤ 159)
    (h : ∀ d ∈ s.connections, d.id = id → d.privacy = none) :
    lookLegId id s = .refuse .noEntry [] := by
  rw [lookLegId, if_neg (by simpa using hle)]
  cases hpart : (s.connection id).bind (·.privacy) with
  | none => rfl
  | some part =>
    obtain ⟨d, hd, hid, hprivacy⟩ := State.exists_record_of_privacy hpart
    exact absurd (h d hd hid) (by simp [hprivacy])

/-- What LOOK LEG replies with, given the free bytes of an absent count (R145, log entry 9). -/
def lookLegFields (id : Nat) (part : PrivacyPart) (leg : Leg) (free : List Byte) : List Byte :=
  [byteOf id, byteOf part.leg, directionCode part.direction, byteOf leg.key, legStateCode leg.state]
    ++ legStateFields free leg.state

theorem lookLegId_of_leg {s : State} {id : Nat} {part : PrivacyPart} {leg : Leg} (hle : id ≤ 159)
    (hpart : (s.connection id).bind (·.privacy) = some part) (hleg : s.leg part.leg = some leg) :
    lookLegId id s =
      .plain (lookLegFields id part leg (s.freeBytes (freeBytesOfLeg leg.state)))
        (s.drawn (freeBytesOfLeg leg.state)) := by
  rw [lookLegId, if_neg (by simpa using hle)]
  simp only [hpart, hleg]
  rfl

theorem directionCode_eq (d : Direction) : directionCode d = if d = .scramble then 0 else 1 := by
  cases d <;> rfl

theorem freeBytesOfLeg_of_not_hunt {l : LegState} (h : ∀ i table, l ≠ .hunt i table) :
    freeBytesOfLeg l = 2 := by
  cases l with
  | hunt i table => exact absurd rfl (h i table)
  | _ => rfl

theorem State.length_freeBytes (s : State) (n : Nat) : (s.freeBytes n).length = n := by
  simp [State.freeBytes]

@[simp] theorem State.taken_freeBytes (s : State) (p : Port) (n : Nat) :
    (s.taken p).freeBytes n = s.freeBytes n := by
  simp only [State.freeBytes, State.taken_freeIndex]

/-! ### The takes -/

section takes

variable {s : State} {p : Port} {tag n : Byte}

theorem resync_of_answer {t : State} (ht : s.Takes p (queuedOrder 0x53 tag [n])) (hp : s.HolderAt p)
    (hanswer : (s.taken p).replied p (queuedOrder 0x53 tag [n]) (resyncId n.toNat (s.taken p)) = t) :
    exec .resync s = .next t :=
  exec_of_answer execResync (fun _ => rfl) (fun _ => rfl) ht rfl rfl rfl (authorityCheck_holder hp)
    hanswer

theorem lookLeg_of_answer {t : State} (ht : s.Takes p (queuedOrder 0x54 tag [n]))
    (hanswer : (s.taken p).replied p (queuedOrder 0x54 tag [n]) (lookLegId n.toNat (s.taken p)) = t) :
    exec .lookLeg s = .next t :=
  exec_of_answer execLookLeg (fun _ => rfl) (fun _ => rfl) ht rfl rfl rfl rfl hanswer

theorem resync_refused {outcome : OutcomeCode} (ht : s.Takes p (queuedOrder 0x53 tag [n]))
    (hp : s.HolderAt p) (h : resyncId n.toNat (s.taken p) = .refuse outcome []) :
    exec .resync s = .next (s.refusal p 0x53 tag outcome []) :=
  resync_of_answer ht hp (by rw [h]; rfl)

theorem lookLeg_refused {outcome : OutcomeCode} (ht : s.Takes p (queuedOrder 0x54 tag [n]))
    (h : lookLegId n.toNat (s.taken p) = .refuse outcome []) :
    exec .lookLeg s = .next (s.refusal p 0x54 tag outcome []) :=
  lookLeg_of_answer ht (by rw [h]; rfl)

/-- RESYNC of a DESCRAMBLE leg: the state it reports, and the state it leaves (R142). -/
theorem resync_of_takes {part : PrivacyPart} {leg : Leg} {old : List Byte} {state : LegState}
    (ht : s.Takes p (queuedOrder 0x53 tag [n])) (hp : s.HolderAt p) (hle : n.toNat ≤ 159)
    (hpart : (s.connection n.toNat).bind (·.privacy) = some part)
    (hdirection : part.direction = .descramble) (hleg : s.leg part.leg = some leg)
    (hold : [legStateCode leg.state, optionalByte leg.state.misses] = old)
    (hstate : leg.state.resynced = state) :
    exec .resync s = .next (s.done p 0x53 tag (n :: byteOf part.leg :: old) fun t =>
      t.setLeg part.leg (some { leg with state := state })) := by
  subst hold hstate
  refine resync_of_answer ht hp ?_
  rw [resyncId_of_descramble hle (by rwa [State.taken_connection]) hdirection
    (by rwa [State.taken_leg]), byteOf_toNat]
  rfl

/-- LOOK LEG reports the leg and draws the free bytes of its state (R145). -/
theorem lookLeg_of_takes {part : PrivacyPart} {leg : Leg} {k : Nat} {fields : List Byte}
    (ht : s.Takes p (queuedOrder 0x54 tag [n])) (hle : n.toNat ≤ 159)
    (hpart : (s.connection n.toNat).bind (·.privacy) = some part)
    (hleg : s.leg part.leg = some leg) (hk : freeBytesOfLeg leg.state = k)
    (hfields : lookLegFields n.toNat part leg (s.freeBytes k) = fields) :
    exec .lookLeg s = .next (s.done p 0x54 tag fields fun t =>
      { t with freeIndex := s.freeIndex + k }) := by
  subst hk hfields
  refine lookLeg_of_answer ht ?_
  rw [lookLegId_of_leg hle (by rwa [State.taken_connection]) (by rwa [State.taken_leg]),
    State.taken_freeBytes, ← s.taken_freeIndex p]
  rfl

/-- A hunting leg is reported without free bytes, and nothing changes (R145). -/
theorem lookLeg_of_hunt {part : PrivacyPart} {leg : Leg} {h : Byte} {table : List HuntEntry}
    (ht : s.Takes p (queuedOrder 0x54 tag [n])) (hle : n.toNat ≤ 159)
    (hpart : (s.connection n.toNat).bind (·.privacy) = some part)
    (hleg : s.leg part.leg = some leg) (hhunt : leg.state = .hunt h table) :
    exec .lookLeg s = .next (s.done p 0x54 tag (lookLegFields n.toNat part leg []) fun t => t) := by
  rw [lookLeg_of_takes ht hle hpart hleg (k := 0) (by rw [hhunt]; rfl) rfl]
  simp only [State.done, Nat.add_zero, ← s.taken_freeIndex p]
  rfl

end takes

/-- Settles O37: each refusal and each effect by its own lemma; the reports are read off the cases of
the leg's state. -/
theorem resyncAndLookLegActOnOneLeg : Obligations.ResyncAndLookLegActOnOneLeg := by
  unfold Obligations.ResyncAndLookLegActOnOneLeg
  intro s p tag n c part leg old
  refine ⟨⟨fun ht hp => ⟨fun hrange => resync_refused ht hp (resyncId_of_range hrange),
      fun hle h => resync_refused ht hp (resyncId_of_noEntry hle (by rwa [State.taken_connections]))⟩,
    fun ht => ⟨fun hrange => lookLeg_refused ht (lookLegId_of_range hrange),
      fun hle h => lookLeg_refused ht (lookLegId_of_noEntry hle (by rwa [State.taken_connections]))⟩⟩,
    fun htable hc hid hprivacy hleg => ?_⟩
  have hle : n.toNat ≤ 159 := hid ▸ htable.id_le hc
  have hpart : (s.connection n.toNat).bind (·.privacy) = some part := by
    rw [← hid, htable.privacy_eq hc, hprivacy]
  refine ⟨fun ht hp hdirection => ?_, fun ht => ?_⟩
  · refine resync_of_takes ht hp hle hpart hdirection hleg ?_ ?_
    · simp only [old]
      cases leg.state <;> rfl
    · cases leg.state <;> rfl
  intro head
  refine ⟨fun h table hhunt => ?_, fun hhunt => ?_⟩
  · rw [lookLeg_of_hunt ht hle hpart hleg hhunt, lookLegFields, hhunt, byteOf_toNat, directionCode_eq]
    rfl
  · refine ⟨s.freeBytes 2, s.length_freeBytes 2,
      lookLeg_of_takes ht hle hpart hleg (freeBytesOfLeg_of_not_hunt hhunt) ?_⟩
    rw [lookLegFields, byteOf_toNat, directionCode_eq]
    cases hstate : leg.state with
    | hunt h table => exact absurd hstate (hhunt h table)
    | _ => rfl

end Sys2Proof.Machine
end

section
/-! SUPPORT. What the watches hold, and the law of call trace read watch by watch: what keeps it while
records stand, while they leave through the release procedure, and where a hold ends (R152, R160, R163,
R165). -/

namespace Sys2Proof.Machine

/-! ### What a watch holds (R163) -/

/-- The watch holds the record of an id: its hold flag is set, and its trace record names the id. -/
def Watch.holds (id : Nat) : Watch → Bool
  | .tripped _ _ hold tr => hold && tr.connectionId == id
  | .idle | .armed .. => false

theorem Watch.holds_iff (id : Nat) (v : Watch) :
    v.holds id = true ↔ ∃ tr, v.trace = some (tr, true) ∧ tr.connectionId = id := by
  cases v with
  | tripped _ _ hold tr => simp [Watch.holds, Watch.trace, and_comm]
  | idle | armed => simp [Watch.holds, Watch.trace]

/-- A watch whose hold flag is clear holds nothing. -/
theorem Watch.holds_eq_false {v : Watch} (h : ∀ tr hold, v.trace = some (tr, hold) → hold = false)
    (id : Nat) : v.holds id = false := by
  rw [Bool.eq_false_iff, ne_eq, Watch.holds_iff]
  rintro ⟨tr, htrace, -⟩
  cases h tr true htrace

theorem State.watch_of_le (s : State) {n : Nat} (h : 4 ≤ n) : s.watch n = .idle := by
  simp [State.watch, h]

theorem State.watch_of_watches {s t : State} (h : t.watches = s.watches) (n : Nat) :
    t.watch n = s.watch n := by
  unfold State.watch
  rw [h]

/-- Some watch of the part has a property: read of the table of watches, and of the watches by index. -/
theorem State.any_watches (s : State) (p : Watch → Bool) :
    s.watches.toList.any p = (List.range 4).any fun n => p (s.watch n) := by
  rw [Bool.eq_iff_iff, List.any_eq_true, List.any_eq_true]
  simp only [Vector.mem_toList_iff, Vector.mem_iff_getElem, List.mem_range]
  constructor
  · rintro ⟨_, ⟨n, hn, rfl⟩, hp⟩
    exact ⟨n, hn, by simpa [State.watch, hn] using hp⟩
  · rintro ⟨n, hn, hp⟩
    exact ⟨_, ⟨n, hn, rfl⟩, by simpa [State.watch, hn] using hp⟩

theorem State.heldByWatch_eq (s : State) (id : Nat) :
    s.heldByWatch id = (List.range 4).any fun n => (s.watch n).holds id := by
  rw [← s.any_watches]
  refine any_congr_of_mem fun v _ => ?_
  cases v with
  | tripped _ _ hold tr => cases hold <;> rfl
  | idle | armed => rfl

theorem State.heldByWatch_iff (s : State) (id : Nat) :
    s.heldByWatch id = true ↔ ∃ n tr, (s.watch n).trace = some (tr, true) ∧ tr.connectionId = id := by
  rw [s.heldByWatch_eq, List.any_eq_true]
  simp only [Watch.holds_iff, List.mem_range]
  refine exists_congr fun n => and_iff_right_of_imp ?_
  rintro ⟨tr, htrace, -⟩
  by_contra hn
  rw [s.watch_of_le (Nat.le_of_not_lt hn)] at htrace
  cases htrace

/-! ### The law, watch by watch -/

/-- What the law says of the trace record of one watch (R163, R165). -/
def State.TraceStands (s : State) (v : Watch) : Prop :=
  ∀ tr hold, v.trace = some (tr, hold) →
    (hold = true → tr.releasedSince = false)
    ∧ (tr.releasedSince = false → ∃ c ∈ s.connections, c.id = tr.connectionId ∧ c.live = true)

theorem watchLaw_iff (s : State) :
    WatchLaw s ↔
      (∀ m n identity, (s.watch m).watched = some identity →
        (s.watch n).watched = some identity → m = n)
      ∧ (∀ n, s.TraceStands (s.watch n))
      ∧ ∀ c ∈ s.connections, c.traceHeld = s.heldByWatch c.id := by
  refine and_congr_right fun _ => and_congr_right fun _ => forall₂_congr fun c _ => ?_
  rw [← s.heldByWatch_iff]
  exact Bool.eq_iff_iff.symm

/-- A watch without a trace record. -/
theorem State.traceStands_of_none {s : State} {v : Watch} (h : v.trace = none) :
    s.TraceStands v := fun _ _ htrace => by
  rw [h] at htrace
  cases htrace

/-- A trace record stands where the LIVE records it may name stand. -/
theorem State.TraceStands.of_live {s t : State} {v : Watch} (h : s.TraceStands v)
    (hlive : ∀ c ∈ s.connections, c.live = true → ∃ d ∈ t.connections, d.id = c.id ∧ d.live = true) :
    t.TraceStands v := fun tr hold htrace => by
  obtain ⟨hflag, hstands⟩ := h tr hold htrace
  refine ⟨hflag, fun hsince => ?_⟩
  obtain ⟨c, hc, hid, hl⟩ := hstands hsince
  obtain ⟨d, hd, hdid, hdl⟩ := hlive c hc hl
  exact ⟨d, hd, hdid.trans hid, hdl⟩

/-- The laws that O59 speaks of. -/
def WatchLaws (s : State) : Prop := TableLaw s ∧ WatchLaw s

/-- The law reads the connection table and the watches alone. -/
theorem WatchLaw.of_eq {s t : State} (h : WatchLaw s) (hconnections : t.connections = s.connections)
    (hwatches : t.watches = s.watches) : WatchLaw t := by
  unfold WatchLaw
  simp only [State.watch_of_watches hwatches, hconnections]
  exact h

theorem WatchLaws.of_eq {s t : State} (hs : WatchLaws s)
    (hconnections : t.connections = s.connections) (hwatches : t.watches = s.watches) :
    WatchLaws t :=
  ⟨hs.1.of_shrinks (.of_eq hconnections), hs.2.of_eq hconnections hwatches⟩

/-- The record of a trace hold stands, and is LIVE (R163, R165). -/
theorem WatchLaw.exists_of_holds {s : State} (h : WatchLaw s) {n id : Nat}
    (hholds : (s.watch n).holds id = true) : ∃ c ∈ s.connections, c.id = id ∧ c.live = true := by
  obtain ⟨-, htraces, -⟩ := (watchLaw_iff s).1 h
  obtain ⟨tr, htrace, rfl⟩ := (Watch.holds_iff _ _).1 hholds
  obtain ⟨hflag, hstands⟩ := htraces n tr true htrace
  exact hstands (hflag rfl)

/-! ### Records leave through the release procedure (R152) -/

theorem Watch.afterReleases_watched (ids : Nat → Bool) (v : Watch) :
    (v.afterReleases ids).watched = v.watched := by
  cases v with
  | tripped _ _ _ tr =>
    unfold Watch.afterReleases
    dsimp only
    split <;> rfl
  | idle | armed => rfl

/-- A trace record that is not marked after releases is the one before, and names none of the released
records. -/
theorem Watch.afterReleases_unmarked {ids : Nat → Bool} {v : Watch} {tr : TraceRecord} {hold : Bool}
    (h : (v.afterReleases ids).trace = some (tr, hold)) (hsince : tr.releasedSince = false) :
    v.trace = some (tr, hold) ∧ ids tr.connectionId = false := by
  cases v with
  | tripped identity request flag old =>
    unfold Watch.afterReleases at h
    dsimp only at h
    split at h
    · simp only [Watch.trace, Option.some.injEq, Prod.mk.injEq] at h
      obtain ⟨rfl, -⟩ := h
      cases hsince
    · rename_i hstill
      simp only [Watch.trace, Option.some.injEq, Prod.mk.injEq] at h
      obtain ⟨rfl, rfl⟩ := h
      exact ⟨rfl, by simpa [hsince] using hstill⟩
  | idle | armed => cases h

/-- A mark clears the hold flag, and releases set no flag. -/
theorem Watch.afterReleases_held {ids : Nat → Bool} {v : Watch} {tr : TraceRecord}
    (hv : ∀ tr, v.trace = some (tr, true) → tr.releasedSince = false)
    (h : (v.afterReleases ids).trace = some (tr, true)) : tr.releasedSince = false := by
  cases v with
  | tripped identity request flag old =>
    unfold Watch.afterReleases at h
    dsimp only at h
    split at h
    · cases h
    · exact hv tr h
  | idle | armed => cases h

/-- A hold on a record that stays is neither made nor ended by releases. -/
theorem Watch.afterReleases_holds {ids : Nat → Bool} {id : Nat} (h : ids id = false) (v : Watch) :
    (v.afterReleases ids).holds id = v.holds id := by
  cases v with
  | tripped identity request hold tr =>
    unfold Watch.afterReleases
    dsimp only
    split
    · rename_i hgone
      have hne : tr.connectionId ≠ id := by
        rintro rfl
        simp [h] at hgone
      simp [Watch.holds, hne]
    · rfl
  | idle | armed => rfl

theorem WatchLaw.of_releases {s t : State} (ht : TableLaw s) (h : WatchLaw s)
    {gone : Connection → Bool} (hreleases : Releases s t gone) : WatchLaw t := by
  obtain ⟨hconnections, -, -, hwatches, -⟩ := hreleases
  obtain ⟨hids, -, -⟩ := ht
  obtain ⟨hwatched, htraces, hheld⟩ := (watchLaw_iff s).1 h
  generalize hgoneIds : (fun id => s.connections.any fun c => gone c && c.id == id) = ids at hwatches
  have hwatch : ∀ n, t.watch n = (s.watch n).afterReleases ids := fun n => by
    unfold State.watch
    rw [hwatches, Vector.getElem?_map]
    cases s.watches[n]? <;> rfl
  have hkept : ∀ c ∈ s.connections, ids c.id = gone c := fun c hc => by
    rw [← hgoneIds, Bool.eq_iff_iff, List.any_eq_true]
    constructor
    · rintro ⟨d, hd, hboth⟩
      obtain ⟨hdgone, hid⟩ : gone d = true ∧ d.id = c.id := by simpa using hboth
      rwa [← eq_of_id_eq hids hd hc hid]
    · exact fun hgone => ⟨c, hc, by simp [hgone]⟩
  refine (watchLaw_iff t).2 ⟨fun m n identity => ?_, fun n tr hold htrace => ?_, fun c hc => ?_⟩
  · rw [hwatch, hwatch, Watch.afterReleases_watched, Watch.afterReleases_watched]
    exact hwatched m n identity
  · rw [hwatch] at htrace
    refine ⟨?_, fun hsince => ?_⟩
    · rintro rfl
      exact Watch.afterReleases_held (fun old hbefore => (htraces n old true hbefore).1 rfl) htrace
    · obtain ⟨hbefore, hstays⟩ := Watch.afterReleases_unmarked htrace hsince
      obtain ⟨c, hc, hid, hlive⟩ := (htraces n tr hold hbefore).2 hsince
      refine ⟨c, ?_, hid, hlive⟩
      rw [hconnections, List.mem_filter, ← hkept c hc, hid, hstays]
      exact ⟨hc, rfl⟩
  · rw [hconnections, List.mem_filter] at hc
    obtain ⟨hc, hstays⟩ := hc
    have hid : ids c.id = false := by rw [hkept c hc]; simpa using hstays
    rw [hheld c hc, s.heldByWatch_eq, t.heldByWatch_eq]
    simp only [hwatch, Watch.afterReleases_holds hid]

theorem WatchLaws.keptByReleases : KeptByReleases WatchLaws where
  stand h hs := hs.of_eq h.connections h.watches
  tableLaw hs := hs.1
  releaseWhere {w} reason gone hs := ⟨hs.1.of_shrinks (w.releaseWhere_shrinks reason gone),
    hs.2.of_releases hs.1 (Work.releaseWhere_releases reason gone hs.1)⟩

/-! ### A hold ends (R163) -/

/-- Some other watch than the one at an index holds the record of an id. -/
def State.heldByOthers (s : State) (n id : Nat) : Bool :=
  (List.range 4).any fun m => m != n && (s.watch m).holds id

/-- A record once the hold of a watch has ended: trace-held only while another watch holds it. -/
def State.unheldBy (s : State) (n : Nat) (c : Connection) : Connection :=
  if (s.watch n).holds c.id = true then { c with traceHeld := s.heldByOthers n c.id } else c

theorem holdCleared_iff (s t : State) (n : Nat) (v : Watch) :
    HoldCleared s t n v ↔ t.watches = s.watches.setIfInBounds n v
      ∧ t.connections = s.connections.map (s.unheldBy n) := by
  refine and_congr_right fun _ => Eq.congr_right (List.map_congr_left fun c _ => ?_)
  refine if_congr (by cases s.watch n <;> rfl) (congrArg (fun held => { c with traceHeld := held }) ?_)
    rfl
  exact any_congr_of_mem fun m _ => by cases s.watch m <;> rfl

theorem State.unheldBy_id (s : State) (n : Nat) (c : Connection) : (s.unheldBy n c).id = c.id := by
  unfold State.unheldBy
  split <;> rfl

theorem State.unheldBy_live (s : State) (n : Nat) (c : Connection) :
    (s.unheldBy n c).live = c.live := by
  unfold State.unheldBy
  split <;> rfl

theorem State.unheldBy_ends (s : State) (n : Nat) (c : Connection) :
    (s.unheldBy n c).ends = c.ends := by
  unfold State.unheldBy
  split <;> rfl

/-- The watches that hold a record, where one of them is known not to. -/
theorem State.heldByWatch_eq_others {s : State} {n id : Nat} (h : (s.watch n).holds id = false) :
    s.heldByWatch id = s.heldByOthers n id := by
  rw [s.heldByWatch_eq]
  refine any_congr_of_mem fun m _ => ?_
  by_cases hm : m = n
  · rw [hm, h, Bool.and_false]
  · rw [bne_iff_ne.2 hm, Bool.true_and]

section ends

variable {s t : State} {n : Nat} {v : Watch}

theorem HoldCleared.watch (h : HoldCleared s t n v) (m : Nat) :
    t.watch m = if m = n ∧ n < 4 then v else s.watch m :=
  (State.watch_of_watches (s := s.setWatch n v) h.1 m).trans (s.watch_setWatch n m v)

/-- Where a watch has been written that does not hold the record, the others hold what they held. -/
theorem State.heldByWatch_of_watches {id : Nat} (h : t.watches = s.watches.setIfInBounds n v)
    (hn : n < 4) (hfree : v.holds id = false) : t.heldByWatch id = s.heldByOthers n id := by
  have hwatch : ∀ m, t.watch m = (s.setWatch n v).watch m := State.watch_of_watches h
  have hmine : (t.watch n).holds id = false := by rwa [hwatch, State.watch_setWatch_same _ hn]
  rw [State.heldByWatch_eq_others hmine]
  refine any_congr_of_mem fun m _ => ?_
  by_cases hm : m = n
  · rw [hm, bne_self_eq_false, Bool.false_and, Bool.false_and]
  · rw [hwatch, State.watch_setWatch_ne _ hm]

/-- The law stands where a hold ends and the watch becomes one that watches no other identity and has
no other trace record. -/
theorem WatchLaw.of_holdCleared (hs : WatchLaw s) (h : HoldCleared s t n v) (hn : n < 4)
    (hwatches : ∀ identity, v.watched = some identity → (s.watch n).watched = some identity)
    (htrace : ∀ tr hold, v.trace = some (tr, hold) →
      hold = false ∧ ∃ old, (s.watch n).trace = some (tr, old)) : WatchLaw t := by
  obtain ⟨hwatched, htraces, hheld⟩ := (watchLaw_iff s).1 hs
  obtain ⟨hcleared, hconnections⟩ := (holdCleared_iff s t n v).1 h
  have hstill : ∀ m identity, (t.watch m).watched = some identity →
      (s.watch m).watched = some identity := fun m identity => by
    rw [h.watch]
    split
    · rename_i hm
      rw [hm.1]
      exact hwatches identity
    · exact id
  have hbefore : ∀ m, s.TraceStands (t.watch m) := fun m => by
    rw [h.watch]
    split
    · intro tr hold hv
      obtain ⟨rfl, old, hbefore⟩ := htrace tr hold hv
      exact ⟨nofun, (htraces n tr old hbefore).2⟩
    · exact htraces m
  refine (watchLaw_iff t).2 ⟨fun m k identity hm hk => ?_, fun m => ?_, fun c hc => ?_⟩
  · exact hwatched m k identity (hstill m identity hm) (hstill k identity hk)
  · refine (hbefore m).of_live fun c hc hlive => ⟨s.unheldBy n c, ?_, s.unheldBy_id n c, ?_⟩
    · rw [hconnections]
      exact List.mem_map_of_mem hc
    · rwa [s.unheldBy_live]
  · rw [hconnections] at hc
    obtain ⟨d, hd, rfl⟩ := List.mem_map.1 hc
    rw [s.unheldBy_id, State.heldByWatch_of_watches hcleared hn
      (Watch.holds_eq_false (fun tr hold hv => (htrace tr hold hv).1) _)]
    unfold State.unheldBy
    split
    · rfl
    · rename_i hnot
      rw [hheld d hd, State.heldByWatch_eq_others (Bool.eq_false_iff.2 hnot)]

theorem WatchLaws.of_holdCleared (hs : WatchLaws s) (h : HoldCleared s t n v) (hn : n < 4)
    (hwatches : ∀ identity, v.watched = some identity → (s.watch n).watched = some identity)
    (htrace : ∀ tr hold, v.trace = some (tr, hold) →
      hold = false ∧ ∃ old, (s.watch n).trace = some (tr, old)) : WatchLaws t := by
  refine ⟨hs.1.of_shrinks ?_, hs.2.of_holdCleared h hn hwatches htrace⟩
  obtain ⟨-, hconnections⟩ := (holdCleared_iff s t n v).1 h
  unfold TableShrinks
  rw [hconnections, List.map_map]
  exact (List.map_congr_left fun c _ => s.unheldBy_ends n c).symm ▸ List.Sublist.refl _

end ends

/-! ### The orders that end a hold (R164, R166) -/

/-- A watch once its hold flag has been cleared (R163). -/
def Watch.unheld : Watch → Watch
  | .tripped identity request _ tr => .tripped identity request false tr
  | .armed identity request => .armed identity request
  | .idle => .idle

theorem Watch.unheld_watched (v : Watch) : v.unheld.watched = v.watched := by cases v <;> rfl

theorem Watch.unheld_trace {v : Watch} {tr : TraceRecord} {hold : Bool}
    (h : v.unheld.trace = some (tr, hold)) : hold = false ∧ ∃ old, v.trace = some (tr, old) := by
  cases v with
  | tripped identity request old trace =>
    simp only [Watch.unheld, Watch.trace, Option.some.injEq, Prod.mk.injEq] at h
    obtain ⟨rfl, rfl⟩ := h
    exact ⟨rfl, old, rfl⟩
  | idle | armed => cases h

/-- A watch that holds nothing leaves every record as it is. -/
theorem State.map_unheldBy_of_free {s : State} {n : Nat} (h : ∀ id, (s.watch n).holds id = false) :
    s.connections.map (s.unheldBy n) = s.connections := by
  refine (List.map_congr_left fun c _ => ?_).trans (List.map_id _)
  unfold State.unheldBy
  rw [h, if_neg Bool.false_ne_true]
  rfl

theorem State.setIfInBounds_watch (s : State) {n : Nat} (hn : n < 4) :
    s.watches.setIfInBounds n (s.watch n) = s.watches := by
  have hwatch : s.watch n = s.watches[n] := by simp [State.watch, hn]
  rw [hwatch]
  ext1 m hm
  rw [Vector.getElem_setIfInBounds]
  split
  · rename_i h
    simp only [h]
  · rfl

/-- What the clearing of a hold does (R163). -/
theorem State.clearHold_holdCleared (s : State) {n : Nat} (hn : n < 4) :
    HoldCleared s (s.clearHold n) n (s.watch n).unheld := by
  have hfree : (∀ id, (s.watch n).holds id = false) → (s.watch n).unheld = s.watch n →
      HoldCleared s s n (s.watch n).unheld := fun hholds hunheld =>
    (holdCleared_iff ..).2
      ⟨by rw [hunheld, s.setIfInBounds_watch hn], (State.map_unheldBy_of_free hholds).symm⟩
  unfold State.clearHold
  cases hv : s.watch n with
  | idle | armed =>
    rw [hv] at hfree
    exact hfree (fun _ => rfl) rfl
  | tripped identity request hold tr =>
    cases hold with
    | false =>
      rw [hv] at hfree
      exact hfree (fun _ => rfl) rfl
    | true =>
      have hothers : (s.setWatch n (.tripped identity request false tr)).heldByWatch tr.connectionId
          = s.heldByOthers n tr.connectionId :=
        State.heldByWatch_of_watches rfl hn rfl
      refine (holdCleared_iff ..).2 ⟨rfl, List.map_congr_left fun c _ => ?_⟩
      dsimp only
      rw [hothers]
      unfold State.unheldBy
      rw [hv]
      by_cases hid : c.id = tr.connectionId
      · simp [Watch.holds, hid]
      · simp [Watch.holds, hid, Ne.symm hid]

/-- A watch whose hold has been cleared is then written anew (R166). -/
theorem HoldCleared.setWatch {s t : State} {n : Nat} {v : Watch} (h : HoldCleared s t n v)
    (v' : Watch) : HoldCleared s (t.setWatch n v') n v' := by
  obtain ⟨hwatches, hconnections⟩ := (holdCleared_iff s t n v).1 h
  refine (holdCleared_iff ..).2 ⟨?_, hconnections⟩
  rw [State.setWatch, hwatches, Vector.setIfInBounds_setIfInBounds]

theorem WatchLaws.clearHold {s : State} (hs : WatchLaws s) {n : Nat} (hn : n < 4) :
    WatchLaws (s.clearHold n) :=
  hs.of_holdCleared (s.clearHold_holdCleared hn) hn
    (fun _ hwatched => (Watch.unheld_watched _).symm.trans hwatched) fun _ _ => Watch.unheld_trace

/-- The hold is cleared and the trace record discarded (R166). -/
theorem WatchLaws.clearHold_setWatch {s : State} (hs : WatchLaws s) {n : Nat} (hn : n < 4)
    {v : Watch} (hwatched : ∀ i, v.watched = some i → (s.watch n).watched = some i)
    (htrace : v.trace = none) : WatchLaws ((s.clearHold n).setWatch n v) :=
  hs.of_holdCleared ((s.clearHold_holdCleared hn).setWatch v) hn hwatched fun _ _ hv => by
    rw [htrace] at hv
    cases hv

end Sys2Proof.Machine
end

section
/-! SUPPORT. The law of call trace, O59, concluded: the orders of the trace unit, CONNECT, the frame start,
and the rows that write neither a record nor a watch (R97, R102, R111, R114, R129, R130, R142, R161 to
R166). -/

namespace Sys2Proof.Machine

/-! ### The orders of the trace unit (R161, R164, R166) -/

theorem Watch.identity_eq_watched (v : Watch) : v.identity = v.watched := by cases v <;> rfl

/-- Some watch watches the identity, as ARM WATCH finds it (R161). -/
theorem State.any_watches_identity (s : State) (identity : Nat) :
    (s.watches.toList.any fun v => v.identity == some identity) = true
      ↔ ∃ n, (s.watch n).watched = some identity := by
  rw [s.any_watches, List.any_eq_true]
  simp only [Watch.identity_eq_watched, beq_iff_eq, List.mem_range]
  refine exists_congr fun n => and_iff_right_of_imp fun hwatched => ?_
  by_contra hn
  rw [s.watch_of_le (Nat.le_of_not_lt hn)] at hwatched
  cases hwatched

/-- An IDLE watch is ARMED with an identity that no watch watches (R161). -/
theorem WatchLaws.arm {s : State} (hs : WatchLaws s) {n : Nat} (hn : n < 4) (hidle : s.watch n = .idle)
    {identity : Nat} (hnew : ∀ m, (s.watch m).watched ≠ some identity) (request : Bool) :
    WatchLaws (s.setWatch n (.armed identity request)) := by
  obtain ⟨htable, hlaw⟩ := hs
  obtain ⟨hwatched, htraces, hheld⟩ := (watchLaw_iff s).1 hlaw
  have hsame := State.watch_setWatch_same s hn (.armed identity request)
  have hother := fun m (hm : m ≠ n) => State.watch_setWatch_ne s hm (.armed identity request)
  refine ⟨htable.of_shrinks (.of_eq rfl), (watchLaw_iff _).2 ⟨fun m k i hm hk => ?_, fun m => ?_,
    fun c hc => ?_⟩⟩
  · by_cases hmn : m = n <;> by_cases hkn : k = n
    · rw [hmn, hkn]
    · rw [hmn, hsame] at hm
      rw [hother k hkn] at hk
      exact absurd (hk.trans hm.symm) (hnew k)
    · rw [hkn, hsame] at hk
      rw [hother m hmn] at hm
      exact absurd (hm.trans hk.symm) (hnew m)
    · rw [hother m hmn] at hm
      rw [hother k hkn] at hk
      exact hwatched m k i hm hk
  · by_cases hm : m = n
    · rw [hm, hsame]
      exact State.traceStands_of_none rfl
    · rw [hother m hm]
      exact htraces m
  · have hfree : (s.watch n).holds c.id = false := by rw [hidle]; rfl
    rw [State.heldByWatch_of_watches rfl hn rfl, ← State.heldByWatch_eq_others hfree]
    exact hheld c hc

theorem armWatch_keepsTrace : KeepingRow WatchLaws .armWatch :=
  WatchLaws.keptByReleases.row_of_take execArmWatch (fun _ => rfl) (fun _ => rfl)
    fun _ _ s hs => by
      unfold armWatchOn
      split
      · trivial
      · split
        · trivial
        rename_i hnone
        split
        · trivial
        · rename_i n hfound
          have hidle : s.watch n = .idle := by simpa using List.find?_some hfound
          have hn : n < 4 := List.mem_range.1 (List.mem_of_find?_eq_some hfound)
          rw [s.any_watches_identity, not_exists] at hnone
          exact hs.arm hn hidle hnone _

theorem watchIndex_lt {n : Nat} (h : ¬decide (3 < n) = true) : n < 4 := by
  simpa [Nat.lt_succ_iff] using h

theorem disarmWatch_keepsTrace : KeepingRow WatchLaws .disarmWatch :=
  WatchLaws.keptByReleases.row_of_take execDisarmWatch (fun _ => rfl) (fun _ => rfl)
    fun _ _ _ hs => by
      dsimp only
      split
      · trivial
      · rename_i hrange
        exact hs.clearHold_setWatch (watchIndex_lt hrange) nofun rfl

theorem clearTrace_keepsTrace : KeepingRow WatchLaws .clearTrace :=
  WatchLaws.keptByReleases.row_of_take execClearTrace (fun _ => rfl) (fun _ => rfl)
    fun _ _ _ hs => by
      unfold clearTraceOf
      split
      · trivial
      · rename_i hrange
        split
        · trivial
        · exact hs
        · rename_i hv
          exact hs.clearHold_setWatch (watchIndex_lt hrange) (fun _ h => by rw [hv]; exact h) rfl

theorem releaseHold_keepsTrace : KeepingRow WatchLaws .releaseHold :=
  WatchLaws.keptByReleases.row_of_take execReleaseHold (fun _ => rfl) (fun _ => rfl)
    fun _ _ _ hs => by
      unfold releaseHoldOf
      split
      · trivial
      · rename_i hrange
        split
        · trivial
        · trivial
        · exact hs.clearHold (watchIndex_lt hrange)

/-! ### Rows that write neither a record nor a watch (R111, R114, R129, R130, R142) -/

theorem setTrunk_keepsTrace : KeepingRow WatchLaws .setTrunk :=
  WatchLaws.keptByReleases.row_of_take execSetTrunk (fun _ => rfl) (fun _ => rfl)
    fun _ _ _ hs => by
      unfold setTrunkSlot
      dsimp only
      split
      · trivial
      · split
        · trivial
        · exact hs.of_eq rfl rfl

theorem setGroup_keepsTrace : KeepingRow WatchLaws .setGroup :=
  WatchLaws.keptByReleases.row_of_take execSetGroup (fun _ => rfl) (fun _ => rfl)
    fun _ _ _ hs => by
      unfold setGroupSettings
      dsimp only
      split
      · trivial
      · simp only [Answer.Leaves, Work.reevaluate_state]
        exact hs.of_eq rfl rfl

theorem loadKey_keepsTrace : KeepingRow WatchLaws .loadKey :=
  WatchLaws.keptByReleases.row_of_take execLoadKey (fun _ => rfl) (fun _ => rfl)
    fun _ _ _ hs => onFreeKey_leaves_of_unused fun _ => hs.of_eq rfl rfl

theorem eraseKey_keepsTrace : KeepingRow WatchLaws .eraseKey :=
  WatchLaws.keptByReleases.row_of_take execEraseKey (fun _ => rfl) (fun _ => rfl)
    fun _ _ _ hs => onFreeKey_leaves_of_unused fun _ => hs.of_eq rfl rfl

theorem resync_keepsTrace : KeepingRow WatchLaws .resync :=
  WatchLaws.keptByReleases.row_of_take execResync (fun _ => rfl) (fun _ => rfl)
    fun _ _ _ hs => by
      unfold resyncId
      split
      · trivial
      · split
        · trivial
        · split
          · exact hs.of_eq rfl rfl
          · trivial

/-! ### CONNECT (R97) -/

/-- A record that is not trace-held comes into the table, at an id that no record had: no watch holds
it. -/
theorem WatchLaw.insert {s t : State} (h : WatchLaw s) (ht : TableLaw t) {c : Connection}
    (hconnections : t.connections = insertConnection c s.connections)
    (hwatches : t.watches = s.watches) (hfree : c.traceHeld = false) : WatchLaw t := by
  obtain ⟨hwatched, htraces, hheld⟩ := (watchLaw_iff s).1 h
  obtain ⟨hids, -, -⟩ := ht
  have hmem : ∀ d, d ∈ t.connections ↔ d = c ∨ d ∈ s.connections := fun d => by
    rw [hconnections, mem_insertConnection]
  have hnew : ∀ d ∈ s.connections, c.id ≠ d.id := by
    have hperm := hids.imp fun hlt => Nat.ne_of_lt hlt
    rw [hconnections, (insertConnection_perm c _).pairwise_iff Ne.symm] at hperm
    exact (List.pairwise_cons.1 hperm).1
  have hwatch := State.watch_of_watches hwatches
  have hsame : ∀ id, t.heldByWatch id = s.heldByWatch id := fun id => by
    simp only [State.heldByWatch_eq, hwatch]
  refine (watchLaw_iff t).2 ⟨?_, fun n => ?_, fun d hd => ?_⟩
  · simpa only [hwatch] using hwatched
  · rw [hwatch]
    exact (htraces n).of_live fun d hd hlive => ⟨d, (hmem d).2 (.inr hd), rfl, hlive⟩
  · rw [hsame]
    rcases (hmem d).1 hd with rfl | hd
    · refine hfree.trans (Bool.eq_false_iff.2 fun hholds => ?_).symm
      rw [s.heldByWatch_eq, List.any_eq_true] at hholds
      obtain ⟨n, -, hn⟩ := hholds
      obtain ⟨e, he, hid, -⟩ := h.exists_of_holds hn
      exact hnew e he hid.symm
    · exact hheld d hd

theorem WatchLaws.preempt {w : Work} (hw : WatchLaws w.state) (victims : List Nat) :
    WatchLaws (victims.foldl Work.preempt w).state := by
  induction victims generalizing w with
  | nil => exact hw
  | cons v victims ih => exact ih (WatchLaws.keptByReleases.releaseWhere _ _ hw)

theorem connect_keepsTrace : KeepingRow WatchLaws .connect :=
  WatchLaws.keptByReleases.row_of_take execConnect (fun _ => rfl) (fun _ => rfl)
    fun _ _ s hs => by
      unfold connectTake
      split
      · trivial
      rename_i hchecks
      split
      · trivial
      · have hpreempted : WatchLaws (Work.start s).state := hs
        have htable := hs.1.connect hchecks
        exact ⟨htable _ _, (hpreempted.preempt _).2.insert (htable _ _)
          (Work.makeConnection_connections ..) (Work.makeConnection_watches ..) rfl⟩

/-! ### The frame start (R102, R162, R163) -/

section frame

variable {s : State}

/-- The watch trips at a frame start and holds the record of an id (R162, R163). -/
def State.holdsAtFrame (s : State) (id : Nat) : Watch → Bool
  | .armed identity true => (s.tripOf identity).any fun t => t.1.id == id
  | .armed _ false | .idle | .tripped .. => false

theorem State.heldAtFrame_eq_any (s : State) (c : Connection) :
    s.heldAtFrame c = (List.range 4).any fun n => s.holdsAtFrame c.id (s.watch n) :=
  any_congr_of_mem fun n _ => by
    cases s.watch n with
    | armed identity request => cases request <;> rfl
    | idle | tripped => rfl

theorem State.watchAfterFrame_watched (s : State) (f : Word32) (v : Watch) :
    (s.watchAfterFrame f v).watched = v.watched := by
  cases v with
  | armed identity request =>
    unfold State.watchAfterFrame
    dsimp only
    split <;> rfl
  | idle | tripped => rfl

/-- A watch holds after a frame start what it held, and what it trips on with a hold request. -/
theorem State.watchAfterFrame_holds (s : State) (f : Word32) (v : Watch) (id : Nat) :
    (s.watchAfterFrame f v).holds id = (v.holds id || s.holdsAtFrame id v) := by
  cases v with
  | armed identity request =>
    unfold State.watchAfterFrame
    dsimp only
    cases htrip : s.tripOf identity with
    | none => cases request <;> simp [State.holdsAtFrame, Watch.holds, htrip]
    | some t => cases request <;> simp [State.holdsAtFrame, Watch.holds, State.tracedBy, htrip]
  | idle => rfl
  | tripped => exact (Bool.or_false _).symm

theorem State.tripOf_mem {identity : Nat} {c : Connection} {role : TraceRole}
    (h : s.tripOf identity = some (c, role)) : c ∈ s.connections := by
  obtain ⟨d, hd, hmap⟩ := List.exists_of_findSome?_eq_some h
  obtain ⟨_, -, heq⟩ := Option.map_eq_some_iff.1 hmap
  obtain ⟨rfl, -⟩ := Prod.mk.inj heq
  exact List.mem_of_mem_filter hd

/-- Every record is LIVE after a frame start, so that every trace record of a trip stands (R102, R162). -/
theorem State.TraceStands.afterFrame {t : State} {v : Watch} (h : s.TraceStands v)
    (hconnections : t.connections = s.connections.map s.recordAfterFrame) (f : Word32) :
    t.TraceStands (s.watchAfterFrame f v) := by
  have hlive : ∀ c ∈ s.connections, ∃ d ∈ t.connections, d.id = c.id ∧ d.live = true := fun c hc =>
    ⟨s.recordAfterFrame c, hconnections ▸ List.mem_map_of_mem hc, rfl, rfl⟩
  have hstill : t.TraceStands v := h.of_live fun c hc _ => hlive c hc
  cases v with
  | armed identity request =>
    unfold State.watchAfterFrame
    dsimp only
    split
    · rename_i c role htrip
      intro tr hold htrace
      simp only [Watch.trace, Option.some.injEq, Prod.mk.injEq] at htrace
      obtain ⟨rfl, -⟩ := htrace
      exact ⟨fun _ => rfl, fun _ => hlive c (State.tripOf_mem htrip)⟩
    · exact hstill
  | idle | tripped => exact hstill

theorem TableLaw.finished_watch (ht : TableLaw s) (n : Nat) :
    s.carriedWork.finish.watch n = s.watchAfterFrame (s.frameCounter + 1) (s.watch n) := by
  by_cases hn : n < 4
  · rw [Work.finish, State.postAll_watch, ← s.watchAfterFrame_eq, State.watch, s.carriedWork_watches]
    exact ht.promoted.watch n hn
  · rw [State.watch_of_le _ (Nat.le_of_not_lt hn), State.watch_of_le _ (Nat.le_of_not_lt hn)]
    rfl

theorem TableLaw.finished_connections (ht : TableLaw s) :
    s.carriedWork.finish.connections = s.connections.map s.recordAfterFrame := by
  rw [Work.finish, State.postAll_connections, s.carriedWork_connections, ht.promoted_connections]

/-- Only a record that is promoted is trace-held anew (R163). -/
theorem TableLaw.recordAfterFrame_traceHeld (ht : TableLaw s) {c : Connection}
    (hc : c ∈ s.connections) :
    (s.recordAfterFrame c).traceHeld = (c.traceHeld || s.heldAtFrame c) := by
  unfold State.recordAfterFrame
  cases hlive : c.live with
  | true => rw [ht.heldAtFrame_live hc hlive, Bool.and_false]
  | false => rfl

theorem WatchLaw.carried (h : WatchLaw s) (ht : TableLaw s) : WatchLaw s.carriedWork.finish := by
  obtain ⟨hwatched, htraces, hheld⟩ := (watchLaw_iff s).1 h
  refine (watchLaw_iff _).2 ⟨fun m n identity => ?_, fun n => ?_, fun d hd => ?_⟩
  · simp only [ht.finished_watch, State.watchAfterFrame_watched]
    exact hwatched m n identity
  · rw [ht.finished_watch]
    exact (htraces n).afterFrame ht.finished_connections _
  · rw [ht.finished_connections] at hd
    obtain ⟨c, hc, rfl⟩ := List.mem_map.1 hd
    rw [ht.recordAfterFrame_traceHeld hc, hheld c hc, State.heldByWatch_eq, State.heldByWatch_eq,
      s.heldAtFrame_eq_any, any_or_any]
    refine any_congr_of_mem fun n _ => ?_
    rw [ht.finished_watch, State.watchAfterFrame_holds]
    rfl

end frame

theorem frameStart_keepsTrace : KeepingRow WatchLaws .frameStart := by
  rintro s t ⟨htable, hlaw⟩ h
  obtain rfl : s.carriedWork.finish = t := Host.Outcome.next.inj h
  exact ⟨htable.of_shrinks (frameStart_recedes s _ rfl).connections, hlaw.carried htable⟩

/-! ### Every command -/

theorem WatchLaws.reset : WatchLaws State.reset := ⟨TableLaw.reset, WatchLaw.reset⟩

theorem watchLaws_writes {i : Instr} (hi : WritesCalls i) : KeepingRow WatchLaws i := by
  obtain ⟨hrestart, hpower, hpin⟩ := WatchLaws.keptByReleases.coldRows WatchLaws.reset
  cases i
  case connect => exact connect_keepsTrace
  case setTrunk => exact setTrunk_keepsTrace
  case setGroup => exact setGroup_keepsTrace
  case loadKey => exact loadKey_keepsTrace
  case eraseKey => exact eraseKey_keepsTrace
  case resync => exact resync_keepsTrace
  case armWatch => exact armWatch_keepsTrace
  case disarmWatch => exact disarmWatch_keepsTrace
  case clearTrace => exact clearTrace_keepsTrace
  case releaseHold => exact releaseHold_keepsTrace
  case restartCold => exact hrestart
  case frameStart => exact frameStart_keepsTrace
  case powerOn => exact hpower
  case resetPin => exact hpin
  all_goals exact hi.elim

/-- Settles O59: the law stands under releases, and each row of `watchLaws_writes` keeps it. -/
theorem everyStepKeepsTraceHoldsWithTheirRecords :
    Obligations.EveryStepKeepsTraceHoldsWithTheirRecords := by
  unfold Obligations.EveryStepKeepsTraceHoldsWithTheirRecords
  intro s t hs h
  exact (WatchLaws.keptByReleases.step (fun _ => watchLaws_writes) hs h).2

end Sys2Proof.Machine
end

section
/-! SUPPORT. The orders of the trace unit: the watch that is armed, the hold that ends and what is
reported, O38, and LOOK WATCH, O39 (R161, R163, R164, R166, R167; log entries 9 and 25). -/

namespace Sys2Proof.Machine

/-! ### ARM WATCH (R161) -/

theorem armWatchOn_of_range {s : State} {identity : Nat} {request : Bool}
    (h : identity = 0 ∨ 9999 < identity) : armWatchOn identity request s = .refuse .range [] :=
  if_pos ((identityInRange_eq_false_iff identity).2 h)

theorem State.find_idle_eq_none {s : State} (h : ∀ m, m < 4 → s.watch m ≠ .idle) :
    ((List.range 4).find? fun n => s.watch n == .idle) = none := by
  simpa [List.find?_eq_none] using h

theorem State.find_idle_eq_some {s : State} {m : Nat} (hm : m < 4) (hidle : s.watch m = .idle)
    (hfirst : ∀ l, l < m → s.watch l ≠ .idle) :
    ((List.range 4).find? fun n => s.watch n == .idle) = some m := by
  rw [List.find?_range_eq_some]
  exact ⟨by simpa using hidle, List.mem_range.2 hm, fun l hl => by simpa using hfirst l hl⟩

section arm

variable {s : State} {identity : Nat} {request : Bool}

theorem armWatchOn_of_watched (hlow : 1 ≤ identity) (hhigh : identity ≤ 9999)
    (h : ∃ m, (s.watch m).watched = some identity) :
    armWatchOn identity request s = .refuse .alreadyExists [] := by
  unfold armWatchOn
  rw [if_neg (mt (identityInRange_eq_false_iff identity).1 (by omega)),
    if_pos ((s.any_watches_identity identity).2 h)]

theorem armWatchOn_of_full (hlow : 1 ≤ identity) (hhigh : identity ≤ 9999)
    (h : ∀ m, (s.watch m).watched ≠ some identity) (hbusy : ∀ m, m < 4 → s.watch m ≠ .idle) :
    armWatchOn identity request s = .refuse .full [] := by
  unfold armWatchOn
  rw [if_neg (mt (identityInRange_eq_false_iff identity).1 (by omega)),
    if_neg (mt (s.any_watches_identity identity).1 (not_exists.2 h)), State.find_idle_eq_none hbusy]

/-- An identity that no watch watches takes the first IDLE watch. -/
theorem armWatchOn_of_idle (hlow : 1 ≤ identity) (hhigh : identity ≤ 9999)
    (h : ∀ m, (s.watch m).watched ≠ some identity) {m : Nat} (hm : m < 4) (hidle : s.watch m = .idle)
    (hfirst : ∀ l, l < m → s.watch l ≠ .idle) :
    armWatchOn identity request s = .plain (byteOf m :: bytes2 identity ++ [yesNo request])
      (s.setWatch m (.armed identity request)) := by
  unfold armWatchOn
  rw [if_neg (mt (identityInRange_eq_false_iff identity).1 (by omega)),
    if_neg (mt (s.any_watches_identity identity).1 (not_exists.2 h)),
    State.find_idle_eq_some hm hidle hfirst]

end arm

/-- A hold request is reported as it was given (R161, R176). -/
theorem yesNo_flag {request : Byte} (h : request.toNat ≤ 1) : yesNo (request == 1) = request := by
  rcases eq_zero_or_one_of_toNat_le h with rfl | rfl <;> rfl

theorem armWatch_of_answer {s t : State} {tag iHi iLo request : Byte}
    (ht : s.Takes .m (queuedOrder 0x60 tag [iHi, iLo, request])) (hrequest : request.toNat ≤ 1)
    (hanswer : (s.taken .m).replied .m (queuedOrder 0x60 tag [iHi, iLo, request])
      (armWatchOn (iHi ++ iLo : Word16).toNat (request == 1) (s.taken .m)) = t) :
    exec .armWatch s = .next t :=
  exec_of_answer execArmWatch (fun _ => rfl) (fun _ => rfl) ht rfl rfl
    ((isFlag_iff [iHi, iLo, request] 2).2 hrequest) rfl hanswer

/-! ### The ends of a hold (R163, R164, R166) -/

section orders

variable {s : State} {tag n : Byte}

theorem disarmWatch_of_answer {t : State} (ht : s.Takes .m (queuedOrder 0x61 tag [n]))
    (hanswer : (s.taken .m).replied .m (queuedOrder 0x61 tag [n])
      (if decide (3 < n.toNat) = true then .refuse .range []
       else .plain (watchBeforeFields n.toNat (s.taken .m))
        (((s.taken .m).clearHold n.toNat).setWatch n.toNat .idle)) = t) :
    exec .disarmWatch s = .next t :=
  exec_of_answer execDisarmWatch (fun _ => rfl) (fun _ => rfl) ht rfl rfl rfl rfl hanswer

theorem clearTrace_of_answer {t : State} (ht : s.Takes .m (queuedOrder 0x62 tag [n]))
    (hanswer : (s.taken .m).replied .m (queuedOrder 0x62 tag [n])
      (clearTraceOf n.toNat (s.taken .m)) = t) : exec .clearTrace s = .next t :=
  exec_of_answer execClearTrace (fun _ => rfl) (fun _ => rfl) ht rfl rfl rfl rfl hanswer

theorem releaseHold_of_answer {t : State} (ht : s.Takes .m (queuedOrder 0x63 tag [n]))
    (hanswer : (s.taken .m).replied .m (queuedOrder 0x63 tag [n])
      (releaseHoldOf n.toNat (s.taken .m)) = t) : exec .releaseHold s = .next t :=
  exec_of_answer execReleaseHold (fun _ => rfl) (fun _ => rfl) ht rfl rfl rfl rfl hanswer

theorem lookWatch_of_answer {t : State} (ht : s.Takes .m (queuedOrder 0x64 tag [n]))
    (hanswer : (s.taken .m).replied .m (queuedOrder 0x64 tag [n])
      (lookWatchOf n.toNat (s.taken .m)) = t) : exec .lookWatch s = .next t :=
  exec_of_answer execLookWatch (fun _ => rfl) (fun _ => rfl) ht rfl rfl rfl rfl hanswer

end orders

/-- An order that was taken clears the hold of a watch: only watches and records are written (R163). -/
theorem State.clearHold_taken (s : State) (p : Port) (n : Nat) :
    (s.taken p).clearHold n = { s.taken p with
      watches := (s.clearHold n).watches, connections := (s.clearHold n).connections } := by
  unfold State.clearHold
  rw [State.taken_watch]
  cases hv : s.watch n with
  | idle | armed => cases p <;> rfl
  | tripped identity request hold tr => cases hold <;> cases p <;> rfl

theorem State.clearHold_setWatch_taken (s : State) (p : Port) (n : Nat) (v : Watch) :
    ((s.taken p).clearHold n).setWatch n v = { s.taken p with
      watches := ((s.clearHold n).setWatch n v).watches
      connections := ((s.clearHold n).setWatch n v).connections } := by
  rw [s.clearHold_taken]
  rfl

/-- The watch is written anew, its hold cleared: what DISARM WATCH and CLEAR TRACE reply with and leave
(R166). -/
theorem State.replied_watchBefore (s : State) (o : OrderRecord) {n : Byte} {v : Watch}
    {before : List Byte} (hbefore : watchBeforeFields n.toNat s = before) :
    (s.taken .m).replied .m o (.plain (watchBeforeFields n.toNat (s.taken .m))
      (((s.taken .m).clearHold n.toNat).setWatch n.toNat v)) =
      s.done .m o.code o.tag before fun t =>
        { t with
          watches := ((s.clearHold n.toNat).setWatch n.toNat v).watches
          connections := ((s.clearHold n.toNat).setWatch n.toNat v).connections } := by
  have hfields : watchBeforeFields n.toNat (s.taken .m) = before := by
    rw [← hbefore]
    simp only [watchBeforeFields, State.taken_watch]
  rw [hfields, s.clearHold_setWatch_taken]
  rfl

/-- The record that a trace record names is still trace-held while a watch holds it, and never once it
has been released (R164, log entry 25). -/
theorem WatchLaws.tracedStillHeld {s : State} (hs : WatchLaws s) {n : Nat} {tr : TraceRecord}
    {hold : Bool} (hv : (s.watch n).trace = some (tr, hold)) :
    s.tracedStillHeld tr = (!tr.releasedSince && s.heldByWatch tr.connectionId) := by
  obtain ⟨htable, hlaw⟩ := hs
  obtain ⟨-, htraces, hheld⟩ := (watchLaw_iff s).1 hlaw
  unfold State.tracedStillHeld
  cases hsince : tr.releasedSince with
  | true => rfl
  | false =>
    obtain ⟨c, hc, hid, -⟩ := (htraces n tr hold hv).2 hsince
    rw [← hid, htable.connection_eq hc, ← hheld c hc]
    rfl

/-- RELEASE HOLD: what it reports of the record that was held (R164). -/
theorem State.clearHold_tracedStillHeld {s : State} (hs : WatchLaws s) {n i : Nat} {r hold : Bool}
    {tr : TraceRecord} (hn : n < 4) (hv : s.watch n = .tripped i r hold tr) :
    (s.clearHold n).tracedStillHeld tr
      = (!tr.releasedSince && s.heldByOthers n tr.connectionId) := by
  have hcleared := s.clearHold_holdCleared hn
  have hwatch : (s.clearHold n).watch n = .tripped i r false tr := by
    rw [hcleared.watch, if_pos ⟨rfl, hn⟩, hv]
    rfl
  obtain ⟨hwatches, -⟩ := (holdCleared_iff ..).1 hcleared
  rw [(hs.clearHold hn).tracedStillHeld (n := n) (hold := false) (by rw [hwatch]; rfl),
    State.heldByWatch_of_watches hwatches hn (by rw [hv]; rfl)]

/-! ### The takes -/

section takes

variable {s : State} {tag n : Byte}

theorem watchOrders_refused (hrange : 3 < n.toNat) :
    (s.Takes .m (queuedOrder 0x61 tag [n]) →
      exec .disarmWatch s = .next (s.refusal .m 0x61 tag .range []))
    ∧ (s.Takes .m (queuedOrder 0x62 tag [n]) →
      exec .clearTrace s = .next (s.refusal .m 0x62 tag .range []))
    ∧ (s.Takes .m (queuedOrder 0x63 tag [n]) →
      exec .releaseHold s = .next (s.refusal .m 0x63 tag .range [])) := by
  refine ⟨fun ht => disarmWatch_of_answer ht ?_, fun ht => clearTrace_of_answer ht ?_,
    fun ht => releaseHold_of_answer ht ?_⟩
  · rw [if_pos (decide_eq_true hrange)]
    rfl
  · rw [clearTraceOf, if_pos (decide_eq_true hrange)]
    rfl
  · rw [releaseHoldOf, if_pos (decide_eq_true hrange)]
    rfl

theorem disarmWatch_of_takes (ht : s.Takes .m (queuedOrder 0x61 tag [n])) (hn : n.toNat ≤ 3)
    {before : List Byte} (hbefore : watchBeforeFields n.toNat s = before) :
    exec .disarmWatch s = .next (s.done .m 0x61 tag before fun t =>
      { t with
        watches := ((s.clearHold n.toNat).setWatch n.toNat .idle).watches
        connections := ((s.clearHold n.toNat).setWatch n.toNat .idle).connections }) := by
  refine disarmWatch_of_answer ht ?_
  rw [if_neg (by simpa using hn)]
  exact s.replied_watchBefore _ hbefore

theorem clearTrace_of_idle (ht : s.Takes .m (queuedOrder 0x62 tag [n])) (hn : n.toNat ≤ 3)
    (hv : s.watch n.toNat = .idle) :
    exec .clearTrace s = .next (s.refusal .m 0x62 tag .noEntry []) := by
  refine clearTrace_of_answer ht ?_
  rw [clearTraceOf, if_neg (by simpa using hn), State.taken_watch, hv]
  rfl

theorem clearTrace_of_armed {i : Nat} {r : Bool} (ht : s.Takes .m (queuedOrder 0x62 tag [n]))
    (hn : n.toNat ≤ 3) (hv : s.watch n.toNat = .armed i r) :
    exec .clearTrace s = .next (s.done .m 0x62 tag [n, 1, 0] fun t => t) := by
  refine clearTrace_of_answer ht ?_
  rw [clearTraceOf, if_neg (by simpa using hn), State.taken_watch, hv, watchBeforeFields,
    State.taken_watch, hv, byteOf_toNat]
  rfl

theorem clearTrace_of_tripped {i : Nat} {r hold : Bool} {tr : TraceRecord}
    (ht : s.Takes .m (queuedOrder 0x62 tag [n])) (hn : n.toNat ≤ 3)
    (hv : s.watch n.toNat = .tripped i r hold tr) {before : List Byte}
    (hbefore : watchBeforeFields n.toNat s = before) :
    exec .clearTrace s = .next (s.done .m 0x62 tag before fun t =>
      { t with
        watches := ((s.clearHold n.toNat).setWatch n.toNat (.armed i r)).watches
        connections := ((s.clearHold n.toNat).setWatch n.toNat (.armed i r)).connections }) := by
  refine clearTrace_of_answer ht ?_
  rw [clearTraceOf, if_neg (by simpa using hn), State.taken_watch, hv]
  exact s.replied_watchBefore _ hbefore

theorem releaseHold_of_untripped (ht : s.Takes .m (queuedOrder 0x63 tag [n])) (hn : n.toNat ≤ 3)
    (hv : (s.watch n.toNat).trace = none) :
    exec .releaseHold s = .next (s.refusal .m 0x63 tag .noEntry []) := by
  refine releaseHold_of_answer ht ?_
  rw [releaseHoldOf, if_neg (by simpa using hn), State.taken_watch]
  cases hwatch : s.watch n.toNat with
  | tripped => rw [hwatch] at hv; cases hv
  | idle | armed => rfl

theorem releaseHold_of_tripped {i : Nat} {r hold : Bool} {tr : TraceRecord}
    (ht : s.Takes .m (queuedOrder 0x63 tag [n])) (hn : n.toNat ≤ 3)
    (hv : s.watch n.toNat = .tripped i r hold tr) {held : Bool}
    (hheld : (s.clearHold n.toNat).tracedStillHeld tr = held) :
    exec .releaseHold s = .next (s.done .m 0x63 tag
      [n, if hold = true then 1 else 0, if held = true then 1 else 0] fun t =>
      { t with
        watches := (s.clearHold n.toNat).watches
        connections := (s.clearHold n.toNat).connections }) := by
  subst hheld
  refine releaseHold_of_answer ht ?_
  rw [releaseHoldOf, if_neg (by simpa using hn), State.taken_watch, hv, s.clearHold_taken, byteOf_toNat]
  rfl

end takes

/-- Settles O38: each refusal and each effect by its own lemma; RELEASE HOLD's last byte is what the
laws of call trace say of the record once the hold has been cleared. -/
theorem watchOrdersArmClearAndDisarm : Obligations.WatchOrdersArmClearAndDisarm := by
  unfold Obligations.WatchOrdersArmClearAndDisarm
  intro s tag iHi iLo request n identity
  refine ⟨fun ht hrequest => ⟨fun hrange => ?_, fun hlow hhigh hwatched => ?_,
      fun hlow hhigh hnew => ⟨fun hbusy => ?_, fun m hm hidle hfirst => ?_⟩⟩,
    ⟨fun hrange => watchOrders_refused hrange,
      fun hn => ⟨fun hv ht => clearTrace_of_idle ht hn hv,
        fun hv ht => releaseHold_of_untripped ht hn hv,
        fun i r hv ht => clearTrace_of_armed ht hn hv⟩⟩,
    fun hn => ?_⟩
  · exact armWatch_of_answer ht hrequest (by rw [armWatchOn_of_range hrange]; rfl)
  · refine armWatch_of_answer ht hrequest ?_
    rw [armWatchOn_of_watched hlow hhigh (by simpa only [State.taken_watch] using hwatched)]
    rfl
  · refine armWatch_of_answer ht hrequest ?_
    rw [armWatchOn_of_full hlow hhigh (by simpa only [State.taken_watch] using hnew)
      (by simpa only [State.taken_watch] using hbusy)]
    rfl
  · refine armWatch_of_answer ht hrequest ?_
    rw [armWatchOn_of_idle hlow hhigh (by simpa only [State.taken_watch] using hnew) hm
      ((s.taken_watch .m m).trans hidle) (by simpa only [State.taken_watch] using hfirst),
      yesNo_flag hrequest]
    rfl
  intro before
  have hlt : n.toNat < 4 := Nat.lt_succ_of_le hn
  have hcleared := s.clearHold_holdCleared hlt
  have hbefore : watchBeforeFields n.toNat s = before := by
    simp only [before, watchBeforeFields, byteOf_toNat]
    cases s.watch n.toNat <;> rfl
  refine ⟨fun ht => ⟨_, hcleared.setWatch .idle, disarmWatch_of_takes ht hn hbefore⟩,
    fun i r hold tr hv => ⟨fun ht => ⟨_, hcleared.setWatch _,
      clearTrace_of_tripped ht hn hv hbefore⟩, fun ht hlaw htable => ?_⟩⟩
  rw [hv] at hcleared
  refine ⟨_, hcleared, releaseHold_of_tripped ht hn hv ?_⟩
  rw [State.clearHold_tracedStillHeld ⟨htable, hlaw⟩ hlt hv]
  refine congrArg (!tr.releasedSince && ·) (any_congr_of_mem fun m _ => ?_)
  cases s.watch m with
  | tripped _ _ other _ => cases other <;> rfl
  | idle | armed => rfl

/-! ### LOOK WATCH (R167) -/

/-- What LOOK WATCH replies with, given the free bytes of an absent trace record (R167, log entry 9). -/
def lookWatchFields (n : Byte) (v : Watch) (free : List Byte) : List Byte :=
  [n, watchStateCode v] ++ optionalIdentity v.identity
    ++ [(v.holdRequest.map yesNo).getD 0xFF, yesNo v.holdFlag] ++ traceFields free v

theorem lookWatch_of_takes {s : State} {tag n : Byte} (ht : s.Takes .m (queuedOrder 0x64 tag [n]))
    (hn : n.toNat ≤ 3) {k : Nat} (hk : freeBytesOfWatch (s.watch n.toNat) = k) :
    exec .lookWatch s = .next (s.done .m 0x64 tag
      (lookWatchFields n (s.watch n.toNat) (s.freeBytes k)) fun t =>
        { t with freeIndex := s.freeIndex + k }) := by
  subst hk
  refine lookWatch_of_answer ht ?_
  rw [lookWatchOf, if_neg (by simpa using hn), State.taken_watch, State.taken_freeBytes, byteOf_toNat]
  rfl

/-- A TRIPPED watch is reported without free bytes, and nothing changes (R167). -/
theorem lookWatch_of_tripped {s : State} {tag n : Byte} {i : Nat} {r hold : Bool} {tr : TraceRecord}
    (ht : s.Takes .m (queuedOrder 0x64 tag [n])) (hn : n.toNat ≤ 3)
    (hv : s.watch n.toNat = .tripped i r hold tr) :
    exec .lookWatch s = .next (s.done .m 0x64 tag
      (lookWatchFields n (.tripped i r hold tr) []) fun t => t) := by
  rw [lookWatch_of_takes ht hn (k := 0) (by rw [hv]; rfl), hv]
  simp only [State.done, Nat.add_zero, ← s.taken_freeIndex .m]
  rfl

theorem traceRoleCode_eq (role : TraceRole) :
    traceRoleCode role = if role = .source then 0 else 1 := by
  cases role <;> rfl

/-- Settles O39: the report is read off the cases of the watch. -/
theorem lookWatchReportsTheTraceRecord : Obligations.LookWatchReportsTheTraceRecord := by
  unfold Obligations.LookWatchReportsTheTraceRecord
  intro s tag n ht
  refine ⟨fun hrange => lookWatch_of_answer ht ?_, fun hn => ⟨fun i r hold tr hv => ?_, fun hv => ?_⟩⟩
  · rw [lookWatchOf, if_pos (decide_eq_true hrange)]
    rfl
  · rw [lookWatch_of_tripped ht hn hv, lookWatchFields, traceFields, traceRoleCode_eq]
    simp only [List.append_assoc]
    rfl
  · have hlook := lookWatch_of_takes ht hn (k := 6)
    refine ⟨s.freeBytes 6, s.length_freeBytes 6, ?_⟩
    cases hwatch : s.watch n.toNat with
    | tripped => rw [hwatch] at hv; cases hv
    | idle | armed =>
      rw [hwatch] at hlook
      exact hlook rfl

end Sys2Proof.Machine
end
